-- ==== Sys2Proof/Word.lean ====
section
/-!
DEFINITION. Sys2Proof/Word.lean: the word types of the SK-2560 and the plainest arithmetic on them.
Register values, stamps and counts are natural numbers bounded by their field; the words that travel
on a bus or lie in memory are bit vectors.
-/
namespace Sys2Proof

/-- One byte of memory. -/
abbrev Byte := BitVec 8
/-- A 16-bit engine word (R35). -/
abbrev Half := BitVec 16
/-- A 32-bit bus word (R14). -/
abbrev Word := BitVec 32

/-- Two's complement reading of the low `w` bits of `v`. -/
def toSigned (w v : Nat) : Int :=
  if v % 2 ^ w < 2 ^ (w - 1) then ((v % 2 ^ w : Nat) : Int) else ((v % 2 ^ w : Nat) : Int) - ((2 ^ w : Nat) : Int)

/-- The low `w` bits of an integer in two's complement. -/
def ofSigned (w : Nat) (i : Int) : Nat := (i % ((2 ^ w : Nat) : Int)).toNat

/-- Bits `[lo + w − 1 : lo]` of `v`. -/
def bits (v lo w : Nat) : Nat := (v / 2 ^ lo) % 2 ^ w

/-- Bit `i` of `v`, as a truth value. -/
def bit (v i : Nat) : Bool := (v / 2 ^ i) % 2 == 1

/-- 1 for true and 0 for false. -/
def b2n (b : Bool) : Nat := if b then 1 else 0

end Sys2Proof
end

