-- ==== Sys2Proof/Syntax.lean ====
section
/-!
DEFINITION. Sys2Proof/Syntax.lean: the commands of the SK-2560, one constructor for each row of the opcode table, and the operand types
that they use. A command is a register access of a master, an event on a ball or a link, an event that the device itself brings about,
or an instruction of an engine. Times are TAI since the epoch: in ns, or in 2^-16 ns where a stamp is meant (R7).
-/
namespace Sys2Proof.Machine

/-- Who performs a register access: the masters of R37, each engine's wheel lane (R42), and the unit number
used for per-master latches (R47, R9) and transaction owners (R309). -/
inductive Master where
  | pcie | spi | i2c | keel | trust | dma | eth | crew
  | ce (n : Nat)
deriving DecidableEq, Repr

end Sys2Proof.Machine

namespace Sys2Proof

/-- The Keel services that a micro-trap can strike (R372). -/
inductive KeelSvc where
  | rigLoad | patchLoad | codeCopy | trust | carrierChange | timeSet | filterUpdate | modelSave
  | other (cls : Nat)
deriving DecidableEq, Repr

/-- How a load of Keel's ends: whether the signature in question verifies, an uncorrectable DRAM error met in what is loaded (R379), and a
match register whose patch word shows a parity error in the service (R383). -/
structure LoadEnd where
  sigOk : Bool
  ecc : Option (BitVec 32) := none
  parity : Option (Fin 64) := none
deriving DecidableEq, Repr

/-- An edge at a tracker's input: its direction and the width of its pulse in ns. -/
structure Pulse where
  rising : Bool
  width : Nat
deriving DecidableEq, Repr

/-- What surrounds a received crew frame: its port, the header fields of R321 that bear on state, and whether its tag verifies. -/
structure Hdr where
  port : Nat
  dst : Nat      -- [9:0] crew ID; [14] BCAST
  src : Nat
  seq : Nat      -- SEQ: [11:0] number, [15:12] generation
  fcnt : Nat
  tagOk : Bool
deriving DecidableEq, Repr

/-- The payload of a TIMING frame (R324), with the arrival stamp at this device's ball. -/
structure TimingMsg where
  arrive : Nat   -- t2, 2^-16 ns
  stamp : Nat    -- the sender's arrival stamp of our last frame, 2^-16 ns
  serial : Nat
  prio : Nat
  hops : Nat
  uplink : Bool
  refused : Bool
  tbState : Nat
  bound : Nat
  level : Nat
  spanMin : Nat
  spanMax : Nat
  strokeNo : Nat -- the sender's stroke number [31:0]
deriving DecidableEq, Repr

/-- The payload of a ROLL_REPLY (R322); 1,024 or above stands for no stored crew ID. -/
structure ReplyMsg where
  serial : Nat
  id : Nat
  spanMin : Nat
  spanMax : Nat
  sdWords : Nat
  path : Nat
  hops : Nat
deriving DecidableEq, Repr

/-- The payload of a ROLL_RESULT (R322, R329) as it bears on this device: completion catch, crew level, roster and stroke-data
bitmaps, and the ID granted to this device. -/
structure ResultMsg where
  at_ : Nat
  level : Nat
  roster : Nat
  sd : Nat
  grant : Option Nat
deriving DecidableEq, Repr

/-- The AUTHENTICATION TLV of a received PTP message (R365): the association that it names, whether its form is a valid one, and whether
its ICV is right under that association's key. -/
structure PtpAuth where
  spp : Nat
  keyId : Nat
  form : Bool
  icv : Bool
deriving DecidableEq, Repr

/-- What surrounds a received PTP message: port, domain, sequenceId, its AUTHENTICATION TLV, the instant in 2^-16 ns at which it crossed
the MII, and the whole frame as bytes. -/
structure PtpHdr where
  port : Nat
  domain : Nat
  seq : Nat
  auth : Option PtpAuth
  mii : Nat
  bytes : List Nat
deriving DecidableEq, Repr

/-- The content of an Announce message. -/
structure AnnMsg where
  id : Nat         -- sender's clockIdentity
  portNo : Nat
  prio1 : Nat
  cls : Nat
  accuracy : Nat
  variance : Nat
  prio2 : Nat
  gm : Nat         -- grandmaster identity
  steps : Nat
  utc : Int
  utcValid : Bool
  leap61 : Bool
  leap59 : Bool
deriving DecidableEq, Repr

/-- The boot directory of R517 with what lies in the boot flash: the patch package with the outcome of its vendor and endorsement
signatures, and the images with that of theirs. -/
structure BootDir where
  backup : Bool
  dramCfg : Nat
  baseA : Nat
  baseB : Nat
  patch : Option (List Nat × Bool × Bool)
  imgA : Option (List Nat × Bool)
  imgB : Option (List Nat × Bool)
deriving DecidableEq, Repr

/-- What a boot finds: the straps (R516), the directory unless both copies fail, and whether the life-cycle record, the three
counters and the key store authenticate (R471, R482, R484); `took` is the time that the stages take, in ns. -/
structure BootIn where
  strap : Nat
  strap2 : Bool
  dir : Option BootDir
  lcOk : Bool
  rigOk : Bool
  patchOk : Bool
  tokenOk : Bool
  storeOk : Bool
  took : Nat
deriving DecidableEq, Repr

/-- A split FIFO: of a tracker, a counter or a channel (R121, R122, R173). -/
inductive SplitFifo where
  | trk (n : Fin 8)
  | cnt (n : Fin 32)
  | ch (n : Fin 256)
deriving DecidableEq, Repr


/-- The commands of the SK-2560, one constructor for each row of the opcode table in its order. -/
inductive Instr where
  /-- CATCH, R22. The stroke ends and the next one opens. -/
  | strokeCatch
  /-- FINISH_WINDOW, R25. The finish window opens. -/
  | finishWindow
  /-- PERIOD_CHANGE, R28. The coming catch, when a committed period takes effect at it. -/
  | periodChange
  /-- FABRIC_GRANT, R38. `kind` is the error that the read meets (R438): 0 none, 1 correctable, 2 uncorrectable. -/
  | fabricGrant (kind : Fin 3)
  /-- STROKE_NO_LO_READ, R9. A read by master `m`. -/
  | strokeNoLoRead (m : Machine.Master)
  /-- MAXWAIT_CLEAR, R41. -/
  | maxwaitClear
  /-- TIME_SEC_LO_READ, R47. -/
  | timeSecLoRead (m : Machine.Master)
  /-- FFO_LO_READ, R48. -/
  | ffoLoRead (m : Machine.Master)
  /-- FREQ_LO_READ, R77. -/
  | freqLoRead (m : Machine.Master) (n : Fin 4)
  /-- FILTER_UPDATE, R53. -/
  | filterUpdate
  /-- FFO_APPLY, R48. The coming catch, when an update's output waits for it. -/
  | ffoApply
  /-- OSC_FAULT, R52. Enabled oscillator `n` is declared faulty. -/
  | oscFault (n : Fin 4)
  /-- OSC_RETURN, R52. -/
  | oscReturn (n : Fin 4)
  /-- CARRIER_CHANGE, R49. Keel's service ends; the DCO moves at the next catch. -/
  | carrierChange
  /-- MODEL_SAVE, R58. -/
  | modelSave
  /-- MODEL_CLEAR, R59. -/
  | modelClear
  /-- TIME_SET_GO, R64. -/
  | timeSetGo
  /-- TIME_SET, R64. Keel's service ends; the set applies at the next catch. -/
  | timeSet
  /-- TIME_STEP, R62. The coming catch, when a step is due at it. -/
  | timeStep
  /-- TB_STATE_CHANGE, R65. The coming catch, when a state change is due at it. -/
  | tbStateChange
  /-- LEAP_SECOND, R72. The coming catch, when a leap second is due at it. -/
  | leapSecond
  /-- MOORED_TICK, R74. -/
  | mooredTick
  /-- TRK_EDGE, R89. An edge at `stamp` (2^-16 ns of TAI). -/
  | trkEdge (n : Fin 8) (stamp : Nat) (edge : Pulse)
  /-- TOOTH_DECISION, R90. The candidate, whose pulse is `width` ns wide, is decided. -/
  | toothDecision (n : Fin 8) (width : Nat)
  /-- SYNTHETIC_TOOTH, R91. -/
  | syntheticTooth (n : Fin 8)
  /-- QUAL_EXPIRE, R98. -/
  | qualExpire (n : Fin 8)
  /-- QUARANTINE_HOLD_EXPIRE, R104. -/
  | holdExpire (n : Fin 8)
  /-- PULL_IN_DONE, R97. -/
  | pullInDone (n : Fin 8)
  /-- TT_DATA_HI_WRITE, R81. -/
  | ttDataHiWrite (n : Fin 8) (v : BitVec 32)
  /-- TRK_RESTART, R98. -/
  | trkRestart (n : Fin 8)
  /-- TRK_RELEASE, R106. -/
  | trkRelease (n : Fin 8)
  /-- PHASE_TRIGGER, R112. Trigger `k` of tracker `n`. -/
  | phaseTrigger (n : Fin 8) (k : Fin 4)
  /-- REV_NO_LO_READ, R95. -/
  | revNoLoRead (m : Machine.Master) (n : Fin 8)
  /-- CNT_INDEX, R115. An index event in the TCLK `at_`, in ns of TAI. -/
  | cntIndex (n : Fin 32) (at_ : Nat)
  /-- CNT_GATE, R118. The coming catch, when the gate of counter `n` closes at it. -/
  | cntGate (n : Fin 32)
  /-- CNT_ARM, R115. -/
  | cntArm (n : Fin 32)
  /-- COUNT_LO_READ, R115. -/
  | countLoRead (m : Machine.Master) (n : Fin 32)
  /-- SPLIT_POP, R122. A read of the last word of FIFO `f`. -/
  | splitPop (m : Machine.Master) (f : SplitFifo)
  /-- COX_CONVERSION, R137. -/
  | coxConversion
  /-- REFILL_BURST, R131. -/
  | refillBurst
  /-- REFILL_RETURN, R131. `bad`: the burst of list `k` has an uncorrectable error. -/
  | refillReturn (k : Fin 8) (bad : Bool)
  /-- ARMED_LO_READ, R150. -/
  | armedLoRead (m : Machine.Master)
  /-- PERF_CLEAR, R150. -/
  | perfClear
  /-- ACTION_NOP, R159. -/
  | actionNop (n : Fin 256)
  /-- SET_HIGH, R159. -/
  | setHigh (n : Fin 256)
  /-- SET_LOW, R159. -/
  | setLow (n : Fin 256)
  /-- TOGGLE, R159. -/
  | toggle (n : Fin 256)
  /-- PULSE, R159. -/
  | pulse (n : Fin 256)
  /-- TRAIN_START, R159. -/
  | trainStart (n : Fin 256)
  /-- TRAIN_STOP, R163. -/
  | trainStop (n : Fin 256)
  /-- CAPTURE_ARM, R166. -/
  | captureArm (n : Fin 256)
  /-- CAPTURE_DISARM, R166. -/
  | captureDisarm (n : Fin 256)
  /-- TRIG_ADC, R526. -/
  | trigAdc (n : Fin 256)
  /-- TRIG_DMA, R421. -/
  | trigDma (n : Fin 256)
  /-- SIGNAL_CE, R159. -/
  | signalCe (n : Fin 256)
  /-- RAISE_IRQ, R159. -/
  | raiseIrq (n : Fin 256)
  /-- GATE_OPEN, R202. -/
  | gateOpen (n : Fin 256)
  /-- GATE_CLOSE, R202. -/
  | gateClose (n : Fin 256)
  /-- MARK, R125. -/
  | mark (n : Fin 256)
  /-- PULSE_RETURN, R161. -/
  | pulseReturn (n : Fin 256)
  /-- TRAIN_PULSE, R163. -/
  | trainPulse (n : Fin 256)
  /-- HEV_GO, R154. -/
  | hevGo (n : Fin 256)
  /-- FLUSH, R158. -/
  | flush (n : Fin 256)
  /-- FIFO_CLEAR, R177. -/
  | fifoClear (n : Fin 256)
  /-- CH_COUNT_CLEAR, R189. -/
  | chCountClear (n : Fin 256)
  /-- CAPTURE_EDGE, R168. An edge that crosses the input at `t`, in 2^-16 ns of TAI. -/
  | captureEdge (n : Fin 256) (t : Nat) (rising : Bool)
  /-- MEAS_TIMEOUT, R167. -/
  | measTimeout (n : Fin 256)
  /-- STARVE, R179. The coming catch, when starvation begins at it. -/
  | starve (n : Fin 256)
  /-- CALIBRATION, R172. -/
  | calibration (n : Fin 256)
  /-- KA_PATTERN_EVENT, R186. -/
  | kaPatternEvent (n : Fin 256)
  /-- KA_END, R187. -/
  | kaEnd (n : Fin 256)
  /-- SYN_CALIBRATION_DONE, R194. -/
  | synCalibrationDone (n : Fin 4)
  /-- PHASE_LOCK, R194. -/
  | phaseLock (n : Fin 4)
  /-- LOCK_LOST, R194. -/
  | lockLost (n : Fin 4)
  /-- SYN_ALIGNED, R194. -/
  | synAligned (n : Fin 4)
  /-- RECAL, R194. -/
  | recal (n : Fin 4)
  /-- GUARD_PERIOD, R196. -/
  | guardPeriod (n : Fin 4)
  /-- CAL_ROUND, R197. -/
  | calRound (n : Fin 4)
  /-- CAL_OVERDUE, R197. -/
  | calOverdue (n : Fin 4)
  /-- TXG_OPEN, R202. -/
  | txgOpen (n : Fin 8)
  /-- TXG_CLOSE, R202. -/
  | txgClose (n : Fin 8)
  /-- GATE_TIMEOUT, R203. The coming catch, when it rejects the request. -/
  | gateTimeout (n : Fin 8)
  /-- CE_START, R208. The coming catch, when engine `n` starts at it. -/
  | ceStart (n : Fin 8)
  /-- WHEEL_ACCESS_COMPLETE, R43. -/
  | wheelAccessComplete (n : Fin 8)
  /-- INTERRUPT_ENTRY, R235. -/
  | interruptEntry (n : Fin 8)
  /-- WAIT_WAKE, R237. -/
  | waitWake (n : Fin 8)
  /-- HALT, R238. -/
  | halt (n : Fin 8)
  /-- RESUME, R238. -/
  | resume (n : Fin 8)
  /-- STEP, R238. -/
  | ceStep (n : Fin 8)
  /-- XREG_WRITE, R238. Register `i` of engine `n`. -/
  | xregWrite (n : Fin 8) (i : Fin 256) (v : BitVec 32)
  /-- SPEC_WRITE, R238. Special register `j` of engine `n`. -/
  | specWrite (n : Fin 8) (j : Fin 32) (v : BitVec 32)
  /-- RUNMAX_CLEAR, R239. -/
  | runmaxClear (n : Fin 8)
  /-- NOP, R246. -/
  | ceNop (n : Fin 8) (c : BitVec 4)
  /-- JMPR, R246. -/
  | ceJmpr (n : Fin 8) (c : BitVec 4) (a : BitVec 5)
  /-- CALLR, R246. -/
  | ceCallr (n : Fin 8) (c : BitVec 4) (a : BitVec 5) (sh : BitVec 2)
  /-- RET, R246. -/
  | ceRet (n : Fin 8) (c : BitVec 4) (sh : BitVec 2)
  /-- RTT, R233. -/
  | ceRtt (n : Fin 8) (c : BitVec 4)
  /-- RTI, R233. -/
  | ceRti (n : Fin 8) (c : BitVec 4)
  /-- YIELD, R225. -/
  | ceYield (n : Fin 8) (c : BitVec 4)
  /-- WAIT, R237. -/
  | ceWait (n : Fin 8) (c : BitVec 4)
  /-- TRAP, R248. -/
  | ceTrap (n : Fin 8) (c : BitVec 4)
  /-- SPILL, R214. -/
  | ceSpill (n : Fin 8) (c : BitVec 4)
  /-- FILL, R214. -/
  | ceFill (n : Fin 8) (c : BitVec 4)
  /-- REP, R250. -/
  | ceRep (n : Fin 8) (c : BitVec 4) (a : BitVec 5) (t : Bool)
  /-- REPI, R250. -/
  | ceRepi (n : Fin 8) (c : BitVec 4) (k : BitVec 15) (t : Bool)
  /-- MFS, R246. -/
  | ceMfs (n : Fin 8) (c : BitVec 4) (d : BitVec 5) (sr : BitVec 5)
  /-- MTS, R246. -/
  | ceMts (n : Fin 8) (c : BitVec 4) (sr : BitVec 5) (a : BitVec 5)
  /-- EI, R249. -/
  | ceEi (n : Fin 8) (c : BitVec 4)
  /-- DI, R249. -/
  | ceDi (n : Fin 8) (c : BitVec 4)
  /-- JMP, R246. -/
  | ceJmp (n : Fin 8) (c : BitVec 4) (target : BitVec 16)
  /-- CALL, R246. -/
  | ceCall (n : Fin 8) (c : BitVec 4) (target : BitVec 16) (sh : BitVec 2)
  /-- ADD, R254. -/
  | ceAdd (n : Fin 8) (c : BitVec 4) (alu1 : Bool) (d : BitVec 5) (a : BitVec 5) (b : BitVec 5) (f : Bool)
  /-- ADC, R254. -/
  | ceAdc (n : Fin 8) (c : BitVec 4) (alu1 : Bool) (d : BitVec 5) (a : BitVec 5) (b : BitVec 5) (f : Bool)
  /-- SUB, R254. -/
  | ceSub (n : Fin 8) (c : BitVec 4) (alu1 : Bool) (d : BitVec 5) (a : BitVec 5) (b : BitVec 5) (f : Bool)
  /-- SBC, R254. -/
  | ceSbc (n : Fin 8) (c : BitVec 4) (alu1 : Bool) (d : BitVec 5) (a : BitVec 5) (b : BitVec 5) (f : Bool)
  /-- AND, R254. -/
  | ceAnd (n : Fin 8) (c : BitVec 4) (alu1 : Bool) (d : BitVec 5) (a : BitVec 5) (b : BitVec 5) (f : Bool)
  /-- OR, R254. -/
  | ceOr (n : Fin 8) (c : BitVec 4) (alu1 : Bool) (d : BitVec 5) (a : BitVec 5) (b : BitVec 5) (f : Bool)
  /-- XOR, R254. -/
  | ceXor (n : Fin 8) (c : BitVec 4) (alu1 : Bool) (d : BitVec 5) (a : BitVec 5) (b : BitVec 5) (f : Bool)
  /-- ANDN, R254. -/
  | ceAndn (n : Fin 8) (c : BitVec 4) (alu1 : Bool) (d : BitVec 5) (a : BitVec 5) (b : BitVec 5) (f : Bool)
  /-- SHL, R254. -/
  | ceShl (n : Fin 8) (c : BitVec 4) (alu1 : Bool) (d : BitVec 5) (a : BitVec 5) (b : BitVec 5) (f : Bool)
  /-- SHR, R254. -/
  | ceShr (n : Fin 8) (c : BitVec 4) (alu1 : Bool) (d : BitVec 5) (a : BitVec 5) (b : BitVec 5) (f : Bool)
  /-- SAR, R254. -/
  | ceSar (n : Fin 8) (c : BitVec 4) (alu1 : Bool) (d : BitVec 5) (a : BitVec 5) (b : BitVec 5) (f : Bool)
  /-- ROL, R254. -/
  | ceRol (n : Fin 8) (c : BitVec 4) (alu1 : Bool) (d : BitVec 5) (a : BitVec 5) (b : BitVec 5) (f : Bool)
  /-- MIN, R254. -/
  | ceMin (n : Fin 8) (c : BitVec 4) (alu1 : Bool) (d : BitVec 5) (a : BitVec 5) (b : BitVec 5) (f : Bool)
  /-- MAX, R254. -/
  | ceMax (n : Fin 8) (c : BitVec 4) (alu1 : Bool) (d : BitVec 5) (a : BitVec 5) (b : BitVec 5) (f : Bool)
  /-- MINU, R254. -/
  | ceMinu (n : Fin 8) (c : BitVec 4) (alu1 : Bool) (d : BitVec 5) (a : BitVec 5) (b : BitVec 5) (f : Bool)
  /-- MAXU, R254. -/
  | ceMaxu (n : Fin 8) (c : BitVec 4) (alu1 : Bool) (d : BitVec 5) (a : BitVec 5) (b : BitVec 5) (f : Bool)
  /-- CMP, R254. -/
  | ceCmp (n : Fin 8) (c : BitVec 4) (alu1 : Bool) (a : BitVec 5) (b : BitVec 5) (f : Bool)
  /-- TST, R254. -/
  | ceTst (n : Fin 8) (c : BitVec 4) (alu1 : Bool) (a : BitVec 5) (b : BitVec 5) (f : Bool)
  /-- MOV, R254. -/
  | ceMov (n : Fin 8) (c : BitVec 4) (alu1 : Bool) (d : BitVec 5) (a : BitVec 5) (f : Bool)
  /-- NEG, R254. -/
  | ceNeg (n : Fin 8) (c : BitVec 4) (alu1 : Bool) (d : BitVec 5) (a : BitVec 5) (f : Bool)
  /-- NOT, R254. -/
  | ceNot (n : Fin 8) (c : BitVec 4) (alu1 : Bool) (d : BitVec 5) (a : BitVec 5) (f : Bool)
  /-- ABS, R254. -/
  | ceAbs (n : Fin 8) (c : BitVec 4) (alu1 : Bool) (d : BitVec 5) (a : BitVec 5) (f : Bool)
  /-- SEXT8, R254. -/
  | ceSext8 (n : Fin 8) (c : BitVec 4) (alu1 : Bool) (d : BitVec 5) (a : BitVec 5) (f : Bool)
  /-- SWAPB, R254. -/
  | ceSwapb (n : Fin 8) (c : BitVec 4) (alu1 : Bool) (d : BitVec 5) (a : BitVec 5) (f : Bool)
  /-- ADDS, R254. -/
  | ceAdds (n : Fin 8) (c : BitVec 4) (alu1 : Bool) (d : BitVec 5) (a : BitVec 5) (b : BitVec 5) (f : Bool)
  /-- SUBS, R254. -/
  | ceSubs (n : Fin 8) (c : BitVec 4) (alu1 : Bool) (d : BitVec 5) (a : BitVec 5) (b : BitVec 5) (f : Bool)
  /-- ADDI, R254. -/
  | ceAddi (n : Fin 8) (c : BitVec 4) (alu1 : Bool) (d : BitVec 5) (a : BitVec 5) (f : Bool) (imm : BitVec 7)
  /-- ANDI, R254. -/
  | ceAndi (n : Fin 8) (c : BitVec 4) (alu1 : Bool) (d : BitVec 5) (a : BitVec 5) (f : Bool) (imm : BitVec 7)
  /-- ORI, R254. -/
  | ceOri (n : Fin 8) (c : BitVec 4) (alu1 : Bool) (d : BitVec 5) (a : BitVec 5) (f : Bool) (imm : BitVec 7)
  /-- XORI, R254. -/
  | ceXori (n : Fin 8) (c : BitVec 4) (alu1 : Bool) (d : BitVec 5) (a : BitVec 5) (f : Bool) (imm : BitVec 7)
  /-- SHLI, R254. -/
  | ceShli (n : Fin 8) (c : BitVec 4) (alu1 : Bool) (d : BitVec 5) (a : BitVec 5) (f : Bool) (imm : BitVec 4)
  /-- SHRI, R254. -/
  | ceShri (n : Fin 8) (c : BitVec 4) (alu1 : Bool) (d : BitVec 5) (a : BitVec 5) (f : Bool) (imm : BitVec 4)
  /-- SARI, R254. -/
  | ceSari (n : Fin 8) (c : BitVec 4) (alu1 : Bool) (d : BitVec 5) (a : BitVec 5) (f : Bool) (imm : BitVec 4)
  /-- ROLI, R254. -/
  | ceRoli (n : Fin 8) (c : BitVec 4) (alu1 : Bool) (d : BitVec 5) (a : BitVec 5) (f : Bool) (imm : BitVec 4)
  /-- CMPI, R254. -/
  | ceCmpi (n : Fin 8) (c : BitVec 4) (alu1 : Bool) (a : BitVec 5) (f : Bool) (imm : BitVec 7)
  /-- MOVI, R254. -/
  | ceMovi (n : Fin 8) (c : BitVec 4) (alu1 : Bool) (d : BitVec 5) (imm : BitVec 16)
  /-- LD, R256. -/
  | ceLd (n : Fin 8) (c : BitVec 4) (r : BitVec 5) (k : BitVec 3) (a : BitVec 5) (disp : BitVec 5)
  /-- LDP, R256. -/
  | ceLdp (n : Fin 8) (c : BitVec 4) (r : BitVec 5) (k : BitVec 3) (a : BitVec 5) (disp : BitVec 5)
  /-- ST, R256. -/
  | ceSt (n : Fin 8) (c : BitVec 4) (r : BitVec 5) (k : BitVec 3) (a : BitVec 5) (disp : BitVec 5)
  /-- STP, R256. -/
  | ceStp (n : Fin 8) (c : BitVec 4) (r : BitVec 5) (k : BitVec 3) (a : BitVec 5) (disp : BitVec 5)
  /-- LD_POSTINC, R256. -/
  | ceLdPostinc (n : Fin 8) (c : BitVec 4) (r : BitVec 5) (k : BitVec 3) (a : BitVec 5)
  /-- LDP_POSTINC, R256. -/
  | ceLdpPostinc (n : Fin 8) (c : BitVec 4) (r : BitVec 5) (k : BitVec 3) (a : BitVec 5)
  /-- ST_POSTINC, R256. -/
  | ceStPostinc (n : Fin 8) (c : BitVec 4) (r : BitVec 5) (k : BitVec 3) (a : BitVec 5)
  /-- STP_POSTINC, R256. -/
  | ceStpPostinc (n : Fin 8) (c : BitVec 4) (r : BitVec 5) (k : BitVec 3) (a : BitVec 5)
  /-- LDA, R256. -/
  | ceLda (n : Fin 8) (c : BitVec 4) (r : BitVec 5) (k : BitVec 3) (imm : BitVec 10)
  /-- STA, R256. -/
  | ceSta (n : Fin 8) (c : BitVec 4) (r : BitVec 5) (k : BitVec 3) (imm : BitVec 10)
  /-- LDPA, R256. -/
  | ceLdpa (n : Fin 8) (c : BitVec 4) (r : BitVec 5) (k : BitVec 3) (imm : BitVec 10)
  /-- STPA, R256. -/
  | ceStpa (n : Fin 8) (c : BitVec 4) (r : BitVec 5) (k : BitVec 3) (imm : BitVec 10)
  /-- MOVW, R258. -/
  | ceMovw (n : Fin 8) (c : BitVec 4) (ks : BitVec 3) (kd : BitVec 3) (a : BitVec 5) (b : BitVec 5)
  /-- SCANW, R256. -/
  | ceScanw (n : Fin 8) (c : BitVec 4) (r : BitVec 5) (k : BitVec 3) (a : BitVec 5)
  /-- ARM, R261. -/
  | ceArm (n : Fin 8) (c : BitVec 4) (d : BitVec 5) (m : BitVec 4) (nh : BitVec 4)
  /-- ARMP, R260. -/
  | ceArmp (n : Fin 8) (c : BitVec 4) (d : BitVec 5) (m : BitVec 4)
  /-- GETSN, R260. -/
  | ceGetsn (n : Fin 8) (c : BitVec 4) (d : BitVec 5)
  /-- GETCT, R260. -/
  | ceGetct (n : Fin 8) (c : BitVec 4) (d : BitVec 5)
  /-- TCLR, R260. -/
  | ceTclr (n : Fin 8) (c : BitVec 4)
  /-- BSET, R263. -/
  | ceBset (n : Fin 8) (c : BitVec 4) (d : BitVec 5) (a : BitVec 5) (p : BitVec 4)
  /-- BCLR, R263. -/
  | ceBclr (n : Fin 8) (c : BitVec 4) (d : BitVec 5) (a : BitVec 5) (p : BitVec 4)
  /-- BTGL, R263. -/
  | ceBtgl (n : Fin 8) (c : BitVec 4) (d : BitVec 5) (a : BitVec 5) (p : BitVec 4)
  /-- BTST, R263. -/
  | ceBtst (n : Fin 8) (c : BitVec 4) (a : BitVec 5) (p : BitVec 4)
  /-- BEXT, R263. -/
  | ceBext (n : Fin 8) (c : BitVec 4) (d : BitVec 5) (a : BitVec 5) (p : BitVec 4) (q : BitVec 4)
  /-- BINS, R263. -/
  | ceBins (n : Fin 8) (c : BitVec 4) (d : BitVec 5) (a : BitVec 5) (p : BitVec 4) (q : BitVec 4)
  /-- CLZ, R263. -/
  | ceClz (n : Fin 8) (c : BitVec 4) (d : BitVec 5) (a : BitVec 5)
  /-- POPC, R263. -/
  | cePopc (n : Fin 8) (c : BitVec 4) (d : BitVec 5) (a : BitVec 5)
  /-- PAR, R263. -/
  | cePar (n : Fin 8) (c : BitVec 4) (d : BitVec 5) (a : BitVec 5) (p : BitVec 4) (q : BitVec 4)
  /-- BREV, R263. -/
  | ceBrev (n : Fin 8) (c : BitVec 4) (d : BitVec 5) (a : BitVec 5)
  /-- BREV8, R263. -/
  | ceBrev8 (n : Fin 8) (c : BitVec 4) (d : BitVec 5) (a : BitVec 5)
  /-- CRCB, R264. -/
  | ceCrcb (n : Fin 8) (c : BitVec 4) (d : BitVec 5) (a : BitVec 5) (code : BitVec 2)
  /-- CRCW, R264. -/
  | ceCrcw (n : Fin 8) (c : BitVec 4) (d : BitVec 5) (a : BitVec 5) (code : BitVec 2)
  /-- MUL, R265. -/
  | ceMul (n : Fin 8) (c : BitVec 4) (d : BitVec 5) (a : BitVec 5) (b : BitVec 5) (f : Bool)
  /-- MULU, R265. -/
  | ceMulu (n : Fin 8) (c : BitVec 4) (d : BitVec 5) (a : BitVec 5) (b : BitVec 5) (f : Bool)
  /-- MAC, R265. -/
  | ceMac (n : Fin 8) (c : BitVec 4) (d : BitVec 5) (a : BitVec 5) (b : BitVec 5) (f : Bool)
  /-- MACS, R265. -/
  | ceMacs (n : Fin 8) (c : BitVec 4) (d : BitVec 5) (a : BitVec 5) (b : BitVec 5) (f : Bool)
  /-- MSU, R265. -/
  | ceMsu (n : Fin 8) (c : BitVec 4) (d : BitVec 5) (a : BitVec 5) (b : BitVec 5) (f : Bool)
  /-- MACU, R265. -/
  | ceMacu (n : Fin 8) (c : BitVec 4) (d : BitVec 5) (a : BitVec 5) (b : BitVec 5) (f : Bool)
  /-- MULQ, R265. -/
  | ceMulq (n : Fin 8) (c : BitVec 4) (d : BitVec 5) (a : BitVec 5) (b : BitVec 5) (f : Bool)
  /-- PE_START, R273. The coming catch, when engine `n` starts at it. -/
  | peStart (n : Fin 32)
  /-- BR, R276. -/
  | peBr (n : Fin 32) (ofs : BitVec 8) (side : BitVec 2) (pins : BitVec 160) (cond : BitVec 4) (target : BitVec 6)
  /-- HOLD, R275. -/
  | peHold (n : Fin 32) (ofs : BitVec 8) (side : BitVec 2) (pins : BitVec 160) (lvl : Bool) (src : BitVec 3) (index : BitVec 5)
  /-- SEND, R278. -/
  | peSend (n : Fin 32) (ofs : BitVec 8) (side : BitVec 2) (pins : BitVec 160) (dst : BitVec 2) (count : BitVec 6)
  /-- TAKE, R278. -/
  | peTake (n : Fin 32) (ofs : BitVec 8) (side : BitVec 2) (pins : BitVec 160) (src : BitVec 2) (count : BitVec 6)
  /-- PE_LOAD, R275. -/
  | peLoad (n : Fin 32) (ofs : BitVec 8) (side : BitVec 2) (pins : BitVec 160) (wait : Bool) (ifex : Bool)
  /-- PE_STORE, R275. -/
  | peStore (n : Fin 32) (ofs : BitVec 8) (side : BitVec 2) (pins : BitVec 160) (wait : Bool) (ifword : Bool)
  /-- PUT, R275. -/
  | pePut (n : Fin 32) (ofs : BitVec 8) (side : BitVec 2) (pins : BitVec 160) (dst : BitVec 2) (imm : BitVec 8)
  /-- LDC, R275. -/
  | peLdc (n : Fin 32) (ofs : BitVec 8) (side : BitVec 2) (pins : BitVec 160) (y : Bool) (tsh : Bool) (imm : BitVec 8)
  /-- SYNC, R272. -/
  | peSync (n : Fin 32) (ofs : BitVec 8) (side : BitVec 2) (pins : BitVec 160) (anchor : BitVec 2)
  /-- FLAG_SET, R275. -/
  | peFlagSet (n : Fin 32) (ofs : BitVec 8) (side : BitVec 2) (pins : BitVec 160) (flag : BitVec 3)
  /-- FLAG_CLEAR, R275. -/
  | peFlagClear (n : Fin 32) (ofs : BitVec 8) (side : BitVec 2) (pins : BitVec 160) (flag : BitVec 3)
  /-- FLAG_SIGNAL, R275. -/
  | peFlagSignal (n : Fin 32) (ofs : BitVec 8) (side : BitVec 2) (pins : BitVec 160) (flag : BitVec 3)
  /-- FLAG_WAIT, R287. -/
  | peFlagWait (n : Fin 32) (ofs : BitVec 8) (side : BitVec 2) (pins : BitVec 160) (flag : BitVec 3)
  /-- XFER, R275. -/
  | peXfer (n : Fin 32) (ofs : BitVec 8) (side : BitVec 2) (pins : BitVec 160) (dst : BitVec 3) (cpl : Bool) (src : BitVec 3)
  /-- PE_UNSTALL, R271. `pins` are the levels that the synchronisers took. -/
  | peUnstall (n : Fin 32) (pins : BitVec 160)
  /-- IDLE_FLUSH, R283. The coming catch, when it flushes the partial word of engine `n`. -/
  | idleFlush (n : Fin 32)
  /-- TXQ_PUSH, R281. -/
  | txqPush (n : Fin 32) (v : BitVec 32)
  /-- RXQ_POP, R281. -/
  | rxqPop (m : Machine.Master) (n : Fin 32)
  /-- GFLAGS_WRITE, R287. A write at the block of engine `n`, to the flags of its group. -/
  | gflagsWrite (n : Fin 32) (v : BitVec 8)
  /-- PE_RESTART, R273. -/
  | peRestart (n : Fin 32)
  /-- PE_COUNT_CLEAR, R290. -/
  | peCountClear (n : Fin 32)
  /-- RIG_LOAD, R301. -/
  | rigLoad
  /-- RIG_LOAD_COMPLETE, R301. `sigOk` of its end tells that every signature of the image verifies. -/
  | rigLoadComplete (load : LoadEnd)
  /-- RIG_ACCEPT, R303. -/
  | rigAccept
  /-- RIG_CLEAR, R304. -/
  | rigClear
  /-- CODE_COPY, R307. -/
  | codeCopy
  /-- TXN_BEGIN, R309. -/
  | txnBegin (m : Machine.Master)
  /-- COMMIT_NEXT, R312. -/
  | commitNext (m : Machine.Master) (handle : BitVec 16)
  /-- COMMIT_AT_STROKE, R312. -/
  | commitAtStroke (m : Machine.Master) (handle : BitVec 16)
  /-- COMMIT_AT_TIME, R312. -/
  | commitAtTime (m : Machine.Master) (handle : BitVec 16)
  /-- ROLLBACK, R312. -/
  | rollback (m : Machine.Master) (handle : BitVec 16)
  /-- COMMIT_CREW, R342. -/
  | commitCrew (m : Machine.Master) (handle : BitVec 16)
  /-- TIMING, R325. -/
  | timing (h : Hdr) (x : TimingMsg)
  /-- SD_UP, R337. `recs`: crew ID and words of each record. -/
  | sdUp (h : Hdr) (recs : List (Nat × List Nat))
  /-- SD_DOWN, R338. `stale`: one bit per crew ID. -/
  | sdDown (h : Hdr) (slots : List (Nat × List Nat)) (stale : Nat)
  /-- ROLL_POLL, R329. -/
  | rollPoll (h : Hdr) (epoch : Nat) (round : Nat)
  /-- ROLL_REPLY, R331. -/
  | rollReply (h : Hdr) (x : ReplyMsg)
  /-- ROLL_RESULT, R329. -/
  | rollResult (h : Hdr) (x : ResultMsg)
  /-- ROLL_REQ, R329. -/
  | rollReq (h : Hdr)
  /-- ROLL_CALL_ROUND, R329. The coming catch, when the lead's roll call acts at it. -/
  | rollCallRound
  /-- ROLL_CALL_COMPLETE, R332. The coming catch, when a roll call completes at it. -/
  | rollCallComplete
  /-- CC_BEGIN, R341. -/
  | ccBegin (h : Hdr)
  /-- CC_PREPARE, R343. `at_`: device time of catch a, in ns. -/
  | ccPrepare (h : Hdr) (at_ : Nat)
  /-- CC_VOTE, R343. -/
  | ccVote (h : Hdr) (prepared : Bool)
  /-- CC_DECIDE, R345. -/
  | ccDecide (h : Hdr) (go : Bool)
  /-- CC_CTRL_BEGIN, R341. -/
  | ccCtrlBegin (m : Machine.Master)
  /-- CC_DECISION, R344. The coming catch, when the lead decides at it. -/
  | ccDecision
  /-- RA_GO, R340. -/
  | raGo
  /-- RA_REQ, R340. `ct` names a crew transaction, 0 for none. -/
  | raReq (h : Hdr) (addr : BitVec 32) (v : BitVec 32) (write : Bool) (ct : BitVec 16)
  /-- RA_RESP, R340. -/
  | raResp (h : Hdr) (result : BitVec 4) (v : BitVec 32)
  /-- RA_TIMEOUT, R340. The coming catch, when the 64 strokes have passed at it. -/
  | raTimeout
  /-- DB_TX_GO, R347. -/
  | dbTxGo
  /-- DOORBELL, R347. -/
  | doorbell (h : Hdr) (idx : BitVec 6) (datum : BitVec 32)
  /-- KEY_INIT, R320. -/
  | keyInit (h : Hdr) (nonce : Nat)
  /-- KEY_CONF, R320. -/
  | keyConf (h : Hdr)
  /-- REKEY, R320. -/
  | rekey
  /-- REKEY_TIMER, R320. -/
  | rekeyTimer (k : Fin 4)
  /-- PORT_BLOCK_LOCK, R319. -/
  | portBlockLock (k : Fin 4) (gained : Bool)
  /-- TIMING_LOSS, R319. The coming catch, when port `k` goes DOWN at it. -/
  | timingLoss (k : Fin 4)
  /-- ELECTION_END, R328. The coming catch, when the election ends at it. -/
  | electionEnd
  /-- ROLLCALL, R329. -/
  | rollcall
  /-- RAISE_LEVEL, R334. -/
  | raiseLevel
  /-- CREW_QUALIFY, R326. -/
  | crewQualify
  /-- LEAD_SER_LO_READ, R348. -/
  | leadSerLoRead (m : Machine.Master)
  /-- ETH_LINK_CHANGE, R349. `rxclk`: block lock holds although the link is down. -/
  | ethLinkChange (n : Fin 4) (up : Bool) (rxclk : Bool)
  /-- ETH_RETRAIN, R349. -/
  | ethRetrain (n : Fin 4)
  /-- PTP_SYNC_RX, R356. `t1`, `cs`: origin time and correction, in 2^-16 ns. -/
  | ptpSyncRx (h : PtpHdr) (t1 : Nat) (cs : Int) (twoStep : Bool)
  /-- PTP_FOLLOW_UP_RX, R364. -/
  | ptpFollowUpRx (h : PtpHdr) (t1 : Nat) (cs : Int)
  /-- PTP_DELAY_REQ_RX, R353. -/
  | ptpDelayReqRx (h : PtpHdr)
  /-- PTP_DELAY_RESP_RX, R356. -/
  | ptpDelayRespRx (h : PtpHdr) (t4 : Nat) (cd : Int)
  /-- PTP_ANNOUNCE_RX, R353. -/
  | ptpAnnounceRx (h : PtpHdr) (x : AnnMsg)
  /-- PTP_SIGNALING_RX, R353. -/
  | ptpSignalingRx (h : PtpHdr)
  /-- PDELAY_RX, R353. -/
  | pdelayRx (h : PtpHdr)
  /-- ESMC_PDU_RX, R368. -/
  | esmcPduRx (n : Fin 4) (ssm : BitVec 4) (essm : Option (BitVec 8))
  /-- HOST_FRAME_RX, R369. -/
  | hostFrameRx (n : Fin 4) (bytes : List Nat)
  /-- SYNC_LAUNCH, R354. The coming catch, when port `n` launches a Sync at it. -/
  | syncLaunch (n : Fin 4)
  /-- DELAY_REQ_LAUNCH, R356. `mii`: the instant at the MII, in 2^-16 ns. -/
  | delayReqLaunch (n : Fin 4) (mii : Nat)
  /-- ANNOUNCE_LAUNCH, R361. -/
  | announceLaunch (n : Fin 4)
  /-- ANNOUNCE_TIMEOUT, R353. -/
  | announceTimeout (n : Fin 4)
  /-- ESMC_INFO_PDU, R368. -/
  | esmcInfoPdu (n : Fin 4)
  /-- ESMC_TIMEOUT, R368. -/
  | esmcTimeout (n : Fin 4)
  /-- PTP_MEASUREMENT_TOOTH, R357. The coming catch, when port `n` presents a revolution at it. -/
  | ptpMeasurementTooth (n : Fin 4)
  /-- PARENT_LO_READ, R371. -/
  | parentLoRead (m : Machine.Master) (n : Fin 4)
  /-- CLK_ID_LO_READ, R371. -/
  | clkIdLoRead (m : Machine.Master)
  /-- WATCHDOG, R376. The service, its micro-PC and the frames of the micro-stack in use. -/
  | watchdog (svc : KeelSvc) (upc : BitVec 17) (frames : Nat)
  /-- PATCH_LOAD, R387. -/
  | patchLoad
  /-- PATCH_VERIFY_DONE, R388. Whether the vendor's signature verifies, and `sigOk` of its end the endorsement. -/
  | patchVerifyDone (vendorOk : Bool) (load : LoadEnd)
  /-- INSTALL, R389. -/
  | install
  /-- PATCH_ACCEPT, R390. -/
  | patchAccept
  /-- PATCH_CLEAR, R388. -/
  | patchClear
  /-- PRAM_ADDR_WRITE, R384. -/
  | pramAddrWrite (v : BitVec 32)
  /-- PEAK_CLEAR, R393. -/
  | peakClear
  /-- STACK_CLR, R393. -/
  | stackClr
  /-- SOURCE_PENDING, R396. -/
  | sourcePending (n : Fin 1024)
  /-- ACK, R399. A read of the ACK register of target `t`. -/
  | ack (m : Machine.Master) (t : Fin 11)
  /-- EOI, R401. -/
  | eoi (t : Fin 11)
  /-- PEND_CLEAR, R396. -/
  | pendClear (i : Fin 32) (v : BitVec 32)
  /-- DB_RING, R405. -/
  | dbRing (m : Machine.Master) (idx : BitVec 6) (datum : BitVec 32)
  /-- MSIX_MESSAGE, R402. -/
  | msixMessage
  /-- VCTRL_WRITE, R454. -/
  | vctrlWrite (v : Fin 32) (mask : Bool)
  /-- SKW_GO, R508. Only FORERUNNER has the window (R506). -/
  | skwGo (m : Machine.Master) (k : Fin 64)
  /-- SKW_CTL_WRITE, R507. -/
  | skwCtlWrite (m : Machine.Master) (k : Fin 64) (v : BitVec 32)
  /-- CAP_LO_READ, R508. -/
  | capLoRead (m : Machine.Master) (k : Fin 64)
  /-- SKW_TIME_LO_READ, R508. -/
  | skwTimeLoRead (m : Machine.Master)
  /-- IRQ_VEC_READ, R507. -/
  | irqVecRead (m : Machine.Master)
  /-- IRQ_DONE, R507. -/
  | irqDone (m : Machine.Master)
  /-- DMA_START, R415. -/
  | dmaStart (c : Fin 16)
  /-- DMA_STOP, R415. -/
  | dmaStop (c : Fin 16)
  /-- DMA_COUNT_CLEAR, R432. -/
  | dmaCountClear (c : Fin 16)
  /-- DESCRIPTOR_FETCH, R414. `bad`: the read has an uncorrectable error. -/
  | descriptorFetch (c : Fin 16) (bad : Bool)
  /-- BURST, R416. -/
  | burst
  /-- BURST_READ_RETURN, R417. `kind`: the error that the reads found at `addr`, 0 none, 1 correctable, 2 uncorrectable. -/
  | burstReadReturn (c : Fin 16) (kind : Fin 3) (addr : BitVec 32)
  /-- DESCRIPTOR_COMPLETE, R424. -/
  | descriptorComplete (c : Fin 16)
  /-- LATE_RESPONSE, R425. -/
  | lateResponse (c : Fin 16)
  /-- CHK_INIT, R428. -/
  | chkInit (n : Fin 4)
  /-- CHK_GO, R428. -/
  | chkGo (n : Fin 4)
  /-- SCAN_DONE, R428. `err`: the word whose uncorrectable error ends the scan. -/
  | scanDone (n : Fin 4) (err : Option (BitVec 32))
  /-- ECC_WRITEBACK, R438. -/
  | eccWriteback (k : Fin 12)
  /-- SCRUB, R439. `errs`: the banks whose word has an error, with its kind. -/
  | scrub (errs : List (Nat × Nat))
  /-- DRAM_TRAIN, R441. -/
  | dramTrain
  /-- DRAM_TRAINING_DONE, R441. -/
  | dramTrainingDone
  /-- MR4_SAMPLE, R442. `above`: the device asks for more than the nominal refresh rate. -/
  | mr4Sample (above : Bool)
  /-- ZQ_CALIBRATION, R442. No state that the spec names changes. -/
  | zqCalibration
  /-- DRAM_ACCESS_COMPLETE, R443. `kind` is the error that its read meets. -/
  | dramAccessComplete (kind : Fin 3)
  /-- MAXLAT_CLEAR, R443. -/
  | maxlatClear
  /-- PCIE_POSTED_WRITE, R452. -/
  | pciePostedWrite (addr : BitVec 32) (bytes : List Nat)
  /-- PCIE_READ_REQUEST, R452. -/
  | pcieReadRequest (addr : BitVec 32) (bytes : Nat) (tag : BitVec 16)
  /-- PCIE_COMPLETION, R551. -/
  | pcieCompletion
  /-- PERST_N, R455. -/
  | perstLow
  /-- HOT_RESET, R455. -/
  | hotReset
  /-- FUNCTION_LEVEL_RESET, R455. -/
  | functionLevelReset
  /-- SPI_WRITE, R458. `part`: a further word has begun. -/
  | spiWrite (addr : BitVec 32) (words : List (BitVec 32)) (part : Bool)
  /-- SPI_READ, R459. Bit k of `late`: word k is not back in time; of `bad`: it meets an uncorrectable error. -/
  | spiRead (addr : BitVec 32) (words : BitVec 8) (late : Nat) (bad : Nat)
  /-- SPI_CS_RISE, R458. -/
  | spiCsRise
  /-- I2C_WRITE, R462. -/
  | i2cWrite (addr : BitVec 32) (v : BitVec 32) (pec : Option (BitVec 8))
  /-- I2C_READ, R461. -/
  | i2cRead (addr : BitVec 32) (bad : Bool)
  /-- I2C_TIMEOUT, R463. -/
  | i2cTimeout
  /-- QSPI_GO, R465. -/
  | qspiGo
  /-- QSPI_DONE, R465. `bytes`: what a read returned. -/
  | qspiDone (bytes : List Nat)
  /-- UART_DATA_WRITE, R466. -/
  | uartDataWrite (v : BitVec 8)
  /-- UART_DATA_READ, R466. -/
  | uartDataRead (m : Machine.Master)
  /-- UART_RX_BYTE, R466. -/
  | uartRxByte (v : BitVec 8)
  /-- PROVISION, R477. -/
  | provision
  /-- ATTEST, R483. -/
  | attest
  /-- CMD_SET_POLICY, R477. -/
  | cmdSetPolicy
  /-- CMD_CLEAR_TAMPER, R489. -/
  | cmdClearTamper
  /-- DEPLOY, R481. `sigOk`: the token's signatures verify. -/
  | deploy (sigOk : Bool)
  /-- SERVICE, R481. -/
  | service (sigOk : Bool)
  /-- BOATHOUSE, R481. -/
  | boathouse (sigOk : Bool)
  /-- ADD_KEY, R476. -/
  | addKey (sigOk : Bool)
  /-- REVOKE_KEY, R476. -/
  | revokeKey (sigOk : Bool)
  /-- TOKEN_SET_POLICY, R481. -/
  | tokenSetPolicy (sigOk : Bool)
  /-- SET_TAMPER, R481. -/
  | setTamper (sigOk : Bool)
  /-- TOKEN_CLEAR_TAMPER, R481. -/
  | tokenClearTamper (sigOk : Bool)
  /-- KEYS, R485. `plain`: the plaintext of the key package; none when its tag fails. -/
  | keys (sigOk : Bool) (plain : Option (List Nat))
  /-- RELEASE, R481. -/
  | release (sigOk : Bool)
  /-- SCRAP, R481. -/
  | scrap (sigOk : Bool)
  /-- TRUST_CMD_COMPLETE, R477. -/
  | trustCmdComplete (sigOk : Bool) (plain : Option (List Nat))
  /-- TAMPER_FIRE, R489. -/
  | tamperFire (i : Fin 6)
  /-- SERIAL_LO_READ, R494. -/
  | serialLoRead (m : Machine.Master)
  /-- RD_DATA_READ, R495. -/
  | rdDataRead (m : Machine.Master)
  /-- MODE_CHANGE, R497. The coming catch, when a change of mode applies or is refused at it. -/
  | modeChange
  /-- WIND_DOWN_END, R501. -/
  | windDownEnd
  /-- WAKE, R504. `took`: the time until Keel's work is done, in ns; `dir`: the boot directory. -/
  | wake (took : Nat) (dir : Option BootDir)
  /-- WAKE_TIMER, R503. -/
  | wakeTimer
  /-- GTIO1_WAKE, R503. -/
  | gtio1Wake
  /-- TEMP_SAMPLE, R530. The readings of the sensors, in 1/16 °C. -/
  | tempSample (t : List (Option Int))
  /-- POWER_ON_RESET, R518. -/
  | powerOnReset (b : BootIn)
  /-- SUPPLY_MONITOR_RESET, R513. -/
  | supplyMonitorReset
  /-- WARM_RESET, R522. -/
  | warmReset
  /-- WARM, R514. -/
  | warm (m : Machine.Master)
  /-- WARM_RESET_COMPLETE, R523. -/
  | warmResetComplete
  /-- ADC_CONVERSION_END, R526. `uv`: the input voltage in µV. -/
  | adcConversionEnd (uv : Nat)
  /-- SUPPLY_SAMPLE, R531. The supplies in mV, by index. -/
  | supplySample (mv : List Nat)
  /-- SLICE_END, R538. The slice of slot `i`. -/
  | sliceEnd (i : Fin 2) (fault : Bool)
  /-- PASS_START, R535. -/
  | passStart
  /-- FULL, R539. -/
  | full
  /-- FULL_RUN_DONE, R539. `failed`: the units with faults. -/
  | fullRunDone (failed : List Nat)
  /-- STRUCT, R540. -/
  | struct
  /-- REGISTER_WRITE, R12. Master `m` writes the whole register at `addr`. -/
  | registerWrite (m : Machine.Master) (addr : BitVec 32) (v : BitVec 32)
  /-- COUNTER_INPUT_EDGE, R115. An edge at `stamp`, in 2^-16 ns of TAI. -/
  | counterInputEdge (n : Fin 32) (stamp : Nat)
  /-- FRAME_OF_OTHER_TYPE, R322. -/
  | frameOfOtherType (h : Hdr)
  /-- DRAM_REFRESH, R442. No state that the spec names changes. -/
  | dramRefresh
  /-- PERST_N_RISE, R503. -/
  | perstRise
  /-- PORST_N_LOW, R513. -/
  | porstNLow
  /-- PCIE_LINK_STATE_CHANGE, R456. -/
  | pcieLinkStateChange (up : Bool) (speed : BitVec 4) (width : BitVec 4) (l1 : Bool)
  /-- PCIE_CONFIG_WRITE, R454. -/
  | pcieConfigWrite (bme : Bool) (msixEn : Bool) (mask : Bool)
  /-- UART_BYTE_SENT, R466. -/
  | uartByteSent
  /-- HOST_FRAME_SENT, R419. -/
  | hostFrameSent (n : Fin 4)
  /-- TAP_INSTRUCTION_UPDATE, R576. -/
  | tapInstructionUpdate (v : BitVec 8)
deriving DecidableEq, Repr

end Sys2Proof
end

