-- ==== Sys2Proof/Decode.lean ====
section
/-!
DEFINITION. Sys2Proof/Decode.lean: the words of commands. The opcode table gives no row any bits: a command is no word that the block
decodes. The instruction words of its own engines are read in Machine/Prigo.lean (R240 to R243) and Machine/Pe.lean (R268, R275).
-/
namespace Sys2Proof

/-- The command that a word of `nbits` bits spells by the table's bits: none, since the table gives no row any. -/
def decodeTableWord (_nbits _w : Nat) : Option Instr := none

end Sys2Proof
end

