-- ==== Sys2Proof/Config.lean ====
section
/-!
DEFINITION. Sys2Proof/Config.lean: the free values: constants without a body that stand for what the spec leaves open
(the log entry of each is named). The argument is the index of the value, a counter of the state (`Dev.fresh`).
-/
namespace Sys2Proof.Config

/-- R54: the time error that phase reference `i` (0–7 trackers, 8 the crew upstream) measures at a filter update, in ps (log entry 10). -/
opaque refOffsetPs : Nat → Nat → Int
/-- R55: its measurement variance, as the source declares it and the filter's residuals adjust it (log entry 10). -/
opaque refVar : Nat → Nat → Nat
/-- R48: the correction of the carrier's own frequency error that a filter update computes, in units of 2^-56, from the coefficients that
enter its prediction, by oscillator (log entry 10). -/
opaque filterFfo : Nat → List (List Int) → Int
/-- R379: the multiply-accumulate unit overflows in a filter update (log entry 10). -/
opaque macOverflow : Nat → Bool
/-- R60: how fast the timebase slews, in units of 2^-56; the spec gives the limit alone (log entry 10). -/
opaque filterSlew : Nat → Nat
/-- R67: its ETE, in ps (log entry 10). -/
opaque filterEtePs : Nat → Int
/-- R68: its sigma(t), in ps, from the uncertainties that it covers: by oscillator the residual variance, the factor on the frequency
uncertainty, and 1 where the full temperature variance of its kind enters (log entry 10). -/
opaque filterSigmaPs : Nat → List (List Nat) → Nat
/-- R51: a phase comparison of oscillator `n` against TCLK over a stroke, in ps (log entry 10). -/
opaque oscComparison : Nat → Nat → Int
/-- R69: its predicted seconds until the bound exceeds the budget (log entry 10). -/
opaque filterTtb : Nat → Nat
/-- Phase of oscillator `n` against the ensemble, in ps, as the filter takes it from the comparisons folded in (log entry 10). -/
opaque oscPhase : Nat → Nat → List (Nat × Int) → Int
/-- Frequency of oscillator `n` against the ensemble, in units of 2^-56 (log entry 10). -/
opaque oscFreq : Nat → Nat → Int
/-- Weight of oscillator `n`, in units of 2^-16 (log entry 10). -/
opaque oscWeight : Nat → Nat → Nat
/-- R57: coefficient `j` of the learned model of oscillator `n` (log entry 10). -/
opaque modelCoef : Nat → Nat → Nat → Int
/-- R57: its residual variance (log entry 10). -/
opaque modelVar : Nat → Nat → Nat
/-- R492: the word at an offset of a logbook region whose layout the spec does not give (log entry 11). -/
opaque logWord : Nat → Nat → Nat
/-- R57: the learned temperature span of an oscillator, in °C (log entry 10). -/
opaque modelSpan : Nat → Nat → Nat
/-- R110: which of the IRIG formats B000 to B007 a frame is in; the spec names no field or mark that tells (log entry 12). -/
opaque irigFormat : Nat → Nat
/-- R114: the result of a counter fed with a clock above 800 MHz, in 2^-40 units (log entry 14). -/
opaque counterOver : Nat → Int
/-- R114: a count of such a counter (log entry 14). -/
opaque counterCount : Nat → Nat
/-- R493: the 12 data bytes of a journal entry of a type whose data the spec does not lay out (log entry 15). -/
opaque journalData : Nat → Nat
/-- R325: the delay in ns between the lead and this device's upstream, which no frame carries (log entry 16). -/
opaque crewPath : Nat → Nat
/-- R333: the crew level when no level of the lead's span suits every member (log entry 17). -/
opaque crewLevel : Nat → Nat
/-- R353: the offsetScaledLogVariance of the own clock, which the spec does not give (log entry 25). -/
opaque clockVariance : Nat
/-- R419: frame slots that an Ethernet port has for host transmission (log entry 26). -/
opaque ethTxSlots : Nat
/-- R435: the data of a bank read that collides with a write (log entry 28). -/
opaque collidedRead : Nat → Nat
/-- R438: the raw data of a bank word that holds an uncorrectable error (log entry 103). -/
opaque rawWord : Nat → Nat
/-- R466: the bytes of a line that Keel writes to the console, whose text the spec does not give (log entry 67). -/
opaque keelLine : Nat → List Nat
/-- R483: byte `i` of what ATTEST computes and the spec gives no value for: the digest of the active image and the two
signatures (log entry 30). -/
opaque attestByte : Nat → Nat → Nat
/-- R530: what the 8-bit field PWR.STATUS.TEMP shows of a die temperature that it cannot hold (log entry 32). -/
opaque tempField : Nat → Nat
/-- R377: the 24-bit microword at an address of the microcode ROM, whose contents are not published (log entry 93). -/
opaque romWord : Nat → Nat
/-- R377: the micro-PC that follows another at a device time; what SEQ selects is not published (log entry 93). -/
opaque keelPc : Nat → Nat → Nat
/-- KEEL.LOAD: Keel's busy TCLK over a second, in per mille (log entry 71). -/
opaque keelLoad : Nat → Nat
/-- R493: the writes to the most worn word of the logbook, in per mille of 10^9 (log entry 72). -/
opaque logWear : Nat → Nat

end Sys2Proof.Config
end

