-- ==== Sys2Proof/Machine/State.lean ====
section
/-!
DEFINITION. Sys2Proof/Machine/State.lean: the state of the SK-2560, as plain data. `Dev.regs` holds every register
field of the register tables (a field it does not list reads its reset value, R11); the other fields of `Dev` hold the state
that the spec's rules name outside the registers. `State` adds the queue of waiting commands and the fused values.
-/
namespace Sys2Proof.Machine

/-- A list of (key, value) pairs in one canonical form: keys strictly rising, no entry equal to what an
unlisted key reads as. -/
abbrev Store := List (Nat × Nat)
/-- A sparse table of units by index, in the same canonical form. -/
abbrev Tbl (α : Type) := List (Nat × α)
/-- Byte memory: (address, byte) pairs in the same canonical form; an unlisted byte reads 0 (log entry 3). -/
abbrev Mem := List Host.Cell

/-- Where the machine stands between power-on and strokes (R31, R501, R513, R518). -/
inductive Phase where
  | held        -- PORST_N low or a supply held out of range (R513)
  | waitFirst   -- TCLK runs, the first catch has not come (R31)
  | run         -- strokes run
  | windDown    -- the MOORED wind-down (R501)
  | moored      -- TCLK stopped (R73)
deriving DecidableEq, Repr

/-- Device time and the stroke (R9, R20, R30, R46). -/
structure Clock where
  now : Nat := 0            -- device TAI time of the current TCLK, in ns from the epoch (R46)
  openAt : Nat := 0         -- device time of the catch that opened the stroke (R9)
  endAt : Nat := 4000       -- device time of the catch that ends it (R20, R30)
  strokeNo : Nat := 0       -- the 64-bit stroke number (R9)
  phase : Phase := .run
  finishDone : Bool := false  -- the finish window of this stroke has opened (R25)
  nextPeriod : Option Nat := none  -- the committed period that waits (R28)
  modeWait : Bool := false    -- a mode change waits for a second-boundary catch (R497)
  stepping : Bool := false    -- the current stroke is a stepping stroke (R30)
  accept : Option Nat := none -- device time at which the write being carried out was accepted, when it was earlier (R24)
  owed : Bool := false        -- the units have not yet acted in the current TCLK (log entry 1)
deriving DecidableEq, Repr

/-- One access that travels through the fabric. -/
structure Access where
  master : Master
  write : Bool
  addr : Nat
  data : Nat          -- the word written
  bytes : Nat         -- request size, at most 64 (R39)
  tag : Nat           -- the reader's tag
  err : Nat           -- the error that a read meets (R438, R445): 0 none, 1 correctable, 2 uncorrectable
deriving DecidableEq, Repr

/-- What has happened to register fields in the current TCLK (R12). -/
structure Cycle where
  set_ : Store := []       -- field key → bits of a W1C field that hardware has set
  wr : List Nat := []      -- keys of the RW fields that a master has written
  newPend : List Nat := [] -- sources that have become pending in it: candidates from the next TCLK on (R398)
  evLost : List Nat := []  -- DMA channels, each named once for an event of this TCLK that met EV_COUNT at 255 (R421)
deriving DecidableEq, Repr

/-- A request waiting in the access fabric (R37, R38). -/
structure FabReq where
  port : Nat
  stamp : Nat         -- 16-bit TCLK age stamp (R38)
  at_ : Nat           -- device time of entry, from which the wait is counted (R41)
  acc : Access
deriving DecidableEq, Repr

/-- The access fabric (R37–R41). -/
structure Fabric where
  reqs : List FabReq := []   -- in the fabric
  wait : List FabReq := []   -- at their masters, beyond a port's outstanding limit, in order of arrival (R37)
  freeAt : Nat := 0     -- device time at which the link is free again (R39)
deriving DecidableEq, Repr

/-- A learned oscillator model (R57, R58). -/
structure OscModel where
  id : Nat := 0            -- MODEL_ID at saving (R59)
  created : Nat := 0       -- logbook time of creation, in s
  updated : Nat := 0       -- logbook time of the last update, in s
  spanC : Nat := 0         -- learned temperature span in °C
  coef : List Int := []    -- c1, c2, c3, kv, a1, a2 (R57)
  resVar : Nat := 0        -- residual variance
  freqMul : Nat := 1       -- factor on the frequency uncertainty (R59)
deriving DecidableEq, Repr

/-- One oscillator input as the timebase sees it (R50–R52, R57). -/
structure Osc where
  faulty : Bool := false           -- declared faulty; MODEL_STAT.FAULT follows at the catch (R52)
  inEnsemble : Bool := true        -- counted in the ensemble
  clearSince : Option Nat := none  -- device time from which the 60 s without a fault condition count (R52)
  carried : Bool := false          -- it has carried weight in the present holdover (R70)
  model : Option OscModel := none
deriving DecidableEq, Repr

/-- What a filter update takes in at its catch (R53, R54). -/
structure FilterIn where
  at_ : Nat              -- device time of that catch
  refs : List Nat        -- the qualified phase references: trackers 0–7, 8 the crew upstream
  freq : Nat             -- how many selected frequency references are qualified
  noOsc : Bool           -- no enabled oscillator is free of fault
deriving DecidableEq, Repr

/-- What a filter update has computed and what takes effect at the next catch (R48, R53). -/
structure FilterOut where
  ffo : Int
  steer : Int            -- the steering component in it (R60)
  limited : Bool
  offset : Int
  ete : Int
  bound : Nat
  ttb : Nat
deriving DecidableEq, Repr

/-- A timebase state change detected by a filter update (R65). -/
structure TbChange where
  state : Nat            -- next value of TB.STATUS.STATE
  recovering : Bool
  raise371 : Bool
  history : Bool         -- write a holdover history entry (R70)
  breach : Bool          -- set BOUND_BREACH (R70)
  noOsc : Bool
deriving DecidableEq, Repr

/-- The timebase's state beside its registers (R46–R76). -/
structure Tb where
  comps : List (Nat × Int) := []         -- the phase comparisons folded in at the last catch, in ps (R51)
  upd : Option FilterIn := none          -- the update that Keel has been asked for
  out : Option FilterOut := none
  steer : Int := 0                       -- the steering component of the FFO, in units of 2^-56 (R60)
  change : Option TbChange := none
  step : Option Int := none              -- the step waiting for its catch (R62)
  carrierReq : Option Nat := none        -- oscillator named to Keel's carrier-change service (R49)
  carrierDone : Bool := false            -- that service has completed
  internalRef : Bool := false            -- the DCO runs from its internal reference (R50)
  internalAt : Nat := 0                  -- device time of the move onto it (R68)
  sigmaPs : Nat := 0                     -- sigma(t) of the last update, in ps (R68)
  sigma0Ps : Nat := 0                    -- sigma(t) of the last update before that move (R68)
  phase0Ps : Option Nat := none          -- initial phase uncertainty of a holdover from the crew reference, in ps (R326)
  tset : Option (Nat × Nat) := none      -- requested time and the device time of its GO (R64)
  tsetDone : Bool := false               -- Keel's time-set service has completed (R64)
  everLocked : Bool := false             -- LOCKED since the last power-on reset (R65)
  lockFrom : Option Nat := none          -- device time since which |offset| ≤ LOCK_THRESH (R65)
  holdFrom : Option Nat := none          -- device time at which the holdover began (R65)
  prevBound : Nat := 0                   -- the bound of the update before, in 1/1,382,400 ps (R70)
  tempLo : Int := 0                      -- temperature range seen in the holdover (R70)
  tempHi : Int := 0
  oscs : Tbl Osc := []
deriving DecidableEq, Repr

/-- Access codes of R12. -/
inductive Acc where
  | ro | rw | wo | w1c | rwt
deriving DecidableEq, Repr

/-- The clamp rule of a field (R15–R18, R580). The named rules depend on other fields. -/
inductive Clamp where
  | any
  | range (lo hi : Nat)            -- nearest legal value of lo..hi (R15)
  | srange (w : Nat) (lo hi : Int) -- the same for a signed field of w bits
  | step (m lo hi : Nat)           -- nearest lower multiple of m within lo..hi
  | divisor (of lo hi : Nat)       -- nearest lower divisor of `of` within lo..hi
  | over (max target : Nat)        -- values above max are stored as target
  | strokePeriod | dcoSrc | align (n : Nat) | wclassMax (n k : Nat) | trigPos (n : Nat) | revOfs (n : Nat)
  | phaseRef (n : Nat) | trainPerLo (n : Nat) | trainPerHi (n : Nat) | trainHigh (n : Nat) | repPhase (n : Nat)
  | fracNum (n : Nat) | odiv (n : Nat) | synPhase (n : Nat) | guardPos (n : Nat) | activeSel
  | fec (n : Nat) | anEn (n : Nat) | domain (n : Nat) | encap (n : Nat) | authReq (n : Nat)
  | ploadAddr | dmaOff (n : Nat) | modeTarget | hotC | limitHi (n : Nat) | winHi (n : Nat)
deriving DecidableEq, Repr

/-- A register field: byte address of its register, lowest bit, width, access code, reset value, clamp. -/
structure Field where
  addr : Nat
  lo : Nat
  w : Nat
  acc : Acc
  reset : Nat
  clamp : Clamp
deriving DecidableEq, Repr

/-- One accepted write to an RW/T register, waiting for its catch (R310, R311, R226): the bits of `mask` of
the register at `addr` take those of `data`. -/
structure Staged where
  addr : Nat
  data : Nat
  mask : Nat
  late : Bool      -- accepted in the finish window: due one catch later (R24)
deriving DecidableEq, Repr


/-- A request that a catch takes: `soon`, at the catch that ends this stroke; `late`, accepted in the finish window, at the one after it
(R24). -/
structure Due where
  soon : Bool := false
  late : Bool := false
deriving DecidableEq, Repr

/-- A split as its eight 32-bit words in the order of SPLIT[0..7] (R173). -/
structure Split where
  w0 : Nat := 0
  w1 : Nat := 0
  w2 : Nat := 0
  w3 : Nat := 0
  w4 : Nat := 0
  w5 : Nat := 0
  w6 : Nat := 0
  w7 : Nat := 0
deriving DecidableEq, Repr

/-- An 8-deep split FIFO with its sequence number, generation and pending overflow mark (R122, R176, R177). -/
structure Fifo where
  items : List Split := []     -- head first
  ovf : Bool := false          -- the next split stored carries OVERFLOW
  seq : Nat := 0               -- 28-bit sequence number of the next split
  gen : Nat := 0               -- 4-bit generation
deriving DecidableEq, Repr

/-- Tooth timing (R82, R83): the anchor stamp in 2^-16 ns of device TAI, its tooth and revolution, and the
rate as a quotient. An ANCHORED wheel ignores all four. -/
structure Wheel where
  at_ : Int := 0
  tooth : Nat := 0
  rev : Nat := 0
  rNum : Nat := 1
  rDen : Nat := 1
deriving DecidableEq, Repr

/-- A candidate edge in its acceptance window (R89): leading-edge stamp in 2^-16 ns. -/
structure Cand where
  stamp : Int
  tooth : Nat
  rev : Nat
deriving DecidableEq, Repr

/-- One accepted real tooth kept for the rate and frequency gates (R83, R103). -/
structure ToothRec where
  stamp : Int
  tooth : Nat
  rev : Nat
deriving DecidableEq, Repr

/-- A tracker's state beside its registers (R79–R113). -/
structure Trk where
  table : Store := []                  -- tooth table: entry index → 64-bit entry (R79)
  meas : Option Wheel := none          -- measurement wheel
  conv : Option Wheel := none          -- conversion wheel in force (R85)
  pendConv : Option Wheel := none      -- decided in this stroke, applied at the catch that ends it (R85)
  pendState : Option Nat := none       -- the state change due at the catch (R98)
  expTooth : Nat := 0                  -- the next real tooth expected and its revolution
  expRev : Nat := 0
  cand : Option Cand := none
  missed : Bool := false               -- the last real tooth due was missing or rejected (R92)
  synthInd : Bool := false             -- published synthetic indication (R87)
  wasLost : Bool := false              -- LOST or QUARANTINED since acquisition (R94, R97)
  revViol : Bool := false              -- a violation in this revolution (R104)
  scoreRev : Nat := 0                  -- the revolution under way for SCORE (R104)
  acqRev : Nat := 0                    -- revolution and tooth of the acquisition (R103)
  acqTooth : Nat := 0
  recent : List ToothRec := []         -- last accepted real teeth, newest first, at most 17
  revNo : Nat := 0                     -- 64-bit revolution number (R95)
  qualEnd : Option Nat := none         -- device time at which QUAL_REMAIN reaches 0 (R98)
  holdEnd : Option Nat := none         -- device time at which the hold timer expires (R104)
  lastMarker : Bool := false           -- the last edge was an IRIG-B marker (R94)
  irig : List Nat := []                -- classes of the teeth of the current frame, newest first (R110)
  irigBad : Bool := false              -- a tooth of the current frame was rejected (R111)
  irigAt : Int := 0                    -- the stamp of its tooth 0 (R90, R121)
  trigRev : List (Nat × Int) := []     -- the revolution in which each trigger was last converted (R113)
  trigAt : List (Nat × Nat) := []      -- converted triggers that have not fired: trigger and time in ns (R113)
  trigLine : Nat := 0                  -- device time until which the trigger line is high (R112)
  restart : Due := {}                  -- RESTART (R98)
  release : Due := {}                  -- RELEASE (R106)
  structChg : Bool := false            -- a structural change applied at this catch (R100)
  fifo : Fifo := {}
deriving DecidableEq, Repr

/-- A counter's state beside its registers (R115–R122). -/
structure Cnt where
  count : Nat := 0                     -- 48-bit live count
  edges : Nat := 0                     -- edges in the open gate
  edgeAt : Nat := 0                    -- 1 + the TCLK of the last edge (R115)
  tFirst : Option Int := none          -- stamps of the first and last edges in the gate, 2^-16 ns
  tLast : Option Int := none
  gateFrom : Option Nat := none        -- stroke number at which the open gate opened
  gateAt : Nat := 0                    -- device time at which it opened
  gateBad : Bool := false              -- the gate holds a step or a period change (R119)
  fast : Bool := false                 -- since ENABLE two edges have come less than 1.25 ns apart: a clock above 800 MHz (R114)
  lastEdge : Option Int := none        -- stamp of the last edge, 2^-16 ns
  idxAt : Nat := 0                     -- 1 + the TCLK of the last index event (R116)
  results : List Int := []             -- the last results, newest first, at most 16 (R120)
  qualEnd : Option Nat := none         -- device time at which QUAL_S has run (R120)
  idxCount : Nat := 0                  -- index events since enable (R121)
  fifo : Fifo := {}
deriving DecidableEq, Repr

/-- A timeline entry that refill has placed in a ring, with the revolution step it belongs to (R124, R131). -/
structure RingEntry where
  entry : Nat      -- the 64-bit entry
  idx : Nat        -- its entry index
  c : Nat          -- its cycle revolution
  rev : Nat        -- its tracker revolution (R146)
deriving DecidableEq, Repr

/-- A converted head of the merge (R137). -/
structure Head where
  item : RingEntry
  time : Int       -- converted time in 2^-16 ns
  synth : Bool
deriving DecidableEq, Repr

/-- A Cox list's state beside its registers (R126–R146). -/
structure CoxList where
  rev : Nat := 0                    -- tracker revolution N of the cursor
  ring : List RingEntry := []       -- refilled, not yet consumed, oldest first
  head : Option Head := none        -- converted, not yet armed
  refC : Nat := 0                   -- cycle revolution that refill reads next
  refRev : Nat := 0                 -- its tracker revolution
  refIdx : Nat := 0                 -- next entry index of that revolution
  refLeft : Nat := 0                -- entries of that revolution not yet read
  refInit : Bool := false           -- the index entry of that revolution has been read
  bursts : List (List RingEntry) := []  -- the bursts that DRAM has not returned, oldest first
  base : Nat := 0                   -- byte address of the ring in bank 8, and the entries it holds (R130)
  size : Nat := 0
  refWr : Nat := 0                  -- entries that refill has written to the ring since it was discarded
  selAct : Nat := 0                 -- index table in use (R134)
  waiting : Bool := false           -- out of the merge for want of an entry (R132)
  enWas : Bool := false             -- ENABLE at the catch before
deriving DecidableEq, Repr

/-- The Cox's state beside its registers. -/
structure Cox where
  lists : Tbl CoxList := []
  armed : Nat := 0                  -- 64-bit armed count (R150)
  thisStroke : Nat := 0             -- events armed in this stroke
  conv : Nat := 0                   -- conversion slots used in this stroke (R136)
  enWas : Bool := false             -- COX.CTRL.ENABLE at the catch before (R582)
deriving DecidableEq, Repr

/-- One event of a channel queue (R154–R160). `time` is in 2^-16 ns of device TAI; its due TCLK is the
nanosecond that contains it. -/
structure ChEvent where
  time : Int
  action : Nat
  flags : Nat
  param : Nat
  synth : Bool
  word : Nat       -- the event word of R174
deriving DecidableEq, Repr

/-- A running pulse train (R163–R165), in 2^-16 ns. -/
structure Train where
  start : Int
  period : Nat
  high : Nat
  count : Nat      -- pulses to emit; 0 = until TRAIN_STOP
  k : Nat          -- index of the next pulse to start
  up : Bool        -- a pulse is in progress; it ends `high` after its start
  upEnd : Int
deriving DecidableEq, Repr

/-- A pending two-edge measurement (R167–R169). -/
structure Pending where
  stamp : Int
  rising : Bool
deriving DecidableEq, Repr

/-- What reaches a capture unit: an edge of its own input, a counted edge of a partner's, or a CAPTURE_ARM or CAPTURE_DISARM (R166). -/
inductive CapKind where
  | arm (limit : Nat)
  | disarm (flags : Nat)
  | own (rising : Bool)
  | stop (partner : Nat) (rising : Bool)
deriving DecidableEq, Repr

structure CapItem where
  stamp : Int
  kind : CapKind
deriving DecidableEq, Repr

/-- A transition of a channel's output: its TCLK, the level before it and the time at which it is placed, in 2^-16 ns (R152, R162). -/
structure OutChg where
  at_ : Nat
  was : Bool
  placed : Int
deriving DecidableEq, Repr

/-- A channel's state beside its registers (R151–R188). -/
structure Chan where
  starve : Nat := 0                 -- starvation count (R179)
  queue : List ChEvent := []        -- in due order (R156)
  tracked : Bool := false           -- the level events would have set while the output is held (R183)
  train : Option Train := none
  ret : Option Int := none          -- time of a pending return to IDLE, 2^-16 ns (R161)
  armedAt : Option Int := none      -- CAPTURE_ARM time (R166)
  disarmAt : Option Int := none     -- CAPTURE_DISARM time that closed the gate
  splitsLeft : Nat := 0             -- splits before the gate closes itself; 0 = no limit
  edgeCount : Nat := 0              -- edges counted since the gate opened
  prevEdge : Option Int := none     -- previous counted edge (PERIOD)
  pend : Option Pending := none     -- pending WIDTH or INTERVAL measurement
  fifo : Fifo := {}
  kaFrom : Nat := 0                 -- device time at which the warm reset began (R187)
  kaPer : Nat := 0                  -- start of the repeat period that fires next (R186)
  kaIdx : Nat := 0                  -- its entries already fired
  kaEnd : Option Nat := none        -- due TCLK of the first event inserted after the warm reset (R187)
  flush : Due := {}                 -- FLUSH (R158)
  fired : Nat := 0                  -- events fired in TCLK `firedAt`; they still count in the depth (R155)
  firedAt : Nat := 0
  calDue : Bool := false            -- new calibration coefficients apply at the next catch (R172)
  calOk : Bool := false             -- calibrated since STEADY or RACE was entered
  outs : List OutChg := []          -- the last transition of the output, and those of the last 4 TCLK, newest first (R162; R223, SRC 14)
  drvAt : Int := 0                  -- placed time of the last change of the driver (R181)
  cap : List CapItem := []          -- what the capture unit has still to take, in order of stamp (R166)
deriving DecidableEq, Repr

/-- A synthesiser's state beside its registers (R190–R197). -/
structure Syn where
  since : Nat := 0                   -- device time of entry to CALIBRATING or SETTLING, or of the last excursion (R194)
  recal : Due := {}                  -- RECAL
  roundAt : Option Nat := none       -- device time at which the current round started (R197)
  slices : Nat := 0                  -- slices completed in the round, 64 in all
  guardAt : List Nat := []           -- converted times of the guard periods to come, in ns (R196)
  guardRev : Option Int := none      -- the revolution whose guard period was last converted (R113)
  nextRound : Option Nat := none     -- device time at which the next round starts (R197)
  out : Bool := false                -- the output is enabled (R194)
  guardEnd : Nat := 0                -- end of the last guard period opened
  sliceEnd : Nat := 0                -- end of the last slice counted in it
deriving DecidableEq, Repr

/-- A transmit gate's state beside its registers (R202, R203). -/
structure Gate where
  reqAt : Nat := 0                   -- TCLK of the open request that is pending
  askAt : Nat := 0                   -- 1 + the TCLK of the last open request that a CLOSED gate took (R202)
  openReq : Due := {}                -- CTRL.OPEN
  closeReq : Due := {}               -- CTRL.CLOSE
deriving DecidableEq, Repr

/-- What a write of an engine lands in (R244). -/
inductive Eff where
  | reg (phys v : Nat)          -- physical register
  | spec (j v : Nat)            -- special register, whole
  | flags (mask v : Nat)        -- bits of FLAGS
  | mem (word v : Nat)          -- 16-bit word of the own bank
deriving DecidableEq, Repr

/-- An engine write that has been issued: visible to bundles that issue at device time `at_` or later (R244, R245). -/
structure Land where
  at_ : Nat
  unit : Nat
  eff : Eff
deriving DecidableEq, Repr

/-- A time-wheel access in flight (R42–R44, R218, R219). -/
structure WheelOp where
  at_ : Nat                -- issue of its bundle
  reachAt : Nat            -- device time at which it reaches its target (R42, R43)
  doneAt : Nat
  store : Bool
  word : Nat               -- 24-bit word address
  pair : Bool
  data : Nat               -- stored words, low word first
  dest : Nat               -- physical register a load writes, and that of its second word
  dest2 : Nat
deriving DecidableEq, Repr

/-- An ARM or ARMP in flight (R261, R262). -/
structure TimOp where
  insAt : Nat              -- TCLK in which it reaches the channel
  postAt : Nat             -- TCLK from which its result can be read
  ch : Nat
  ev : Option ChEvent      -- none: no tooth timing (NOTIMING)
  result : Option Nat      -- TIMST bit, once it has reached the channel
deriving DecidableEq, Repr

/-- A stage that a yield has closed (R228, R230). -/
structure Closed where
  writes : List Staged
  ovf : Bool
  late : Bool              -- the yield retired in a finish window: due one catch later
  at_ : Nat                -- device time at which it retired
  drop : Bool              -- it ended an overrun under the DROP policy (R230)
deriving DecidableEq, Repr

/-- A syllable (R240, R241): unit, condition field, operation code, operand bits [17:0]. -/
structure Syl where
  unit : Nat
  c : Nat
  op : Nat
  o : Nat
deriving DecidableEq, Repr

/-- A control engine's state beside its registers (R207–R238). -/
structure Ce where
  issueAt : Nat := 0              -- device time of the next issue cycle
  lands : List Land := []         -- writes not yet landed, in landing order
  wheel : List WheelOp := []      -- oldest first
  wheelAt : Option Nat := none    -- issue time of the last wheel access (R44)
  tim : List TimOp := []
  stage : List Staged := []       -- the open stage
  ovf : Bool := false             -- it is overflowed (R227)
  closed : List Closed := []      -- stages that wait for their catch, oldest first
  yielded : Bool := false         -- a YIELD has retired since the last catch (R225, R229)
  haltRun : Nat := 0              -- STATUS.RUN before HALT (R238)
  pendAt : Option Nat := none     -- TCLK since which an interrupt has been pending at its target (R235)
  wakeFrom : Option Nat := none   -- TCLK in which a wake condition appeared while it was WAITING (R237)
  sigSet : List (Nat × Nat) := [] -- TCLK and bit of the last sets of SIG, newest first (R215)
  step : Bool := false            -- STEP has been asked for; the engine halts again after its next bundle (R238)
deriving DecidableEq, Repr

/-- An entry of a pin engine's RX queue with its tag (R282). -/
structure RxWord where
  word : Nat
  count : Nat
  flushed : Bool
deriving DecidableEq, Repr

/-- A pin engine's state beside its registers (R266–R290). -/
structure Pe where
  base : Int := 0                 -- base B of the next instruction, in 2^-8 TCLK of device TAI time (R269)
  actFrom : Nat := 0              -- first TCLK in which it may act again (R270)
  triedAt : Nat := 0              -- 1 + the last TCLK in which a stalled instruction has been tested (R271, R281)
  tsh : Nat := 0
  rsh : Nat := 0
  last : Nat := 0                 -- last word loaded since the start (R279)
  tx : List Nat := []             -- head first
  rx : List RxWord := []
  stall : Option Nat := none      -- the instruction that is stalled (R271)
  catchSeen : Bool := false       -- a catch has come since a HOLD on a catch stalled (R275)
  holdAt : Nat := 0               -- action TCLK of the last HOLD that completed (R272)
  stamp : Nat := 0                -- its PT (R275)
  idle : Nat := 0                 -- idle count (R283)
  took : Bool := false            -- a TAKE from pins has acted in this stroke
  restart : Due := {}             -- RESTART (R273)
  collAt : Nat := 0               -- 1 + the TCLK of the last lost write (R286)
deriving DecidableEq, Repr

/-- The output registers of a ball that the pin map gives to pin engines (R284–R286). -/
structure PeBall where
  level : Bool := false
  dir : Bool := false
  lvAt : Nat := 0                          -- 1 + the TCLK of the last write of the level, and its engine
  lvBy : Nat := 0
  dirAt : Nat := 0                         -- the same for the direction bit
  dirBy : Nat := 0
  line : List (Nat × Bool × Bool) := []    -- level and direction with the TCLK at which the ball takes them, newest first
deriving DecidableEq, Repr

/-- What a ball shows. -/
inductive BallOut where
  | level (v : Bool)       -- driven
  | highZ                  -- not driven
  | clock (n : Nat)        -- the output of synthesiser n (R198)
deriving DecidableEq, Repr

/-- A transaction context beside its STATUS register (R309–R315). -/
structure Ctx where
  serial : Nat := 0
  owner : Nat := 0                 -- master number
  writes : List Staged := []       -- in order of acceptance
  order : Nat := 0                 -- order of acceptance of the commit
  op : Nat := 0                    -- operation of the accepted commit
  late : Bool := false             -- a COMMIT_NEXT accepted in the finish window (R24)
  atA : Nat := 0                   -- stroke number or TAI ns named by the commit
deriving DecidableEq, Repr

/-- The transaction unit (R309–R315). -/
structure Txn where
  ctxs : Tbl Ctx := []
  bound : Store := []              -- master number → bound context + 1
  last : Store := []               -- master number → LAST.RESULT
  serial : Nat := 1                -- next serial (R309)
  order : Nat := 0                 -- order of the next acceptance, one for all commits of a TCLK (R291)
  orderAt : Nat := 0               -- 1 + the TCLK of the last acceptance
  unbound : List Staged := []      -- R311
deriving DecidableEq, Repr

/-- A rig image as its sections give it (R292–R299). -/
structure Image where
  level : Nat := 0
  arbSeq : Nat := 0
  imgVer : Nat := 0
  keySlot : Nat := 0
  words : List (Nat × Nat) := []        -- address and word of every WORDS record, in order
  teeth : List (Nat × Nat × Nat) := []  -- tracker, tooth index, entry
  balls : List (Nat × Nat) := []        -- ball number and BALL word
  routes : List (Nat × Nat) := []       -- consumer and source line
  chtrk : List (Nat × Nat) := []        -- channel and CHTRK word
  cedefs : List (Nat × List Nat) := []  -- engine and the 26 words of its CEDEF
  mode : Option (Nat × Nat) := none     -- MODE body: mode and period
  cut : Nat := 0                        -- bit n = CH[n] CUT (R299)
  bells : Nat := 0                      -- bit n = CE[n] may ring doorbells
  locks : Nat := 0                      -- bit n = gates of TRK[n] locked
  dram : List (Nat × Nat) := []         -- DRAM records: address and word
  image : Nat := 0                      -- bytes the slot keeps
deriving DecidableEq, Repr

/-- The rig state beside its registers: slots, pin map, routes and assignments (R291–R308). -/
structure Rig where
  imgA : Option Image := none
  imgB : Option Image := none
  load : Option (Nat × Nat × Nat) := none  -- slot, address and length of the load in service (R301)
  balls : Store := []                  -- ball → BALL word; 2^15·2 (HIGH_Z) when unnamed (R296)
  routes : Store := []                 -- consumer → source line + 1; 0 = not routed (R297)
  chTrk : Store := []                  -- channel → tracker + 1; 0 = no tracker
  cut : Nat := 0
  bells : Nat := 0
  locks : Nat := 0
  copyQ : List Nat := []               -- engines waiting for Keel's code copy: CE n as n, PE n as 8 + n (R307)
  copied : List Nat := []              -- copies completed in this stroke: start at the next catch
  blocked : Nat := 0                   -- bit i: engine i (as above) may not start before its copy
deriving DecidableEq, Repr

/-- What a crew neighbour's last TIMING frame advertises (R324). -/
structure Adv where
  stamp : Nat       -- its arrival stamp of our last TIMING frame, 2^-16 ns
  serial : Nat      -- serial of the lead that it follows
  prio : Nat
  hops : Nat        -- 255 = isolated
  uplink : Bool     -- this link is its upstream
  refused : Bool
  tbState : Nat     -- the lead's TB.STATUS.STATE
  bound : Nat       -- the lead's ETE_BOUND_NS
  level : Nat
  spanMin : Nat
  spanMax : Nat
deriving DecidableEq, Repr

/-- A crew port beside its registers (R317–R325). -/
structure CrewPort where
  lock : Bool := false             -- 64b/66b block lock
  miss : Nat := 0                  -- strokes in a row without a valid TIMING frame
  got : Bool := false              -- a valid TIMING frame has arrived in this stroke
  arrive : Nat := 0                -- arrival stamp of the last one, 2^-16 ns
  launch : Nat := 0                -- device time of our last TIMING launch
  adv : Option Adv := none
  fcnt : Nat := 0                  -- 1 + the last FCNT accepted
  txFcnt : Nat := 0                -- FCNT of the next frame sent
  tagRun : Nat := 0                -- tag failures in a row (R322)
  peerNonce : Option Nat := none   -- from the peer's KEY_INIT, while a key is being agreed
  peerConf : Bool := false         -- the peer's KEY_CONF has verified
  ownConf : Bool := false          -- ours has been sent
  agreeing : Bool := false         -- a new session key is being agreed (R320)
  keyed : Bool := false            -- a session key is held (R486)
  keyAt : Nat := 0                 -- device time of its agreement
  upAt : Nat := 0                  -- device time at which the port came UP (R330)
deriving DecidableEq, Repr

/-- A frame that the device has handed to its crew ports (R322). -/
structure CrewTx where
  port : Nat                       -- 4 = every port of the tree
  type : Nat
  dst : Nat                        -- crew ID; 16384 = BCAST
  seq : Nat                        -- SEQ field with its generation
  words : List Nat                 -- the payload's values in the order of R322
deriving DecidableEq, Repr

/-- A device in a roll call's replies or in the lead's roster (R322, R331, R339). -/
structure Member where
  id : Nat                         -- crew ID; 1,024 or above: none stored
  serial : Nat
  spanMin : Nat
  spanMax : Nat
  sdWords : Nat
  path : Nat
  hops : Nat
  sd : Bool := false               -- admitted to stroke data
deriving DecidableEq, Repr

/-- A roll call on the lead (R329). -/
structure Roll where
  epoch : Nat                      -- device time of catch e
  seq : Nat                        -- SEQ of its frames, with the generation
  round : Nat := 0                 -- rounds sent
  left : Nat := 0                  -- strokes until the next action
  replies : List Member := []
deriving DecidableEq, Repr

/-- What changes at a completion catch (R329, R332). -/
structure RollResult where
  at_ : Nat                        -- device time of the completion catch
  level : Nat
  roster : Nat                     -- bit i: crew ID i admitted
  sd : Nat                         -- bit i: admitted to stroke data
  myId : Option Nat                -- the ID granted to this device
  refused : Bool
  target : Nat                     -- highest level that every member supports
  members : List Member            -- the lead's new roster
  absent : Nat                     -- listed members that answered no round
deriving DecidableEq, Repr

/-- The crew transaction that this device takes part in (R341–R346). -/
structure CrewCc where
  serial : Nat
  gen : Nat
  ctx : Option Nat                 -- its context here
  applyAt : Nat := 0               -- TAI ns of the apply time
  voted : Bool := false            -- PREPARED voted
  go : Option Bool := none         -- the decision held
deriving DecidableEq, Repr

/-- The lead's side of it (R341–R344). -/
structure CrewLead where
  targets : List Nat := []
  votes : List Nat := []           -- targets that have voted PREPARED
  toP : Nat := 0                   -- catches until p
  toD : Nat := 0                   -- catches until d
deriving DecidableEq, Repr

/-- A remote access under way on the lead (R340). -/
structure RaOp where
  since : Nat                      -- strokes counted since GO
  denied : Bool                    -- an answer was DENIED
  waitFor : List Nat               -- devices that have not answered
  seq : Nat
  gen : Nat
deriving DecidableEq, Repr

/-- The crew link beside its registers (R317–R348). -/
structure Crew where
  ports : Tbl CrewPort := []
  sent : List CrewTx := []         -- frames sent in this stroke, oldest first
  leadSerial : Nat := 0            -- the lead followed
  leadPrio : Nat := 0
  up : Option Nat := none          -- the upstream port (R318, R328)
  leadBound : Nat := 0             -- the bound that the lead reported last, in ns (R326)
  replied : Option Nat := none     -- SEQ of the roll call last answered
  same : Nat := 0                  -- strokes for which it has been unchanged, while ELECTING (R328)
  rollReq : Option Nat := none     -- device time of a roll-call request that waits (R329)
  roll : Option Roll := none
  result : Option RollResult := none
  members : List Member := []      -- the lead's roster
  seqNo : Nat := 0                 -- next message sequence number, 16 bits with the generation above 12 bits (R323)
  ccNo : Nat := 1                  -- next crew transaction serial, likewise; 0 stands for none (R322, R341)
  seen : Store := []               -- (frame class, number) → 1 + generation last accepted (R323)
  cc : Option CrewCc := none
  lead : CrewLead := {}
  raise : Option Nat := none       -- the level that the open transaction raises to (R334)
  ra : Option RaOp := none
  sdUp : List (Nat × List Nat) := []   -- records of the last stroke that have reached the lead (R337)
  sdMine : List Nat := []          -- SD_TX as it stood at the last catch
  sdDown : Option (List (Nat × List Nat) × Nat) := none  -- slots and stale bits of the SD_DOWN received, or sent by the lead (R338)
  sdFrom : Nat := 0                -- strokes since admission to stroke data
  qualEnd : Option Nat := none     -- device time at which QUAL_S has run (R326)
  viol : Bool := false             -- a gate violation in this TAI second
  quarTimes : List Nat := []
  holdEnd : Option Nat := none
  quar : Bool := false             -- the crew reference is quarantined (R104)
  lastOff : Option Int := none     -- offset at the last TAI second, 2^-16 ns, for the frequency gate
  firstRev : Bool := true          -- the first second after the reference was taken up (R103)
  offset : Int := 0                -- the last offset, 2^-16 ns
deriving DecidableEq, Repr

/-- The record of a Sync that waits for its Follow_Up (R364). -/
structure SyncRec where
  gen : Nat
  t2 : Int         -- 2^-16 ns
  cs : Int
deriving DecidableEq, Repr

/-- The record of a Delay_Req that waits for its Delay_Resp (R364). -/
structure DelayRec where
  gen : Nat
  t3 : Int
deriving DecidableEq, Repr

/-- A frame that the device has handed to an Ethernet port: kind, sequenceId and values. -/
structure EthTx where
  port : Nat
  kind : Nat       -- PTP messageType, 16 = ESMC information PDU, 17 = ESMC event PDU, 18 = host frame
  seq : Nat
  words : List Nat
  spp : Option Nat -- the SPP of its AUTHENTICATION TLV (R366)
deriving DecidableEq, Repr

/-- An Ethernet port beside its registers (R349–R370). -/
structure Eth where
  retrain : Due := {}              -- RETRAIN
  syncs : Tbl SyncRec := []
  delayReqs : Tbl DelayRec := []
  delays : List Int := []          -- delay_k, newest first, at most 128, in 2^-16 ns
  ms : Option Int := none          -- t2 − t1 − cs of the last Sync that completed
  meas : List (Int × Int) := []    -- revolution and offset of each measurement not yet presented
  nextRev : Option Int := none     -- the revolution that is presented next
  first : Bool := true             -- no measurement since the tracker left OFF (R359)
  anns : Tbl AnnMsg := []          -- the last Announce of each clock heard, by clockIdentity
  annAt : Store := []              -- by clockIdentity: device time of that Announce
  heardAt : Nat := 0               -- device time of the last Announce, or of the entry to LISTENING
  esmcFrom : Nat := 0              -- device time of the last valid ESMC PDU, or at which the port began to run (R368)
  conf : Bool := false             -- the port's profile or domain conflicts (R353)
  parent : Option Nat := none
  parent0 : Option Nat := none     -- the last parent that the BMCA has selected (R360)
  distrust : Store := []           -- clockIdentity → device time at which its mark ends (R360)
  utc : Option AnnMsg := none      -- an Announce whose UTC fields Keel writes at the next catch (R363)
  syncSeq : Nat := 0               -- sequenceIds of the next messages sent
  reqSeq : Nat := 0
  annSeq : Nat := 0
  tokens : Nat := 131072000        -- token bucket, in 1/1000 bit: 16 KiB full (R369)
  tokenAt : Nat := 0               -- device time at which it was last filled
  rx : List (List Nat) := []       -- received host frames that wait for DMA, as bytes
  tx : List (List Nat) := []       -- host frames being sent
deriving DecidableEq, Repr

/-- A Keel patch (R385, R386). -/
structure Patch where
  seq : Nat
  ver : Nat
  lvlMin : Nat
  lvlMax : Nat
  hits : List Nat      -- match words
  micro : List Nat     -- 24-bit microwords
  nano : List Nat      -- 144-bit nano-words
deriving DecidableEq, Repr

/-- A request for a service of Keel (R372, R373). -/
structure KeelReq where
  svc : KeelSvc
  arg : Nat := 0       -- the engine of a code copy
  at_ : Nat := 0       -- device time of its arrival
  left : Nat := 0      -- TCLK of its own cost that it has not yet used; 0 for a service that ends when its command says
  upc : Nat := 0       -- micro-PC of its next microword
deriving DecidableEq, Repr

/-- Keel beside its registers (R372–R394). -/
structure Keel where
  cur : Option KeelReq := none        -- the service in progress
  frames : List KeelReq := []         -- the services that PREEMPT traps have interrupted, last first (R373, R379)
  queue : List KeelReq := []          -- the requests that wait, in the order of service within a class
  wordEnd : Nat := 0                  -- device time at which the microword in progress, or a trap's entry or return, ends (R377–R379)
  install : Bool := false             -- an installation waits for the end of the service (R389)
  installing : Option Patch := none   -- the patch being installed, until wordEnd
  staged : Option Patch := none
  load : Option (Nat × Nat) := none   -- address and length of the load in service (R387)
  pram : Store := []                  -- patch RAM: 0–4,095 microwords, 4,096–4,351 nano-words (R384)
deriving DecidableEq, Repr

/-- A doorbell ring on its way to its source (R405, R406). -/
structure Ring where
  at_ : Nat        -- device time at which the source becomes pending
  idx : Nat
  datum : Nat
  ringer : Nat     -- ringer code of IRQ.DB_DATA
deriving DecidableEq, Repr

/-- A change of a source's line on its way to the pending bit (R584). -/
structure LineChg where
  at_ : Nat
  src : Nat
  up : Bool
deriving DecidableEq, Repr

/-- The interrupt controller beside its registers (R395–R408). -/
structure Irq where
  prios : Tbl (List Nat) := []    -- running-priority stacks, top first (R398)
  lines : List Nat := []           -- sources whose line was 1 when last sensed, rising
  chg : List LineChg := []         -- in order of time
  rings : List Ring := []          -- in the order of R406
  msi : List (Nat × Nat) := []     -- MSI-X messages on their way: device time at which they leave, and vector (R402)
  msiOut : List (Nat × Nat) := []  -- the last message sent: address and data (R454)
  bell : Nat := 0                  -- causes of the trust core that have rung its doorbell (R494)
deriving DecidableEq, Repr

/-- A descriptor's fetched words (R412). -/
structure DmaDesc where
  src : Nat
  dst : Nat
  len : Nat
  ctrl : Nat
  next : Nat
deriving DecidableEq, Repr

/-- A burst whose reads have been issued (R417). -/
structure DmaBurst where
  n : Nat                     -- bytes that it moves
  parts : Tbl (List Nat)      -- the bytes that each read has returned, by their offset in the transfer
  left : Nat                  -- requests that have not been performed
  err : Nat := 0              -- the worst error that its reads have met
  writing : Bool := false     -- its writes have been issued
deriving DecidableEq, Repr

/-- A DMA channel's state beside its registers (R415–R425). -/
structure Dma where
  desc : Option DmaDesc := none    -- the descriptor in service
  burst : Option DmaBurst := none  -- the burst in flight
  stop : Bool := false             -- STOP waits for the end of that burst (R422)
  units : List Nat := []           -- the check units that the channel holds (R415, R424)
  reqAt : Nat := 0                 -- age stamp: device time at which the request became asserted (R416)
  began : Bool := false            -- a burst of this descriptor has been granted
  lastDst : Option Nat := none     -- last address written with data
  frame : List Nat := []           -- bytes of an Ethernet frame under way (R423)
  stale : List Nat := []           -- generations of requests that a warm reset abandoned (R425)
deriving DecidableEq, Repr

/-- A check unit's scan: bytes left and the next address (R428). -/
structure ChkScan where
  addr : Nat := 0
  left : Nat := 0
  bad : Option Nat := none   -- address of a word with an uncorrectable error, as its command says
deriving DecidableEq, Repr


/-- One access to a bank word in the current TCLK (R434, R435). `master`: 1 + the master's number, 0 for a port without
a busy indication; `dest`: 1 + the physical register that an engine's load fills. -/
structure BankUse where
  word : Nat       -- device byte address of the 16-bit word
  port : Nat
  write : Bool
  master : Nat
  dest : Nat
deriving DecidableEq, Repr

/-- A request that the DRAM controller has accepted (R443). -/
structure DramReq where
  at_ : Nat        -- device time of acceptance
  acc : Access
deriving DecidableEq, Repr

/-- Banks and DRAM beside their registers (R434–R446). -/
structure MemCtl where
  uses : List BankUse := []    -- accesses of TCLK `useAt`, newest first
  useAt : Nat := 0
  scrub : Nat := 0             -- word index that the scrubber reads next
  scrubAt : Nat := 0           -- device time from which it may read that word (R439)
  bad : List Nat := []         -- bank words that hold an uncorrectable error, by byte address (R438)
  wb : List Nat := []          -- addresses of corrected words that wait for an idle TCLK (R438)
  dram : List DramReq := []    -- oldest first
  training : Bool := false     -- training runs (R441)
deriving DecidableEq, Repr


/-- A read completion of the PCIe endpoint that has not left the pins (R452). -/
structure PcieCpl where
  tag : Nat
  data : Nat
  bytes : Nat
  poisoned : Bool      -- EP set (R450)
deriving DecidableEq, Repr

/-- The host interfaces beside their registers (R448–R467). -/
structure HostIf where
  cpl : List PcieCpl := []           -- completions to send, oldest first
  pcieOut : Option PcieCpl := none   -- the last completion that left the pins
  l1 : Bool := false                 -- the link is in ASPM L1 (R456)
  spiPartial : Bool := false         -- bits of an unfinished word have arrived (R458)
  spiOut : List Nat := []            -- words of the last READ transaction, as sent
  spiStatus : Nat := 0               -- its status byte (R460)
  i2cOut : List Nat := []            -- bytes of the last I2C read, D3 first, with its PEC byte
  uartTx : List Nat := []            -- transmit FIFO, head first (R466)
  uartRx : List Nat := []            -- receive FIFO, head first
deriving DecidableEq, Repr


/-- The logbook: its bytes in the regions whose layout the spec gives, the saved models (R58), the crew records
of R331 and the slot last made ACTIVE (R492, R493). -/
structure Log where
  mem : Mem := []
  models : Tbl OscModel := []
  crewId : Nat := 0
  active : Nat := 0            -- slot that the last journal entry of type 0x07 names as made ACTIVE (R519)
deriving DecidableEq, Repr

/-- The fused values of R468; no rule changes them. -/
structure Fused where
  serial : Nat := 0            -- 64 bits
  secret : Nat := 0            -- the unique device secret, 256 bits
  mac : Nat := 0               -- EUI-48
  clockId : Nat := 0           -- EUI-64
  vendorEcdsa : Nat := 0       -- SHA-384 digest of the vendor P-384 root key
  vendorMldsa : Nat := 0       -- SHA-384 digest of the vendor ML-DSA-65 root key
  variant : Nat := 0           -- SYS.IDENT.VARIANT
deriving DecidableEq, Repr

/-- The trust core beside its registers (R474–R490). -/
structure Trust where
  cmd : Option (Nat × Nat × Nat) := none   -- the command in progress: OP, address and length of its argument (R477)
  records : Tbl (List Nat) := []           -- the 2,052 bytes of each owner key slot's record (R474)
  crewKey : Nat := 0                       -- the crew key (R484)
  saKeys : Store := []                     -- the HMAC key of each association
  saLive : List (Nat × Nat) := []          -- SPP and keyID of the associations in force (R486)
  lcNext : Option Nat := none              -- the life-cycle state that applies at the next catch (R472)
deriving DecidableEq, Repr

/-- Modes, wake and thermal state beside the PWR registers (R497–R510). -/
structure Pwr where
  perstLow : Bool := false         -- PERST_N is low
  perstAt : Option Nat := none     -- device time of its last rising edge (R503)
  gtio1At : Option Nat := none     -- device time at which GTIO1 had its 16 samples (R503)
  early : Option (Nat × Nat) := none  -- source and interrupt of a wake that came in the wind-down (R502)
  trip : Bool := false             -- MOORED follows at the next catch (R510)
  deg16 : Int := 0                 -- die temperature in 1/16 °C (R508, R530)
  hotHold : Bool := false          -- wakes wait until the temperature has fallen (R510)
  stepDown : Option Bool := none   -- the hardware write of TARGET waits for its catch; true: for one more (R510, R24)
  wakeN : Bool := false            -- WAKE_N is driven low (R456)
  bankLost : Bool := false         -- reload due: the wake has not reapplied the image yet (R524)
deriving DecidableEq, Repr


/-- A held sample waiting for conversion (R526). -/
structure Held where
  ain : Nat
  at_ : Nat        -- hold instant, device time in ns
deriving DecidableEq, Repr

/-- A conversion in progress. -/
structure Conv where
  ain : Nat
  start : Nat      -- device time at which it started
  trig : Bool
  stampAt : Nat    -- hold instant, or its start for a scan conversion
deriving DecidableEq, Repr

/-- The monitors' state beside their registers (R526–R532). -/
structure Mon where
  held : List Held := []
  conv : Option Conv := none
  scanNext : Nat := 0          -- lowest AIN index the scan round converts next
  trigRun : Nat := 0           -- triggered conversions in a row (R527)
  outRun : Store := []         -- alarm index → consecutive results outside its range (R532)
  inRun : Store := []          -- alarm index → consecutive results inside
  moored : List Nat := []      -- inputs still to convert after a MOORED tick (R529)
deriving DecidableEq, Repr

/-- Self-test state beside its registers (R533–R540). -/
structure Slot where
  unit : Nat := 1023
  slice : Nat := 0             -- slices of the unit already run
  started : Bool := false      -- a slice runs now
deriving DecidableEq, Repr

structure Bist where
  slot0 : Slot := {}
  slot1 : Slot := {}
  pass : Bool := false         -- a pass is in progress, running or stopped (R533)
  order : List Nat := []       -- units still to take at their first turn
  second : List Nat := []      -- units passed over, for their second turn (R535)
  untested : Nat := 0          -- units that were not free at that turn either
  done : Store := []           -- unit → slices completed
  nextPass : Nat := 0          -- device time from which the next pass may start
  gap : Nat := 0               -- strokes before another slice may start
  full : Bool := false         -- a full run is in progress (R539)
  reapply : Bool := false      -- a full run has been abandoned; the image is still to be reapplied (R539)
  struct : Bool := false       -- structural test has been entered (R540)
deriving DecidableEq, Repr

/-- The device. -/
structure Dev where
  regs : Store := []               -- register fields, keyed by address × 32 + low bit
  cyc : Cycle := {}
  latch : Store := []              -- per-master read latches (R9, R47)
  readOut : Store := []            -- the word each master's last read returned
  clock : Clock := {}
  fab : Fabric := {}
  mem : Mem := []                  -- SRAM banks, instruction memories and DRAM by device byte address (R35)
  tb : Tb := {}
  trk : Tbl Trk := []
  cnt : Tbl Cnt := []
  cox : Cox := {}
  ch : Tbl Chan := []
  syn : Tbl Syn := []
  gate : Tbl Gate := []
  ce : Tbl Ce := []
  pe : Tbl Pe := []
  peBall : Tbl PeBall := []
  gflagBy : Store := []            -- group × 8 + flag → TCLK, writer and level before of its last write (R287)
  sync : Nat := 0                  -- bit b: the level that the synchroniser of ball b took 4 TCLK ago (R285, R296)
  tap : Nat := 1                   -- the JTAG instruction register (R575)
  rig : Rig := {}
  txn : Txn := {}
  crew : Crew := {}
  eth : Tbl Eth := []
  ethSent : List EthTx := []       -- frames handed to the ports in this stroke
  ethFwd : Store := []             -- transparent clock: key of a forwarded event message → ingress port + 1 (R355)
  irq : Irq := {}
  keel : Keel := {}
  log : Log := {}
  pwr : Pwr := {}
  host : HostIf := {}
  fused : Fused := {}
  trust : Trust := {}
  mon : Mon := {}
  bist : Bist := {}
  dma : Tbl Dma := []
  chk : Tbl ChkScan := []          -- the scan that a check unit runs (R428)
  memc : MemCtl := {}
  fresh : Nat := 0                 -- the model's own: index of the next free value
deriving DecidableEq, Repr

/-- The device and the commands that wait for it, first in first out (the queue is the model's own). -/
structure State where
  pending : List Instr := []
  dev : Dev := {}
deriving DecidableEq, Repr

/-- Reasons for a stop with a fault. There is none: the spec gives every command an effect (R34: an access to an address that does
not exist is refused and counted, and the device goes on). -/
inductive Fault where
deriving DecidableEq, Repr

/-- Reasons for a refusal. -/
inductive Refusal where
  /-- A command without a meaning in this model, by its mnemonic; no arm raises it. Safe: nothing can be proved of what follows. -/
  | notModelled (mnemonic : String)
deriving DecidableEq, Repr

/-- The machine right after reset: a device with blank fuses and a blank logbook, strapped to boot without an image (log entry 5), at the
first catch after the boot (R31, R518 to R520), one second after time 0. Every register that the spec gives a reset value holds it; the
fields listed are those that the boot changes. -/
def State.reset : State where
  dev := {
    regs := [
      (0x00044 * 32, 1),         -- SYS.RST_STATUS.CAUSE: PORST_N
      (0x00048 * 32 + 3, 2),     -- SYS.BOOT_STATUS.STRAP: 0b10
      (0x00048 * 32 + 21, 1),    -- SYS.BOOT_STATUS.NO_RIG
      (0x0004C * 32, 1000),      -- SYS.BOOT_TIME.MS
      (0xE0024 * 32, 1792),      -- MEM.DRAM_CAP.CAP_MIB
      (0xE0028 * 32, 1),         -- MEM.DRAM_STAT.TRAINED
      (0x120000 * 32, 1)]        -- LOG.STATUS.READY
    clock := { now := 1000000000, openAt := 1000000000, endAt := 1000004000, strokeNo := 250000, owed := true }
    crew := { sdFrom := 1 } }

end Sys2Proof.Machine
end

