-- ==== Sys2Proof/Machine/RegMap.lean ====
section
/-!
DEFINITION. Sys2Proof/Machine/RegMap.lean: every register field of the SK-2560, as the register tables of the
spec's chapters give it: address (R11, R33), bits, access code (R12), reset value and clamp rule (R15–R18, R580).
A field of an indexed register is a function of its indexes. `fieldsAt` lists the fields of a register address.
-/
namespace Sys2Proof.Machine

/-- A field from its address, low bit, width, access code, reset value and clamp. -/
def fld (addr lo w : Nat) (acc : Acc) (reset : Nat) (clamp : Clamp) : Field := ⟨addr, lo, w, acc, reset, clamp⟩

/-- Nominal supplies in mV, by the index of R531 (R564). -/
def supNominal (k : Nat) : Nat :=
  match k with
  | 0 => 750 | 1 => 800 | 2 => 1200 | 3 => 900 | 4 => 800 | 5 => 1800 | 6 => 1100 | 7 => 600
  | _ => 1800

/-- Reset of MON.SUP[k].WIN.LO_MV: nominal − 5 %, rounded up to whole mV (log entry 6). -/
def supLoMv (k : Nat) : Nat := (supNominal k * 95 + 99) / 100

/-- Reset of MON.SUP[k].WIN.HI_MV: nominal + 5 %, rounded down to whole mV; 3.3 V for VDDIO banks (log entry 6). -/
def supHiMv (k : Nat) : Nat := (if k < 8 then supNominal k else 3300) * 105 / 100

def SYS_IDENT_PART : Field := fld (0x0) 16 16 .ro 9568 .any
def SYS_IDENT_REV_MAJOR : Field := fld (0x0) 12 4 .ro 2 .any
def SYS_IDENT_REV_MINOR : Field := fld (0x0) 8 4 .ro 1 .any
def SYS_IDENT_VARIANT : Field := fld (0x0) 4 4 .ro 0 .any
def SYS_STROKE_CFG_PERIOD_NS : Field := fld (0x10) 0 20 .rwt 4000 (.strokePeriod)
def SYS_STROKE_CFG_PENDING : Field := fld (0x10) 31 1 .ro 0 .any
def SYS_STROKE_NO_LO_NUM_LO : Field := fld (0x14) 0 32 .ro 0 .any
def SYS_STROKE_NO_HI_NUM_HI : Field := fld (0x18) 0 32 .ro 0 .any
def SYS_STROKE_POS_CYCLE : Field := fld (0x1c) 0 20 .ro 0 .any
def SYS_STROKE_POS_FINISH : Field := fld (0x1c) 31 1 .ro 0 .any
def SYS_FAB_MAXWAIT_MAXWAIT : Field := fld (0x20) 0 8 .ro 0 .any
def SYS_FAB_MAXWAIT_CLEAR : Field := fld (0x20) 8 1 .wo 0 .any
def SYS_STROKE_NEXT_PERIOD_NS : Field := fld (0x24) 0 20 .ro 4000 .any
def TB_CTRL_FORCE_HOLDOVER : Field := fld (0x10000) 0 1 .rwt 0 .any
def TB_CTRL_LEARN_EN : Field := fld (0x10000) 1 1 .rwt 1 .any
def TB_CTRL_MODEL_CLEAR : Field := fld (0x10000) 2 1 .wo 0 .any
def TB_STATUS_STATE : Field := fld (0x10004) 0 3 .ro 0 .any
def TB_STATUS_RECOVERING : Field := fld (0x10004) 3 1 .ro 0 .any
def TB_STATUS_FREQ_ASSIST : Field := fld (0x10004) 4 1 .ro 0 .any
def TB_STATUS_ETE_VALID : Field := fld (0x10004) 5 1 .ro 0 .any
def TB_STATUS_CARRIER : Field := fld (0x10004) 6 2 .ro 0 .any
def TB_STATUS_NO_OSC : Field := fld (0x10004) 8 1 .ro 0 .any
def TB_STATUS_FFO_LIMIT : Field := fld (0x10004) 9 1 .ro 0 .any
def TB_STATUS_BOUND_BREACH : Field := fld (0x10004) 10 1 .w1c 0 .any
def TB_STATUS_STEPPED : Field := fld (0x10004) 11 1 .w1c 0 .any
def TB_STATUS_TSET_REJECT : Field := fld (0x10004) 12 1 .w1c 0 .any
def TB_TIME_SEC_LO_SEC_LO : Field := fld (0x10010) 0 32 .ro 0 .any
def TB_TIME_SEC_HI_SEC_HI : Field := fld (0x10014) 0 16 .ro 0 .any
def TB_TIME_NS_NS : Field := fld (0x10018) 0 30 .ro 0 .any
def TB_TSET_SEC_LO_SEC_LO : Field := fld (0x10020) 0 32 .rw 0 .any
def TB_TSET_SEC_HI_SEC_HI : Field := fld (0x10024) 0 16 .rw 0 .any
def TB_TSET_NS_NS : Field := fld (0x10028) 0 30 .rw 0 (.range 0 999999999)
def TB_TSET_CTRL_GO : Field := fld (0x1002c) 0 1 .wo 0 .any
def TB_STEER_CFG_SLEW_LIMIT : Field := fld (0x10030) 0 10 .rwt 20 (.range 1 1000)
def TB_STEER_CFG_STEP_MODE : Field := fld (0x10030) 12 2 .rwt 1 (.range 0 2)
def TB_STEP_THRESH_THRESH_NS : Field := fld (0x10034) 0 30 .rwt 100000 (.range 1000 999999999)
def TB_LOCK_CFG_LOCK_THRESH : Field := fld (0x10038) 0 10 .rwt 50 (.range 1 1000)
def TB_LOCK_CFG_LOCK_HOLD : Field := fld (0x10038) 10 10 .rwt 10 (.range 1 600)
def TB_FILT_CFG_UPDATE_MS : Field := fld (0x1003c) 0 10 .rwt 125 (.divisor 1000 1 1000)
def TB_REF_SEL_TRK_MASK : Field := fld (0x10040) 0 8 .rwt 1 .any
def TB_REF_SEL_CREW_EN : Field := fld (0x10040) 8 1 .rwt 0 .any
def TB_REF_SEL_CNTF0 : Field := fld (0x10040) 9 5 .rwt 0 .any
def TB_REF_SEL_CNTF0_EN : Field := fld (0x10040) 14 1 .rwt 0 .any
def TB_REF_SEL_CNTF1 : Field := fld (0x10040) 15 5 .rwt 1 .any
def TB_REF_SEL_CNTF1_EN : Field := fld (0x10040) 20 1 .rwt 0 .any
def TB_FFO_LO_FFO_LO : Field := fld (0x10048) 0 32 .ro 0 .any
def TB_FFO_HI_FFO_HI : Field := fld (0x1004c) 0 16 .ro 0 .any
def TB_OFFSET_NS_OFFSET : Field := fld (0x10050) 0 32 .ro 0 .any
def TB_ETE_NS_ETE : Field := fld (0x10054) 0 32 .ro 0 .any
def TB_ETE_BOUND_NS_BOUND : Field := fld (0x10058) 0 32 .ro 0xFFFFFFFF .any
def TB_ETE_TTB_TTB : Field := fld (0x1005c) 0 32 .ro 0 .any
def TB_ETE_CFG_K : Field := fld (0x10060) 0 8 .rwt 48 (.range 16 96)
def TB_BUDGET_BUDGET_NS : Field := fld (0x10064) 0 17 .rwt 1100 (.range 10 100000)
def TB_HOLD_TIME_SECONDS : Field := fld (0x10068) 0 32 .ro 0 .any
def TB_COUNTS_STEP_COUNT : Field := fld (0x1006c) 0 16 .ro 0 .any
def TB_COUNTS_COMMIT_LOSS : Field := fld (0x1006c) 16 16 .ro 0 .any
def TB_UTC_OFFSET_OFFSET_S : Field := fld (0x10070) 0 16 .rwt 37 .any
def TB_LEAP_CFG_PENDING : Field := fld (0x10074) 0 1 .rwt 0 .any
def TB_LEAP_CFG_DIR : Field := fld (0x10074) 1 1 .rwt 0 .any
def TB_LEAP_TAI_LO_SEC_LO : Field := fld (0x10078) 0 32 .rwt 0 .any
def TB_LEAP_TAI_HI_SEC_HI : Field := fld (0x1007c) 0 16 .rwt 0 .any
def TB_DCO_CFG_SRC : Field := fld (0x10080) 0 2 .rwt 0 (.dcoSrc)
def TB_DCO_CFG_AUTO_SWITCH : Field := fld (0x10080) 2 1 .rwt 1 .any
def TB_IRQ_EN_EN : Field := fld (0x10090) 0 2 .rw 0 .any
def TB_IRQ_STAT_STATE : Field := fld (0x10094) 0 1 .w1c 0 .any
def TB_IRQ_STAT_BUDGET : Field := fld (0x10094) 1 1 .w1c 0 .any
def TB_OSC_CFG_ENABLE (n : Nat) : Field := fld (0x10100 + 0x40 * n) 0 1 .rwt (if n = 0 then 1 else 0) .any
def TB_OSC_CFG_KIND (n : Nat) : Field := fld (0x10100 + 0x40 * n) 1 3 .rwt 1 (.range 0 4)
def TB_OSC_CFG_NOM_KHZ (n : Nat) : Field := fld (0x10100 + 0x40 * n) 4 20 .rwt 10000 (.range 5000 200000)
def TB_OSC_CFG_THERM (n : Nat) : Field := fld (0x10100 + 0x40 * n) 24 5 .rwt 31 (.over 15 31)
def TB_OSC_MODEL_ID_ID (n : Nat) : Field := fld (0x10104 + 0x40 * n) 0 32 .rwt 0 .any
def TB_OSC_PHASE_PS_PHASE (n : Nat) : Field := fld (0x10108 + 0x40 * n) 0 32 .ro 0 .any
def TB_OSC_FREQ_LO_FREQ_LO (n : Nat) : Field := fld (0x1010c + 0x40 * n) 0 32 .ro 0 .any
def TB_OSC_FREQ_HI_FREQ_HI (n : Nat) : Field := fld (0x10110 + 0x40 * n) 0 16 .ro 0 .any
def TB_OSC_WEIGHT_WEIGHT (n : Nat) : Field := fld (0x10114 + 0x40 * n) 0 17 .ro 0 .any
def TB_OSC_MODEL_STAT_VALID (n : Nat) : Field := fld (0x10118 + 0x40 * n) 0 1 .ro 0 .any
def TB_OSC_MODEL_STAT_FAULT (n : Nat) : Field := fld (0x10118 + 0x40 * n) 1 1 .ro 0 .any
def TB_OSC_MODEL_STAT_RESTORED (n : Nat) : Field := fld (0x10118 + 0x40 * n) 2 1 .ro 0 .any
def TB_OSC_MODEL_STAT_SPAN_C (n : Nat) : Field := fld (0x10118 + 0x40 * n) 3 8 .ro 0 .any
def TB_OSC_MODEL_STAT_AGE_DAYS (n : Nat) : Field := fld (0x10118 + 0x40 * n) 11 16 .ro 0 .any
def TRK_CTRL_ENABLE (n : Nat) : Field := fld (0x20000 + 0x200 * n) 0 1 .rwt 0 .any
def TRK_CTRL_RESTART (n : Nat) : Field := fld (0x20000 + 0x200 * n) 1 1 .wo 0 .any
def TRK_CTRL_RELEASE (n : Nat) : Field := fld (0x20000 + 0x200 * n) 2 1 .wo 0 .any
def TRK_CFG_WHEEL (n : Nat) : Field := fld (0x20004 + 0x200 * n) 0 1 .rwt 0 .any
def TRK_CFG_EDGE (n : Nat) : Field := fld (0x20004 + 0x200 * n) 1 1 .rwt 0 .any
def TRK_CFG_T0_ID (n : Nat) : Field := fld (0x20004 + 0x200 * n) 2 2 .rwt 0 (.range 0 2)
def TRK_CFG_WDEC (n : Nat) : Field := fld (0x20004 + 0x200 * n) 4 2 .rwt 0 .any
def TRK_CFG_SPLIT_EN (n : Nat) : Field := fld (0x20004 + 0x200 * n) 6 1 .rwt 0 .any
def TRK_CFG_TEETH (n : Nat) : Field := fld (0x20004 + 0x200 * n) 8 13 .rwt 1 (.range 1 4096)
def TRK_REV_LEN_REV_LEN (n : Nat) : Field := fld (0x20008 + 0x200 * n) 0 30 .rwt 1000000000 (.range 1000 1000000000)
def TRK_ALIGN_ALIGN_NS (n : Nat) : Field := fld (0x2000c + 0x200 * n) 0 30 .rwt 0 (.align n)
def TRK_DELAY_PS_DELAY (n : Nat) : Field := fld (0x20010 + 0x200 * n) 0 32 .rwt 0 (.srange 32 (-1000000000) 1000000000)
def TRK_WINDOW_WIN_NS (n : Nat) : Field := fld (0x20014 + 0x200 * n) 0 16 .rwt 1000 (.range 10 65535)
def TRK_QUAL_QUAL_S (n : Nat) : Field := fld (0x20018 + 0x200 * n) 0 12 .rwt 60 (.range 1 3600)
def TRK_GATE_PHASE_GATE_NS (n : Nat) : Field := fld (0x2001c + 0x200 * n) 0 16 .rwt 500 (.range 10 65535)
def TRK_GATE_FREQ_GATE_PPB (n : Nat) : Field := fld (0x2001c + 0x200 * n) 16 16 .rwt 50 (.range 1 65535)
def TRK_SCORE_CFG_QUAR_SCORE (n : Nat) : Field := fld (0x20020 + 0x200 * n) 0 8 .rwt 8 (.range 4 255)
def TRK_SCORE_CFG_QUAR_HOLD_S (n : Nat) : Field := fld (0x20020 + 0x200 * n) 8 16 .rwt 300 (.range 10 65535)
def TRK_SCORE_CFG_PHASE_EN (n : Nat) : Field := fld (0x20020 + 0x200 * n) 24 1 .rwt 1 .any
def TRK_SCORE_CFG_FREQ_EN (n : Nat) : Field := fld (0x20020 + 0x200 * n) 25 1 .rwt 1 .any
def TRK_WCODE_ACCEPT (n : Nat) : Field := fld (0x20024 + 0x200 * n) 0 4 .rwt 11 .any
def TRK_SIGMA_PS_SIGMA (n : Nat) : Field := fld (0x20028 + 0x200 * n) 0 24 .rwt 20000 (.range 1 16000000)
def TRK_WCLASS_MIN (n : Nat) (k : Nat) : Field := fld (0x20030 + 0x200 * n + 0x4 * k) 0 16 .rwt 0 .any
def TRK_WCLASS_MAX (n : Nat) (k : Nat) : Field := fld (0x20030 + 0x200 * n + 0x4 * k) 16 16 .rwt 0 (.wclassMax n k)
def TRK_TRIG_POS_POS (n : Nat) (k : Nat) : Field := fld (0x20040 + 0x200 * n + 0x8 * k) 0 32 .rwt 0 (.trigPos n)
def TRK_TRIG_CFG_AIN_MASK (n : Nat) (k : Nat) : Field := fld (0x20044 + 0x200 * n + 0x8 * k) 0 16 .rwt 0 .any
def TRK_TRIG_CFG_XOUT (n : Nat) (k : Nat) : Field := fld (0x20044 + 0x200 * n + 0x8 * k) 16 1 .rwt 0 .any
def TRK_TRIG_CFG_EN (n : Nat) (k : Nat) : Field := fld (0x20044 + 0x200 * n + 0x8 * k) 17 1 .rwt 0 .any
def TRK_STATE_STATE (n : Nat) : Field := fld (0x20080 + 0x200 * n) 0 3 .ro 0 .any
def TRK_STATE_SYNTH (n : Nat) : Field := fld (0x20080 + 0x200 * n) 3 1 .ro 0 .any
def TRK_STATE_TABLE_ERR (n : Nat) : Field := fld (0x20080 + 0x200 * n) 4 1 .ro 0 .any
def TRK_STATE_LEAP_SEEN (n : Nat) : Field := fld (0x20080 + 0x200 * n) 5 1 .w1c 0 .any
def TRK_STATE_PULLING (n : Nat) : Field := fld (0x20080 + 0x200 * n) 6 1 .ro 0 .any
def TRK_STATE_LAST_TOOTH (n : Nat) : Field := fld (0x20080 + 0x200 * n) 8 12 .ro 0 .any
def TRK_STATE_QUAL_REMAIN (n : Nat) : Field := fld (0x20080 + 0x200 * n) 20 12 .ro 0 .any
def TRK_SCORE_SCORE (n : Nat) : Field := fld (0x20084 + 0x200 * n) 0 8 .ro 0 .any
def TRK_SCORE_QUAR_24H (n : Nat) : Field := fld (0x20084 + 0x200 * n) 8 8 .ro 0 .any
def TRK_SCORE_HOLD_REMAIN (n : Nat) : Field := fld (0x20084 + 0x200 * n) 16 16 .ro 0 .any
def TRK_REV_NO_LO_REV_LO (n : Nat) : Field := fld (0x20088 + 0x200 * n) 0 32 .ro 0 .any
def TRK_REV_NO_HI_REV_HI (n : Nat) : Field := fld (0x2008c + 0x200 * n) 0 32 .ro 0 .any
def TRK_RESID_PS_RESID (n : Nat) : Field := fld (0x20090 + 0x200 * n) 0 32 .ro 0 .any
def TRK_RATE_RATE (n : Nat) : Field := fld (0x20094 + 0x200 * n) 0 32 .ro 0 .any
def TRK_COUNTS_A_NOISE_CNT (n : Nat) : Field := fld (0x20098 + 0x200 * n) 0 16 .ro 0 .any
def TRK_COUNTS_A_REJECT_CNT (n : Nat) : Field := fld (0x20098 + 0x200 * n) 16 16 .ro 0 .any
def TRK_COUNTS_B_SYNTH_CNT (n : Nat) : Field := fld (0x2009c + 0x200 * n) 0 16 .ro 0 .any
def TRK_COUNTS_B_LOST_CNT (n : Nat) : Field := fld (0x2009c + 0x200 * n) 16 16 .ro 0 .any
def TRK_IRIG_TIME_TOY_S (n : Nat) : Field := fld (0x200a0 + 0x200 * n) 0 17 .ro 0 .any
def TRK_IRIG_TIME_DAY (n : Nat) : Field := fld (0x200a0 + 0x200 * n) 17 9 .ro 0 .any
def TRK_IRIG_YEAR_YEAR (n : Nat) : Field := fld (0x200a4 + 0x200 * n) 0 7 .ro 0 .any
def TRK_IRIG_YEAR_YEAR_VALID (n : Nat) : Field := fld (0x200a4 + 0x200 * n) 7 1 .ro 0 .any
def TRK_IRIG_YEAR_SBS (n : Nat) : Field := fld (0x200a4 + 0x200 * n) 8 17 .ro 0 .any
def TRK_IRIG_YEAR_SBS_VALID (n : Nat) : Field := fld (0x200a4 + 0x200 * n) 25 1 .ro 0 .any
def TRK_IRIG_CF_CF (n : Nat) : Field := fld (0x200a8 + 0x200 * n) 0 27 .ro 0 .any
def TRK_IRIG_CF_CF_VALID (n : Nat) : Field := fld (0x200a8 + 0x200 * n) 27 1 .ro 0 .any
def TRK_IRQ_EN_EN (n : Nat) : Field := fld (0x200c0 + 0x200 * n) 0 7 .rw 0 .any
def TRK_IRQ_STAT_STATE (n : Nat) : Field := fld (0x200c4 + 0x200 * n) 0 1 .w1c 0 .any
def TRK_IRQ_STAT_SYNTH (n : Nat) : Field := fld (0x200c4 + 0x200 * n) 1 1 .w1c 0 .any
def TRK_IRQ_STAT_REJECT (n : Nat) : Field := fld (0x200c4 + 0x200 * n) 2 1 .w1c 0 .any
def TRK_IRQ_STAT_QUARANTINE (n : Nat) : Field := fld (0x200c4 + 0x200 * n) 3 1 .w1c 0 .any
def TRK_IRQ_STAT_IRIG (n : Nat) : Field := fld (0x200c4 + 0x200 * n) 4 1 .w1c 0 .any
def TRK_IRQ_STAT_TABLE_ERR (n : Nat) : Field := fld (0x200c4 + 0x200 * n) 5 1 .w1c 0 .any
def TRK_IRQ_STAT_LEAP (n : Nat) : Field := fld (0x200c4 + 0x200 * n) 6 1 .w1c 0 .any
def TRK_TT_ADDR_INDEX (n : Nat) : Field := fld (0x20100 + 0x200 * n) 0 12 .rw 0 .any
def TRK_TT_ADDR_AUTOINC (n : Nat) : Field := fld (0x20100 + 0x200 * n) 31 1 .rw 0 .any
def TRK_TT_DATA_LO_LO (n : Nat) : Field := fld (0x20104 + 0x200 * n) 0 32 .rw 0 .any
def TRK_TT_DATA_HI_HI (n : Nat) : Field := fld (0x20108 + 0x200 * n) 0 32 .rw 0 .any
def TRK_SPLIT_WORD (n : Nat) (k : Nat) : Field := fld (0x201e0 + 0x200 * n + 0x4 * k) 0 32 .ro 0 .any
def CNT_CTRL_ENABLE (n : Nat) : Field := fld (0x22000 + 0x80 * n) 0 1 .rwt 0 .any
def CNT_CTRL_ARM (n : Nat) : Field := fld (0x22000 + 0x80 * n) 1 1 .wo 0 .any
def CNT_CFG_SRC (n : Nat) : Field := fld (0x22004 + 0x80 * n) 0 5 .rwt 0 (.range 0 20)
def CNT_CFG_IDX_MODE (n : Nat) : Field := fld (0x22004 + 0x80 * n) 5 2 .rwt 0 (.range 0 2)
def CNT_CFG_IDX_SRC (n : Nat) : Field := fld (0x22004 + 0x80 * n) 7 4 .rwt 0 (.range 0 8)
def CNT_CFG_FRAC (n : Nat) : Field := fld (0x22004 + 0x80 * n) 11 1 .rwt 0 .any
def CNT_CFG_SPLIT_EN (n : Nat) : Field := fld (0x22004 + 0x80 * n) 12 1 .rwt 0 .any
def CNT_GATE_G (n : Nat) : Field := fld (0x22008 + 0x80 * n) 0 32 .rwt 1000 .any
def CNT_NOM_HZ_NOM (n : Nat) : Field := fld (0x2200c + 0x80 * n) 0 30 .rwt 10000000 (.range 1000 800000000)
def CNT_QCFG_FREQ_GATE_PPB (n : Nat) : Field := fld (0x22010 + 0x80 * n) 0 16 .rwt 50 (.range 1 65535)
def CNT_QCFG_QUAL_S (n : Nat) : Field := fld (0x22010 + 0x80 * n) 16 12 .rwt 60 (.range 1 3600)
def CNT_COUNT_LO_LO (n : Nat) : Field := fld (0x22014 + 0x80 * n) 0 32 .ro 0 .any
def CNT_COUNT_HI_HI (n : Nat) : Field := fld (0x22018 + 0x80 * n) 0 16 .ro 0 .any
def CNT_FFO_FFO (n : Nat) : Field := fld (0x2201c + 0x80 * n) 0 32 .ro 0 .any
def CNT_STATUS_VALID (n : Nat) : Field := fld (0x22020 + 0x80 * n) 0 1 .ro 0 .any
def CNT_STATUS_NO_SIGNAL (n : Nat) : Field := fld (0x22020 + 0x80 * n) 1 1 .ro 0 .any
def CNT_STATUS_QUALIFIED (n : Nat) : Field := fld (0x22020 + 0x80 * n) 2 1 .ro 0 .any
def CNT_STATUS_ARMED (n : Nat) : Field := fld (0x22020 + 0x80 * n) 3 1 .ro 0 .any
def CNT_STATUS_QUAL_REMAIN (n : Nat) : Field := fld (0x22020 + 0x80 * n) 16 12 .ro 0 .any
def CNT_IRQ_EN_EN (n : Nat) : Field := fld (0x22024 + 0x80 * n) 0 4 .rw 0 .any
def CNT_IRQ_STAT_GATE (n : Nat) : Field := fld (0x22028 + 0x80 * n) 0 1 .w1c 0 .any
def CNT_IRQ_STAT_INDEX (n : Nat) : Field := fld (0x22028 + 0x80 * n) 1 1 .w1c 0 .any
def CNT_IRQ_STAT_NO_SIGNAL (n : Nat) : Field := fld (0x22028 + 0x80 * n) 2 1 .w1c 0 .any
def CNT_IRQ_STAT_QUAL (n : Nat) : Field := fld (0x22028 + 0x80 * n) 3 1 .w1c 0 .any
def CNT_SPLIT_WORD (n : Nat) (k : Nat) : Field := fld (0x22060 + 0x80 * n + 0x4 * k) 0 32 .ro 0 .any
def COX_CTRL_ENABLE : Field := fld (0x30000) 0 1 .rwt 0 .any
def COX_CTRL_LEAD : Field := fld (0x30000) 1 5 .rwt 2 (.range 2 16)
def COX_STATUS_LIST_RUN : Field := fld (0x30004) 0 8 .ro 0 .any
def COX_STATUS_CACHE_ERR : Field := fld (0x30004) 8 1 .ro 0 .any
def COX_STATUS_DRAM_ERR : Field := fld (0x30004) 9 1 .w1c 0 .any
def COX_ARMED_LO_LO : Field := fld (0x30008) 0 32 .ro 0 .any
def COX_ARMED_HI_HI : Field := fld (0x3000c) 0 32 .ro 0 .any
def COX_DROPS_LATE : Field := fld (0x30010) 0 16 .ro 0 .any
def COX_DROPS_QFULL : Field := fld (0x30010) 16 16 .ro 0 .any
def COX_ERRS_MISMATCH : Field := fld (0x30014) 0 16 .ro 0 .any
def COX_ERRS_FORMAT : Field := fld (0x30014) 16 16 .ro 0 .any
def COX_LAST_DROP_CHANNEL : Field := fld (0x30018) 0 8 .ro 0 .any
def COX_LAST_DROP_ACTION : Field := fld (0x30018) 8 4 .ro 0 .any
def COX_LAST_DROP_LIST : Field := fld (0x30018) 12 3 .ro 0 .any
def COX_LAST_DROP_QFULL : Field := fld (0x30018) 15 1 .ro 0 .any
def COX_LAST_DROP_REV : Field := fld (0x30018) 16 16 .ro 0 .any
def COX_PERF_PEAK_ARM : Field := fld (0x3001c) 0 16 .ro 0 .any
def COX_PERF_MIN_SLACK : Field := fld (0x3001c) 16 15 .ro 32767 .any
def COX_PERF_CLEAR : Field := fld (0x3001c) 31 1 .wo 0 .any
def COX_REFILL_STALL_CNT : Field := fld (0x30020) 0 16 .ro 0 .any
def COX_IRQ_EN_EN : Field := fld (0x30030) 0 8 .rw 0 .any
def COX_IRQ_STAT_LATE : Field := fld (0x30034) 0 1 .w1c 0 .any
def COX_IRQ_STAT_QFULL : Field := fld (0x30034) 1 1 .w1c 0 .any
def COX_IRQ_STAT_MISMATCH : Field := fld (0x30034) 2 1 .w1c 0 .any
def COX_IRQ_STAT_FORMAT : Field := fld (0x30034) 3 1 .w1c 0 .any
def COX_IRQ_STAT_STALL : Field := fld (0x30034) 4 1 .w1c 0 .any
def COX_IRQ_STAT_DRAM_ERR : Field := fld (0x30034) 5 1 .w1c 0 .any
def COX_IRQ_STAT_STATE : Field := fld (0x30034) 6 1 .w1c 0 .any
def COX_IRQ_STAT_SEL : Field := fld (0x30034) 7 1 .w1c 0 .any
def COX_LIST_CFG_ENABLE (n : Nat) : Field := fld (0x30100 + 0x40 * n) 0 1 .rwt 0 .any
def COX_LIST_CFG_TRK (n : Nat) : Field := fld (0x30100 + 0x40 * n) 1 3 .rwt 0 .any
def COX_LIST_CFG_ON_LOST (n : Nat) : Field := fld (0x30100 + 0x40 * n) 4 1 .rwt 0 .any
def COX_LIST_CFG_LATE_SPLIT (n : Nat) : Field := fld (0x30100 + 0x40 * n) 5 1 .rwt 0 .any
def COX_LIST_CFG_IDX_SEL (n : Nat) : Field := fld (0x30100 + 0x40 * n) 6 1 .rwt 0 .any
def COX_LIST_REVS_REVS (n : Nat) : Field := fld (0x30104 + 0x40 * n) 0 17 .rwt 1 (.range 1 65536)
def COX_LIST_REV_OFS_OFS (n : Nat) : Field := fld (0x30108 + 0x40 * n) 0 16 .rwt 0 (.revOfs n)
def COX_LIST_ENT_BASE_BASE (n : Nat) : Field := fld (0x3010c + 0x40 * n) 0 32 .rwt 2147483648 (.step 8 0x80000000 0xFFFFFFF8)
def COX_LIST_IDX_BASE_A_BASE (n : Nat) : Field := fld (0x30110 + 0x40 * n) 0 32 .rwt 2147483648 (.step 8 0x80000000 0xFFFFFFF8)
def COX_LIST_IDX_BASE_B_BASE (n : Nat) : Field := fld (0x30114 + 0x40 * n) 0 32 .rwt 2147483648 (.step 8 0x80000000 0xFFFFFFF8)
def COX_LIST_CACHE_KIB_KIB (n : Nat) : Field := fld (0x30118 + 0x40 * n) 0 13 .rwt 512 (.step 64 64 4096)
def COX_LIST_STATUS_STATE (n : Nat) : Field := fld (0x3011c + 0x40 * n) 0 2 .ro 0 .any
def COX_LIST_STATUS_CACHE_ERR (n : Nat) : Field := fld (0x3011c + 0x40 * n) 2 1 .ro 0 .any
def COX_LIST_STATUS_SEL_ACTIVE (n : Nat) : Field := fld (0x3011c + 0x40 * n) 3 1 .ro 0 .any
def COX_LIST_STATUS_SYNTH (n : Nat) : Field := fld (0x3011c + 0x40 * n) 4 1 .ro 0 .any
def COX_LIST_STATUS_CUR_REV (n : Nat) : Field := fld (0x3011c + 0x40 * n) 16 16 .ro 0 .any
def COX_LIST_SEL_REV_REV (n : Nat) : Field := fld (0x30120 + 0x40 * n) 0 16 .ro 0 .any
def COX_LIST_CURSOR_INDEX (n : Nat) : Field := fld (0x30124 + 0x40 * n) 0 25 .ro 0 .any
def COX_LIST_ARMED_COUNT (n : Nat) : Field := fld (0x30128 + 0x40 * n) 0 32 .ro 0 .any
def COX_LIST_COUNTS_LATE (n : Nat) : Field := fld (0x3012c + 0x40 * n) 0 16 .ro 0 .any
def COX_LIST_COUNTS_SKIP (n : Nat) : Field := fld (0x3012c + 0x40 * n) 16 16 .ro 0 .any
def CH_CTRL_FLUSH (n : Nat) : Field := fld (0x100000 + 0x100 * n) 0 1 .wo 0 .any
def CH_CTRL_FIFO_CLEAR (n : Nat) : Field := fld (0x100000 + 0x100 * n) 1 1 .wo 0 .any
def CH_CTRL_COUNT_CLEAR (n : Nat) : Field := fld (0x100000 + 0x100 * n) 2 1 .wo 0 .any
def CH_CFG_IDLE (n : Nat) : Field := fld (0x100004 + 0x100 * n) 0 1 .rwt 0 .any
def CH_CFG_KEEP_ALIVE (n : Nat) : Field := fld (0x100004 + 0x100 * n) 1 1 .rwt 0 .any
def CH_CFG_STALE_EN (n : Nat) : Field := fld (0x100004 + 0x100 * n) 2 1 .rwt 0 .any
def CH_CFG_STALE_MEMBER (n : Nat) : Field := fld (0x100004 + 0x100 * n) 3 10 .rwt 0 .any
def CH_STARVE_LIMIT (n : Nat) : Field := fld (0x100008 + 0x100 * n) 0 16 .rwt 0 .any
def CH_STARVE_ACTION (n : Nat) : Field := fld (0x100008 + 0x100 * n) 16 2 .rwt 3 .any
def CH_CAP_CFG_MEAS (n : Nat) : Field := fld (0x10000c + 0x100 * n) 0 3 .rwt 0 (.range 0 6)
def CH_CAP_CFG_EDGE (n : Nat) : Field := fld (0x10000c + 0x100 * n) 3 2 .rwt 0 (.range 0 2)
def CH_CAP_CFG_TDC_REQ (n : Nat) : Field := fld (0x10000c + 0x100 * n) 5 1 .rwt 1 .any
def CH_CAP_CFG_ALWAYS (n : Nat) : Field := fld (0x10000c + 0x100 * n) 6 1 .rwt 0 .any
def CH_CAP_CFG_PARTNER (n : Nat) : Field := fld (0x10000c + 0x100 * n) 7 8 .rwt 0 .any
def CH_PHASE_REF_POS (n : Nat) : Field := fld (0x100010 + 0x100 * n) 0 32 .rwt 0 (.phaseRef n)
def CH_SKEW_OUT_SKEW (n : Nat) : Field := fld (0x100014 + 0x100 * n) 0 16 .rwt 0 (.srange 16 (-2047) 2047)
def CH_SKEW_IN_SKEW (n : Nat) : Field := fld (0x100014 + 0x100 * n) 16 16 .rwt 0 (.srange 16 (-2047) 2047)
def CH_PULSE_WIDTH_WIDTH (n : Nat) : Field := fld (0x100018 + 0x100 * n) 0 32 .rwt 1024 (.range 1024 0xFFFFFFFF)
def CH_TRAIN_PER_LO_PER_LO (n : Nat) : Field := fld (0x10001c + 0x100 * n) 0 32 .rwt 65536000 (.trainPerLo n)
def CH_TRAIN_PER_HI_PER_HI (n : Nat) : Field := fld (0x100020 + 0x100 * n) 0 16 .rwt 0 (.trainPerHi n)
def CH_TRAIN_HIGH_HIGH (n : Nat) : Field := fld (0x100024 + 0x100 * n) 0 32 .rwt 512000 (.trainHigh n)
def CH_STATUS_LEVEL (n : Nat) : Field := fld (0x100030 + 0x100 * n) 0 1 .ro 0 .any
def CH_STATUS_DRIVEN (n : Nat) : Field := fld (0x100030 + 0x100 * n) 1 1 .ro 1 .any
def CH_STATUS_TRAIN_RUN (n : Nat) : Field := fld (0x100030 + 0x100 * n) 2 1 .ro 0 .any
def CH_STATUS_CAP_OPEN (n : Nat) : Field := fld (0x100030 + 0x100 * n) 3 1 .ro 0 .any
def CH_STATUS_STARVED (n : Nat) : Field := fld (0x100030 + 0x100 * n) 4 1 .ro 0 .any
def CH_STATUS_FALLBACK (n : Nat) : Field := fld (0x100030 + 0x100 * n) 5 1 .ro 0 .any
def CH_STATUS_TDC_ACTIVE (n : Nat) : Field := fld (0x100030 + 0x100 * n) 6 1 .ro 0 .any
def CH_STATUS_KA_RUN (n : Nat) : Field := fld (0x100030 + 0x100 * n) 7 1 .ro 0 .any
def CH_STATUS_QDEPTH (n : Nat) : Field := fld (0x100030 + 0x100 * n) 8 5 .ro 0 .any
def CH_STATUS_FIFO_DEPTH (n : Nat) : Field := fld (0x100030 + 0x100 * n) 13 4 .ro 0 .any
def CH_STATUS_GEN (n : Nat) : Field := fld (0x100030 + 0x100 * n) 17 4 .ro 0 .any
def CH_COUNTS_A_OVERFLOW_CNT (n : Nat) : Field := fld (0x100034 + 0x100 * n) 0 16 .ro 0 .any
def CH_COUNTS_A_REFUSED_CNT (n : Nat) : Field := fld (0x100034 + 0x100 * n) 16 16 .ro 0 .any
def CH_COUNTS_B_STARVE_CNT (n : Nat) : Field := fld (0x100038 + 0x100 * n) 0 16 .ro 0 .any
def CH_COUNTS_B_FLUSH_CNT (n : Nat) : Field := fld (0x100038 + 0x100 * n) 16 16 .ro 0 .any
def CH_COUNT_LIVE_COUNT (n : Nat) : Field := fld (0x10003c + 0x100 * n) 0 32 .ro 0 .any
def CH_IRQ_EN_EN (n : Nat) : Field := fld (0x100040 + 0x100 * n) 0 8 .rw 0 .any
def CH_IRQ_STAT_FIRE (n : Nat) : Field := fld (0x100044 + 0x100 * n) 0 1 .w1c 0 .any
def CH_IRQ_STAT_RAISE (n : Nat) : Field := fld (0x100044 + 0x100 * n) 1 1 .w1c 0 .any
def CH_IRQ_STAT_SPLIT (n : Nat) : Field := fld (0x100044 + 0x100 * n) 2 1 .w1c 0 .any
def CH_IRQ_STAT_OVERFLOW (n : Nat) : Field := fld (0x100044 + 0x100 * n) 3 1 .w1c 0 .any
def CH_IRQ_STAT_STARVE (n : Nat) : Field := fld (0x100044 + 0x100 * n) 4 1 .w1c 0 .any
def CH_IRQ_STAT_DROP (n : Nat) : Field := fld (0x100044 + 0x100 * n) 5 1 .w1c 0 .any
def CH_IRQ_STAT_FALLBACK (n : Nat) : Field := fld (0x100044 + 0x100 * n) 6 1 .w1c 0 .any
def CH_IRQ_STAT_KA_END (n : Nat) : Field := fld (0x100044 + 0x100 * n) 7 1 .w1c 0 .any
def CH_SPLIT_CFG_STREAM (n : Nat) : Field := fld (0x100048 + 0x100 * n) 0 1 .rwt 0 .any
def CH_SPLIT_CFG_DMA_CH (n : Nat) : Field := fld (0x100048 + 0x100 * n) 1 4 .rwt 0 .any
def CH_HEV_SEC_LO_SEC_LO (n : Nat) : Field := fld (0x100050 + 0x100 * n) 0 32 .rw 0 .any
def CH_HEV_SEC_HI_SEC_HI (n : Nat) : Field := fld (0x100054 + 0x100 * n) 0 16 .rw 0 .any
def CH_HEV_SEC_HI_FRAC (n : Nat) : Field := fld (0x100054 + 0x100 * n) 16 16 .rw 0 .any
def CH_HEV_NS_NS (n : Nat) : Field := fld (0x100058 + 0x100 * n) 0 30 .rw 0 (.range 0 999999999)
def CH_HEV_WORD_PARAM (n : Nat) : Field := fld (0x10005c + 0x100 * n) 0 16 .rw 0 .any
def CH_HEV_WORD_FLAGS (n : Nat) : Field := fld (0x10005c + 0x100 * n) 16 4 .rw 0 .any
def CH_HEV_WORD_ACTION (n : Nat) : Field := fld (0x10005c + 0x100 * n) 20 4 .rw 0 .any
def CH_HEV_CTRL_GO (n : Nat) : Field := fld (0x100060 + 0x100 * n) 0 1 .wo 0 .any
def CH_HEV_CTRL_DONE (n : Nat) : Field := fld (0x100060 + 0x100 * n) 1 1 .ro 0 .any
def CH_HEV_CTRL_LATE (n : Nat) : Field := fld (0x100060 + 0x100 * n) 2 1 .ro 0 .any
def CH_HEV_CTRL_FULL (n : Nat) : Field := fld (0x100060 + 0x100 * n) 3 1 .ro 0 .any
def CH_REP_PERIOD_PERIOD_NS (n : Nat) : Field := fld (0x100070 + 0x100 * n) 0 26 .rwt 10000000 (.divisor 1000000000 1000 50000000)
def CH_REP_PHASE_PHASE_NS (n : Nat) : Field := fld (0x100074 + 0x100 * n) 0 26 .rwt 0 (.repPhase n)
def CH_REP_EV_OFFSET_NS (n : Nat) (k : Nat) : Field := fld (0x100080 + 0x100 * n + 0x4 * k) 0 26 .rwt 0 (.repPhase n)
def CH_REP_EV_ACT (n : Nat) (k : Nat) : Field := fld (0x100080 + 0x100 * n + 0x4 * k) 26 3 .rwt 0 (.over 4 0)
def CH_SPLIT_WORD (n : Nat) (k : Nat) : Field := fld (0x1000e0 + 0x100 * n + 0x4 * k) 0 32 .ro 0 .any
def SYN_CTRL_ENABLE (n : Nat) : Field := fld (0x40000 + 0x100 * n) 0 1 .rwt 0 .any
def SYN_CTRL_RECAL (n : Nat) : Field := fld (0x40000 + 0x100 * n) 1 1 .wo 0 .any
def SYN_CFG_N (n : Nat) : Field := fld (0x40004 + 0x100 * n) 0 3 .rwt 5 (.range 4 6)
def SYN_FRAC_NUM_NUM (n : Nat) : Field := fld (0x40008 + 0x100 * n) 0 24 .rwt 0 (.fracNum n)
def SYN_FRAC_DEN_DEN (n : Nat) : Field := fld (0x4000c + 0x100 * n) 0 24 .rwt 1 (.range 1 16777215)
def SYN_ODIV_ODIV (n : Nat) : Field := fld (0x40010 + 0x100 * n) 0 23 .rwt 500 (.odiv n)
def SYN_ALIGN_PERIOD_S (n : Nat) : Field := fld (0x40014 + 0x100 * n) 0 6 .rwt 1 (.range 1 63)
def SYN_ALIGN_ALIGN_EN (n : Nat) : Field := fld (0x40014 + 0x100 * n) 8 1 .rwt 1 .any
def SYN_PHASE_PS_PHASE (n : Nat) : Field := fld (0x40018 + 0x100 * n) 0 30 .rwt 0 (.synPhase n)
def SYN_GUARD_TRK (n : Nat) : Field := fld (0x4001c + 0x100 * n) 0 3 .rwt 0 .any
def SYN_GUARD_EN (n : Nat) : Field := fld (0x4001c + 0x100 * n) 3 1 .rwt 0 .any
def SYN_GUARD_LEN_NS (n : Nat) : Field := fld (0x4001c + 0x100 * n) 8 20 .rwt 0 .any
def SYN_GUARD_POS_POS (n : Nat) : Field := fld (0x40020 + 0x100 * n) 0 32 .rwt 0 (.guardPos n)
def SYN_CAL_CFG_INTERVAL_S (n : Nat) : Field := fld (0x40024 + 0x100 * n) 0 12 .rwt 60 (.range 1 3600)
def SYN_STATUS_STATE (n : Nat) : Field := fld (0x40030 + 0x100 * n) 0 3 .ro 0 .any
def SYN_STATUS_NO_ALIGN (n : Nat) : Field := fld (0x40030 + 0x100 * n) 3 1 .ro 0 .any
def SYN_STATUS_CAL_OVERDUE (n : Nat) : Field := fld (0x40030 + 0x100 * n) 4 1 .ro 0 .any
def SYN_COUNTS_LOCK_LOSS_CNT (n : Nat) : Field := fld (0x40034 + 0x100 * n) 0 16 .ro 0 .any
def SYN_IRQ_EN_EN (n : Nat) : Field := fld (0x40040 + 0x100 * n) 0 3 .rw 0 .any
def SYN_IRQ_STAT_STATE (n : Nat) : Field := fld (0x40044 + 0x100 * n) 0 1 .w1c 0 .any
def SYN_IRQ_STAT_LOCK_LOST (n : Nat) : Field := fld (0x40044 + 0x100 * n) 1 1 .w1c 0 .any
def SYN_IRQ_STAT_CAL_OVERDUE (n : Nat) : Field := fld (0x40044 + 0x100 * n) 2 1 .w1c 0 .any
def DOUT_CFG_STD (n : Nat) : Field := fld (0x40800 + 0x4 * n) 0 2 .rwt 0 .any
def DOUT_CFG_DRIVE (n : Nat) : Field := fld (0x40800 + 0x4 * n) 2 1 .rwt 0 .any
def TXG_INH_CFG_INH_MASK : Field := fld (0x41000) 0 8 .rwt 255 (.range 1 255)
def TXG_IRQ_EN_EN : Field := fld (0x41004) 0 16 .rw 0 .any
def TXG_IRQ_STAT_REJECT : Field := fld (0x41008) 0 8 .w1c 0 .any
def TXG_IRQ_STAT_DISQ : Field := fld (0x41008) 8 8 .w1c 0 .any
def TXG_ALL_STATUS_OPEN : Field := fld (0x4100c) 0 8 .ro 0 .any
def TXG_ALL_STATUS_PENDING : Field := fld (0x4100c) 8 8 .ro 0 .any
def TXG_ALL_STATUS_TXINH : Field := fld (0x4100c) 16 1 .ro 1 .any
def TXG_CFG_Q_SYN (n : Nat) : Field := fld (0x41100 + 0x20 * n) 0 4 .rwt 0 .any
def TXG_CFG_Q_TB (n : Nat) : Field := fld (0x41100 + 0x20 * n) 4 1 .rwt 1 .any
def TXG_CFG_Q_RIG (n : Nat) : Field := fld (0x41100 + 0x20 * n) 5 1 .rwt 1 .any
def TXG_CFG_Q_TRUST (n : Nat) : Field := fld (0x41100 + 0x20 * n) 6 1 .rwt 1 .any
def TXG_CFG_WARM_HOLD (n : Nat) : Field := fld (0x41100 + 0x20 * n) 7 1 .rwt 0 .any
def TXG_CFG_TIMEOUT_MS (n : Nat) : Field := fld (0x41100 + 0x20 * n) 8 10 .rwt 20 (.range 1 1000)
def TXG_CTRL_OPEN (n : Nat) : Field := fld (0x41104 + 0x20 * n) 0 1 .wo 0 .any
def TXG_CTRL_CLOSE (n : Nat) : Field := fld (0x41104 + 0x20 * n) 1 1 .wo 0 .any
def TXG_STATUS_STATE (n : Nat) : Field := fld (0x41108 + 0x20 * n) 0 2 .ro 0 .any
def TXG_STATUS_TB_OK (n : Nat) : Field := fld (0x41108 + 0x20 * n) 2 1 .ro 0 .any
def TXG_STATUS_RIG_OK (n : Nat) : Field := fld (0x41108 + 0x20 * n) 3 1 .ro 0 .any
def TXG_STATUS_TRUST_OK (n : Nat) : Field := fld (0x41108 + 0x20 * n) 4 1 .ro 0 .any
def TXG_STATUS_SYN_OK (n : Nat) : Field := fld (0x41108 + 0x20 * n) 5 4 .ro 0 .any
def TXG_STATUS_LAST_REJECT (n : Nat) : Field := fld (0x41108 + 0x20 * n) 9 1 .w1c 0 .any
def TXG_COUNTS_REJECT_CNT (n : Nat) : Field := fld (0x4110c + 0x20 * n) 0 16 .ro 0 .any
def TXG_COUNTS_DISQ_CNT (n : Nat) : Field := fld (0x4110c + 0x20 * n) 16 16 .ro 0 .any
def CE_CTRL_ENABLE (n : Nat) : Field := fld (0x50000 + 0x2000 * n) 0 1 .rwt 0 .any
def CE_CTRL_HALT (n : Nat) : Field := fld (0x50000 + 0x2000 * n) 1 1 .wo 0 .any
def CE_CTRL_RESUME (n : Nat) : Field := fld (0x50000 + 0x2000 * n) 2 1 .wo 0 .any
def CE_CTRL_STEP (n : Nat) : Field := fld (0x50000 + 0x2000 * n) 3 1 .wo 0 .any
def CE_CFG_OVR_POLICY (n : Nat) : Field := fld (0x50004 + 0x2000 * n) 0 1 .rwt 0 .any
def CE_CFG_OVR_TRAP (n : Nat) : Field := fld (0x50004 + 0x2000 * n) 1 1 .rwt 0 .any
def CE_VEC_BASE (n : Nat) : Field := fld (0x50008 + 0x2000 * n) 0 16 .rwt 0 (.step 128 0 65408)
def CE_STATUS_RUN (n : Nat) : Field := fld (0x5000c + 0x2000 * n) 0 3 .ro 0 .any
def CE_STATUS_OVERRUN (n : Nat) : Field := fld (0x5000c + 0x2000 * n) 3 1 .ro 0 .any
def CE_STATUS_IE (n : Nat) : Field := fld (0x5000c + 0x2000 * n) 4 1 .ro 0 .any
def CE_STATUS_TS (n : Nat) : Field := fld (0x5000c + 0x2000 * n) 5 1 .ro 0 .any
def CE_STATUS_PC (n : Nat) : Field := fld (0x5000c + 0x2000 * n) 16 16 .ro 0 .any
def CE_COUNTS_OVERRUN_CNT (n : Nat) : Field := fld (0x50010 + 0x2000 * n) 0 16 .ro 0 .any
def CE_COUNTS_TRAP_CNT (n : Nat) : Field := fld (0x50010 + 0x2000 * n) 16 16 .ro 0 .any
def CE_STAGE_DEPTH (n : Nat) : Field := fld (0x50014 + 0x2000 * n) 0 9 .ro 0 .any
def CE_STAGE_OVF (n : Nat) : Field := fld (0x50014 + 0x2000 * n) 9 1 .ro 0 .any
def CE_STAGE_OVF_CNT (n : Nat) : Field := fld (0x50014 + 0x2000 * n) 16 16 .ro 0 .any
def CE_RUNMAX_MAXYIELD (n : Nat) : Field := fld (0x50018 + 0x2000 * n) 0 16 .ro 0 .any
def CE_RUNMAX_CLEAR (n : Nat) : Field := fld (0x50018 + 0x2000 * n) 31 1 .wo 0 .any
def CE_TRAPINFO_CAUSE (n : Nat) : Field := fld (0x5001c + 0x2000 * n) 0 4 .ro 0 .any
def CE_TRAPINFO_DOUBLE (n : Nat) : Field := fld (0x5001c + 0x2000 * n) 4 1 .ro 0 .any
def CE_TRAPINFO_PC (n : Nat) : Field := fld (0x5001c + 0x2000 * n) 16 16 .ro 0 .any
def CE_IRQ_EN_EN (n : Nat) : Field := fld (0x50020 + 0x2000 * n) 0 4 .rw 0 .any
def CE_IRQ_STAT_OVERRUN (n : Nat) : Field := fld (0x50024 + 0x2000 * n) 0 1 .w1c 0 .any
def CE_IRQ_STAT_TRAP (n : Nat) : Field := fld (0x50024 + 0x2000 * n) 1 1 .w1c 0 .any
def CE_IRQ_STAT_FAULT (n : Nat) : Field := fld (0x50024 + 0x2000 * n) 2 1 .w1c 0 .any
def CE_IRQ_STAT_STAGE_OVF (n : Nat) : Field := fld (0x50024 + 0x2000 * n) 3 1 .w1c 0 .any
def CE_WIN_WIN (n : Nat) : Field := fld (0x50028 + 0x2000 * n) 0 15 .ro 0 .any
def CE_SEG_BASE_BASE (n : Nat) (k : Nat) : Field := fld (0x50040 + 0x2000 * n + 0x8 * k) 0 24 .rwt 0 .any
def CE_SEG_BASE_R (n : Nat) (k : Nat) : Field := fld (0x50040 + 0x2000 * n + 0x8 * k) 24 1 .rwt 0 .any
def CE_SEG_BASE_W (n : Nat) (k : Nat) : Field := fld (0x50040 + 0x2000 * n + 0x8 * k) 25 1 .rwt 0 .any
def CE_SEG_LIMIT_LIMIT (n : Nat) (k : Nat) : Field := fld (0x50044 + 0x2000 * n + 0x8 * k) 0 17 .rwt 1 (.range 1 65536)
def CE_CSEL_SEL (n : Nat) (k : Nat) : Field := fld (0x50080 + 0x2000 * n + 0x4 * k) 0 16 .ro 15 .any
def CE_XREG_VALUE (n : Nat) (k : Nat) : Field := fld (0x50400 + 0x2000 * n + 0x4 * k) 0 16 .rw 0 .any
def CE_SPEC_VALUE (n : Nat) (k : Nat) : Field := fld (0x50800 + 0x2000 * n + 0x4 * k) 0 16 .rw (if 17 ≤ k then 15 else 0) .any
def PE_CTRL_ENABLE (n : Nat) : Field := fld (0x60000 + 0x800 * n) 0 1 .rwt 0 .any
def PE_CTRL_RESTART (n : Nat) : Field := fld (0x60000 + 0x800 * n) 1 1 .wo 0 .any
def PE_CTRL_COUNT_CLEAR (n : Nat) : Field := fld (0x60000 + 0x800 * n) 2 1 .wo 0 .any
def PE_CFG_START_PC (n : Nat) : Field := fld (0x60004 + 0x800 * n) 0 6 .rwt 0 .any
def PE_CFG_WRAP_BOTTOM (n : Nat) : Field := fld (0x60004 + 0x800 * n) 6 6 .rwt 0 .any
def PE_CFG_WRAP_TOP (n : Nat) : Field := fld (0x60004 + 0x800 * n) 12 6 .rwt 63 .any
def PE_CFG_QMODE (n : Nat) : Field := fld (0x60004 + 0x800 * n) 18 2 .rwt 0 (.over 2 0)
def PE_CLKDIV_DIV (n : Nat) : Field := fld (0x60008 + 0x800 * n) 0 28 .rwt 256 (.range 256 0xFFFFFFF)
def PE_PINS_IN_BASE (n : Nat) : Field := fld (0x6000c + 0x800 * n) 0 7 .rwt 0 .any
def PE_PINS_IN_COUNT (n : Nat) : Field := fld (0x6000c + 0x800 * n) 7 6 .rwt 0 (.range 0 32)
def PE_PINS_OUT_BASE (n : Nat) : Field := fld (0x6000c + 0x800 * n) 13 7 .rwt 0 .any
def PE_PINS_OUT_COUNT (n : Nat) : Field := fld (0x6000c + 0x800 * n) 20 6 .rwt 0 (.range 0 32)
def PE_PINS2_SIDE_BASE (n : Nat) : Field := fld (0x60010 + 0x800 * n) 0 7 .rwt 0 .any
def PE_PINS2_SIDE_COUNT (n : Nat) : Field := fld (0x60010 + 0x800 * n) 7 3 .rwt 0 (.range 0 5)
def PE_PINS2_JPIN (n : Nat) : Field := fld (0x60010 + 0x800 * n) 10 7 .rwt 0 .any
def PE_PINS2_SA (n : Nat) : Field := fld (0x60010 + 0x800 * n) 17 5 .rwt 0 .any
def PE_PINS2_SB (n : Nat) : Field := fld (0x60010 + 0x800 * n) 22 5 .rwt 0 .any
def PE_SHIFTCTL_RX_LSB (n : Nat) : Field := fld (0x60014 + 0x800 * n) 0 1 .rwt 1 .any
def PE_SHIFTCTL_TX_LSB (n : Nat) : Field := fld (0x60014 + 0x800 * n) 1 1 .rwt 1 .any
def PE_SHIFTCTL_RX_AUTO (n : Nat) : Field := fld (0x60014 + 0x800 * n) 2 1 .rwt 0 .any
def PE_SHIFTCTL_TX_AUTO (n : Nat) : Field := fld (0x60014 + 0x800 * n) 3 1 .rwt 0 .any
def PE_SHIFTCTL_TX_AUTO_NB (n : Nat) : Field := fld (0x60014 + 0x800 * n) 4 1 .rwt 0 .any
def PE_SHIFTCTL_WLEN_RX (n : Nat) : Field := fld (0x60014 + 0x800 * n) 5 6 .rwt 32 (.range 1 32)
def PE_SHIFTCTL_WLEN_TX (n : Nat) : Field := fld (0x60014 + 0x800 * n) 11 6 .rwt 32 (.range 1 32)
def PE_IDLE_IDLE_STROKES (n : Nat) : Field := fld (0x60018 + 0x800 * n) 0 16 .rwt 0 .any
def PE_QTHRESH_TX_LOW (n : Nat) : Field := fld (0x6001c + 0x800 * n) 0 4 .rwt 0 (.range 0 8)
def PE_QTHRESH_RX_HIGH (n : Nat) : Field := fld (0x6001c + 0x800 * n) 4 4 .rwt 8 (.range 1 8)
def PE_STATUS_RUN (n : Nat) : Field := fld (0x60020 + 0x800 * n) 0 2 .ro 0 .any
def PE_STATUS_PC (n : Nat) : Field := fld (0x60020 + 0x800 * n) 2 6 .ro 0 .any
def PE_STATUS_TX_LEVEL (n : Nat) : Field := fld (0x60020 + 0x800 * n) 8 4 .ro 0 .any
def PE_STATUS_RX_LEVEL (n : Nat) : Field := fld (0x60020 + 0x800 * n) 12 4 .ro 0 .any
def PE_STATUS_RSH_COUNT (n : Nat) : Field := fld (0x60020 + 0x800 * n) 16 6 .ro 0 .any
def PE_STATUS_TSH_COUNT (n : Nat) : Field := fld (0x60020 + 0x800 * n) 22 6 .ro 0 .any
def PE_STATUS_ILLEGAL (n : Nat) : Field := fld (0x60020 + 0x800 * n) 28 1 .ro 0 .any
def PE_X_X (n : Nat) : Field := fld (0x60024 + 0x800 * n) 0 32 .ro 0 .any
def PE_Y_Y (n : Nat) : Field := fld (0x60028 + 0x800 * n) 0 32 .ro 0 .any
def PE_COUNTS_A_UNDERRUN_CNT (n : Nat) : Field := fld (0x6002c + 0x800 * n) 0 16 .ro 0 .any
def PE_COUNTS_A_OVERRUN_CNT (n : Nat) : Field := fld (0x6002c + 0x800 * n) 16 16 .ro 0 .any
def PE_COUNTS_B_COLLIDE_CNT (n : Nat) : Field := fld (0x60030 + 0x800 * n) 0 16 .ro 0 .any
def PE_COUNTS_B_TXDROP_CNT (n : Nat) : Field := fld (0x60030 + 0x800 * n) 16 16 .ro 0 .any
def PE_COUNTS_C_FLUSH_CNT (n : Nat) : Field := fld (0x60034 + 0x800 * n) 0 16 .ro 0 .any
def PE_LAST_FLUSH_COUNT (n : Nat) : Field := fld (0x60038 + 0x800 * n) 0 6 .ro 0 .any
def PE_TXQ_WORD (n : Nat) : Field := fld (0x60040 + 0x800 * n) 0 32 .wo 0 .any
def PE_RXQ_WORD (n : Nat) : Field := fld (0x60044 + 0x800 * n) 0 32 .ro 0 .any
def PE_RXQ_INFO_COUNT (n : Nat) : Field := fld (0x60048 + 0x800 * n) 0 6 .ro 0 .any
def PE_RXQ_INFO_FLUSHED (n : Nat) : Field := fld (0x60048 + 0x800 * n) 6 1 .ro 0 .any
def PE_RXQ_INFO_VALID (n : Nat) : Field := fld (0x60048 + 0x800 * n) 7 1 .ro 0 .any
def PE_IRQ_EN_EN (n : Nat) : Field := fld (0x60050 + 0x800 * n) 0 9 .rw 0 .any
def PE_IRQ_STAT_SIGNAL (n : Nat) : Field := fld (0x60054 + 0x800 * n) 0 1 .w1c 0 .any
def PE_IRQ_STAT_UNDERRUN (n : Nat) : Field := fld (0x60054 + 0x800 * n) 1 1 .w1c 0 .any
def PE_IRQ_STAT_OVERRUN (n : Nat) : Field := fld (0x60054 + 0x800 * n) 2 1 .w1c 0 .any
def PE_IRQ_STAT_FLUSH (n : Nat) : Field := fld (0x60054 + 0x800 * n) 3 1 .w1c 0 .any
def PE_IRQ_STAT_ILLEGAL (n : Nat) : Field := fld (0x60054 + 0x800 * n) 4 1 .w1c 0 .any
def PE_IRQ_STAT_COLLIDE (n : Nat) : Field := fld (0x60054 + 0x800 * n) 5 1 .w1c 0 .any
def PE_IRQ_STAT_TXDROP (n : Nat) : Field := fld (0x60054 + 0x800 * n) 6 1 .w1c 0 .any
def PE_IRQ_STAT_TX_LOW (n : Nat) : Field := fld (0x60054 + 0x800 * n) 7 1 .w1c 0 .any
def PE_IRQ_STAT_RX_HIGH (n : Nat) : Field := fld (0x60054 + 0x800 * n) 8 1 .w1c 0 .any
def PE_INSTR_WORD (n : Nat) (k : Nat) : Field := fld (0x60100 + 0x800 * n + 0x4 * k) 0 24 .rw 0 .any
def PE_GFLAGS_FLAGS (n : Nat) : Field := fld (0x60780 + 0x800 * n) 0 8 .rw 0 .any
def RIG_CTRL_ACTIVE_SEL : Field := fld (0x70000) 0 1 .rwt 0 (.activeSel)
def RIG_CTRL_LOAD : Field := fld (0x70000) 1 1 .wo 0 .any
def RIG_CTRL_ACCEPT : Field := fld (0x70000) 2 1 .wo 0 .any
def RIG_CTRL_CLEAR : Field := fld (0x70000) 3 1 .wo 0 .any
def RIG_LOAD_ADDR_ADDR : Field := fld (0x70004) 0 32 .rw 2147483648 (.step 4 0x80000000 0xFFFFFFFC)
def RIG_LOAD_LEN_LEN : Field := fld (0x70008) 0 28 .rw 256 (.range 256 268435455)
def RIG_STATUS_ACTIVE : Field := fld (0x7000c) 0 1 .ro 0 .any
def RIG_STATUS_STATE_A : Field := fld (0x7000c) 1 3 .ro 0 .any
def RIG_STATUS_STATE_B : Field := fld (0x7000c) 4 3 .ro 0 .any
def RIG_STATUS_SWAP_REFUSED : Field := fld (0x7000c) 7 1 .w1c 0 .any
def RIG_STATUS_REJECT : Field := fld (0x7000c) 8 4 .ro 0 .any
def RIG_SLOT_BASE_A_BASE : Field := fld (0x70010) 0 32 .rw 4286578688 (.step 0x400000 0x80000000 0xFFC00000)
def RIG_SLOT_BASE_B_BASE : Field := fld (0x70014) 0 32 .rw 4290772992 (.step 0x400000 0x80000000 0xFFC00000)
def RIG_SLOT_SEQ_ARB_SEQ (n : Nat) : Field := fld (0x70020 + 0x10 * n) 0 32 .ro 0 .any
def RIG_SLOT_IMGVER_IMG_VER (n : Nat) : Field := fld (0x70024 + 0x10 * n) 0 32 .ro 0 .any
def RIG_SLOT_LEVEL_CREW_LEVEL (n : Nat) : Field := fld (0x70028 + 0x10 * n) 0 16 .ro 0 .any
def RIG_IRQ_EN_EN : Field := fld (0x70040) 0 4 .rw 0 .any
def RIG_IRQ_STAT_LOADED : Field := fld (0x70044) 0 1 .w1c 0 .any
def RIG_IRQ_STAT_REJECTED : Field := fld (0x70044) 1 1 .w1c 0 .any
def RIG_IRQ_STAT_SWAP : Field := fld (0x70044) 2 1 .w1c 0 .any
def RIG_IRQ_STAT_SWAP_REFUSED : Field := fld (0x70044) 3 1 .w1c 0 .any
def TXN_BEGIN_HANDLE : Field := fld (0x71000) 0 16 .ro 0 .any
def TXN_CMD_HANDLE : Field := fld (0x71004) 0 16 .wo 0 .any
def TXN_CMD_OP : Field := fld (0x71004) 16 3 .wo 0 .any
def TXN_LAST_RESULT : Field := fld (0x71008) 0 3 .ro 0 .any
def TXN_COUNTS_STALE_CNT : Field := fld (0x7100c) 0 16 .ro 0 .any
def TXN_COUNTS_WARM_LOSS_CNT : Field := fld (0x7100c) 16 16 .ro 0 .any
def TXN_IRQ_EN_EN : Field := fld (0x71010) 0 3 .rw 0 .any
def TXN_IRQ_STAT_APPLIED : Field := fld (0x71014) 0 1 .w1c 0 .any
def TXN_IRQ_STAT_STALE : Field := fld (0x71014) 1 1 .w1c 0 .any
def TXN_IRQ_STAT_REFUSED : Field := fld (0x71014) 2 1 .w1c 0 .any
def TXN_CTX_AT_LO_AT_LO (n : Nat) : Field := fld (0x71100 + 0x20 * n) 0 32 .rw 0 .any
def TXN_CTX_AT_HI_AT_HI (n : Nat) : Field := fld (0x71104 + 0x20 * n) 0 32 .rw 0 .any
def TXN_CTX_AT_NS_NS (n : Nat) : Field := fld (0x71108 + 0x20 * n) 0 30 .rw 0 (.range 0 999999999)
def TXN_CTX_STATUS_STATE (n : Nat) : Field := fld (0x7110c + 0x20 * n) 0 2 .ro 0 .any
def TXN_CTX_STATUS_OVF (n : Nat) : Field := fld (0x7110c + 0x20 * n) 2 1 .ro 0 .any
def TXN_CTX_STATUS_DEPTH (n : Nat) : Field := fld (0x7110c + 0x20 * n) 3 13 .ro 0 .any
def TXN_CTX_STATUS_GEN (n : Nat) : Field := fld (0x7110c + 0x20 * n) 16 4 .ro 0 .any
def TXN_CTX_STATUS_OWNER (n : Nat) : Field := fld (0x7110c + 0x20 * n) 20 4 .ro 0 .any
def TXN_CTX_STATUS_WHEN (n : Nat) : Field := fld (0x7110c + 0x20 * n) 24 3 .ro 0 .any
def CREW_CTRL_ENABLE : Field := fld (0x80000) 0 1 .rwt 0 .any
def CREW_CTRL_ROLLCALL : Field := fld (0x80000) 1 1 .wo 0 .any
def CREW_CTRL_RAISE_LEVEL : Field := fld (0x80000) 2 1 .wo 0 .any
def CREW_CTRL_REKEY : Field := fld (0x80000) 3 1 .wo 0 .any
def CREW_CFG_LEAD_PRIO : Field := fld (0x80004) 0 4 .rwt 8 .any
def CREW_CFG_SD_WORDS : Field := fld (0x80004) 4 5 .rwt 0 (.range 0 16)
def CREW_CFG_ENCRYPT : Field := fld (0x80004) 9 1 .rwt 1 .any
def CREW_CFG_CC_PREP : Field := fld (0x80004) 10 7 .rwt 4 (.range 2 64)
def CREW_QUAL_QUAL_S : Field := fld (0x80008) 0 12 .rwt 60 (.range 1 3600)
def CREW_GATE_PHASE_GATE_NS : Field := fld (0x8000c) 0 16 .rwt 50 (.range 10 65535)
def CREW_GATE_FREQ_GATE_PPB : Field := fld (0x8000c) 16 16 .rwt 50 (.range 1 65535)
def CREW_SCORE_CFG_QUAR_SCORE : Field := fld (0x80010) 0 8 .rwt 8 (.range 4 255)
def CREW_SCORE_CFG_QUAR_HOLD_S : Field := fld (0x80010) 8 16 .rwt 300 (.range 10 65535)
def CREW_SCORE_CFG_PHASE_EN : Field := fld (0x80010) 24 1 .rwt 1 .any
def CREW_SCORE_CFG_FREQ_EN : Field := fld (0x80010) 25 1 .rwt 1 .any
def CREW_SIGMA_PS_SIGMA : Field := fld (0x80014) 0 24 .rwt 20 (.range 1 16000000)
def CREW_LEVEL_AT_LO_SEC_LO : Field := fld (0x80018) 0 32 .rw 0 .any
def CREW_LEVEL_AT_HI_SEC_HI : Field := fld (0x8001c) 0 16 .rw 0 .any
def CREW_STATUS_ROLE : Field := fld (0x80020) 0 2 .ro 0 .any
def CREW_STATUS_MY_ID : Field := fld (0x80020) 2 10 .ro 0 .any
def CREW_STATUS_UP_PORT : Field := fld (0x80020) 12 2 .ro 0 .any
def CREW_STATUS_HOPS : Field := fld (0x80020) 14 3 .ro 0 .any
def CREW_STATUS_ADMITTED : Field := fld (0x80020) 17 1 .ro 0 .any
def CREW_STATUS_SD_DENIED : Field := fld (0x80020) 18 1 .ro 0 .any
def CREW_STATUS_REFUSED : Field := fld (0x80020) 19 1 .ro 0 .any
def CREW_STATUS_CREW_QUAL : Field := fld (0x80020) 20 1 .ro 0 .any
def CREW_STATUS_MEMBERS : Field := fld (0x80020) 21 11 .ro 0 .any
def CREW_LEVEL_CUR : Field := fld (0x80024) 0 16 .ro 0 .any
def CREW_LEVEL_TARGET : Field := fld (0x80024) 16 16 .ro 0 .any
def CREW_LEVEL_SPAN_MIN : Field := fld (0x80028) 0 16 .ro 1 .any
def CREW_LEVEL_SPAN_MAX : Field := fld (0x80028) 16 16 .ro 1 .any
def CREW_LEAD_SER_LO_LO : Field := fld (0x8002c) 0 32 .ro 0 .any
def CREW_LEAD_SER_HI_HI : Field := fld (0x80030) 0 32 .ro 0 .any
def CREW_OFFSET_PS_OFFSET : Field := fld (0x80034) 0 32 .ro 0 .any
def CREW_PATH_NS_PATH : Field := fld (0x80038) 0 16 .ro 0 .any
def CREW_SCORE_SCORE : Field := fld (0x8003c) 0 8 .ro 0 .any
def CREW_SCORE_QUAR_24H : Field := fld (0x8003c) 8 8 .ro 0 .any
def CREW_SCORE_HOLD_REMAIN : Field := fld (0x8003c) 16 16 .ro 0 .any
def CREW_PORT_CFG_EN (n : Nat) : Field := fld (0x80040 + 0x10 * n) 0 1 .rwt 1 .any
def CREW_PORT_CFG_ASYM_PS (n : Nat) : Field := fld (0x80040 + 0x10 * n) 16 16 .rwt 0 (.srange 16 (-32767) 32767)
def CREW_PORT_STAT_STATE (n : Nat) : Field := fld (0x80044 + 0x10 * n) 0 3 .ro 0 .any
def CREW_PORT_STAT_DELAY_NS (n : Nat) : Field := fld (0x80044 + 0x10 * n) 3 13 .ro 0 .any
def CREW_PORT_COUNTS_AUTH_FAIL_CNT (n : Nat) : Field := fld (0x80048 + 0x10 * n) 0 16 .ro 0 .any
def CREW_PORT_COUNTS_DROP_CNT (n : Nat) : Field := fld (0x80048 + 0x10 * n) 16 16 .ro 0 .any
def CREW_PORT_IRQ_EN (n : Nat) : Field := fld (0x8004c + 0x10 * n) 0 2 .rw 0 .any
def CREW_PORT_IRQ_LINK (n : Nat) : Field := fld (0x8004c + 0x10 * n) 16 1 .w1c 0 .any
def CREW_PORT_IRQ_AUTH (n : Nat) : Field := fld (0x8004c + 0x10 * n) 17 1 .w1c 0 .any
def CREW_COUNTS_GEN_DISCARD_CNT : Field := fld (0x80080) 0 16 .ro 0 .any
def CREW_COUNTS_ABSENT_CNT : Field := fld (0x80080) 16 16 .ro 0 .any
def CREW_CC_CTRL_BEGIN : Field := fld (0x80084) 0 1 .wo 0 .any
def CREW_CC_STATUS_STATE : Field := fld (0x80088) 0 2 .ro 0 .any
def CREW_CC_STATUS_OUTCOME : Field := fld (0x80088) 2 2 .ro 0 .any
def CREW_CC_STATUS_CTID : Field := fld (0x80088) 16 16 .ro 0 .any
def CREW_CC_COUNTS_ABORT_CNT : Field := fld (0x8008c) 0 16 .ro 0 .any
def CREW_CC_COUNTS_ORPHAN_CNT : Field := fld (0x8008c) 16 16 .ro 0 .any
def CREW_IRQ_EN_EN : Field := fld (0x80090) 0 9 .rw 0 .any
def CREW_IRQ_STAT_CAUSE : Field := fld (0x80094) 0 9 .w1c 0 .any
def CREW_RA_DEST_ID : Field := fld (0x800a0) 0 10 .rw 0 .any
def CREW_RA_DEST_BCAST : Field := fld (0x800a0) 10 1 .rw 0 .any
def CREW_RA_DEST_IN_CC : Field := fld (0x800a0) 11 1 .rw 0 .any
def CREW_RA_ADDR_ADDR : Field := fld (0x800a4) 0 32 .rw 0 (.step 4 0 0xFFFFFFFC)
def CREW_RA_DATA_DATA : Field := fld (0x800a8) 0 32 .rw 0 .any
def CREW_RA_CTRL_GO : Field := fld (0x800ac) 0 1 .wo 0 .any
def CREW_RA_CTRL_WRITE : Field := fld (0x800ac) 1 1 .rw 0 .any
def CREW_RA_CTRL_RESULT : Field := fld (0x800ac) 2 3 .ro 0 .any
def CREW_RA_CTRL_BUSY : Field := fld (0x800ac) 5 1 .ro 0 .any
def CREW_DB_TX_DEST : Field := fld (0x800b0) 0 10 .rw 0 .any
def CREW_DB_TX_BCAST : Field := fld (0x800b0) 10 1 .rw 0 .any
def CREW_DB_TX_INDEX : Field := fld (0x800b0) 11 6 .rw 0 (.range 0 62)
def CREW_DB_TX_GO : Field := fld (0x800b0) 31 1 .wo 0 .any
def CREW_DB_DATA_DATUM : Field := fld (0x800b4) 0 16 .rw 0 .any
def CREW_DB_ALLOW_LO_ALLOW : Field := fld (0x800b8) 0 32 .rw 0 .any
def CREW_DB_ALLOW_HI_ALLOW : Field := fld (0x800bc) 0 31 .rw 0 .any
def CREW_SD_TX_WORD (n : Nat) : Field := fld (0x80100 + 0x4 * n) 0 32 .rw 0 .any
def CREW_SD_STALE_STALE (n : Nat) : Field := fld (0x80200 + 0x4 * n) 0 32 .ro 4294967295 .any
def CREW_ROSTER_PRESENT (n : Nat) : Field := fld (0x81000 + 0x4 * n) 0 1 .ro 0 .any
def CREW_ROSTER_SD (n : Nat) : Field := fld (0x81000 + 0x4 * n) 1 1 .ro 0 .any
def CREW_ROSTER_HOPS (n : Nat) : Field := fld (0x81000 + 0x4 * n) 2 3 .ro 0 .any
def CREW_ROSTER_LVL_MAX (n : Nat) : Field := fld (0x81000 + 0x4 * n) 8 8 .ro 0 .any
def ETH_CTRL_ENABLE (n : Nat) : Field := fld (0x90000 + 0x4000 * n) 0 1 .rwt 0 .any
def ETH_CTRL_RETRAIN (n : Nat) : Field := fld (0x90000 + 0x4000 * n) 1 1 .wo 0 .any
def ETH_CFG_PCS (n : Nat) : Field := fld (0x90004 + 0x4000 * n) 0 2 .rwt 2 .any
def ETH_CFG_FEC (n : Nat) : Field := fld (0x90004 + 0x4000 * n) 2 1 .rwt 0 (.fec n)
def ETH_CFG_AN_EN (n : Nat) : Field := fld (0x90004 + 0x4000 * n) 3 1 .rwt 1 (.anEn n)
def ETH_STATUS_LINK (n : Nat) : Field := fld (0x90008 + 0x4000 * n) 0 1 .ro 0 .any
def ETH_STATUS_RXCLK_OK (n : Nat) : Field := fld (0x90008 + 0x4000 * n) 1 1 .ro 0 .any
def ETH_STATUS_SPEED_NA (n : Nat) : Field := fld (0x90008 + 0x4000 * n) 2 1 .ro 0 .any
def ETH_STATUS_ESMC_FAILED (n : Nat) : Field := fld (0x90008 + 0x4000 * n) 3 1 .ro 0 .any
def ETH_TS_TX_PS_CORR (n : Nat) : Field := fld (0x9000c + 0x4000 * n) 0 20 .rwt 38720 (.range 0 1000000)
def ETH_TS_RX_PS_CORR (n : Nat) : Field := fld (0x90010 + 0x4000 * n) 0 20 .rwt 52480 (.range 0 1000000)
def ETH_PTP_CFG_ROLE (n : Nat) : Field := fld (0x90020 + 0x4000 * n) 0 2 .rwt 0 .any
def ETH_PTP_CFG_PROFILE (n : Nat) : Field := fld (0x90020 + 0x4000 * n) 2 2 .rwt 1 (.range 0 2)
def ETH_PTP_CFG_DOMAIN (n : Nat) : Field := fld (0x90020 + 0x4000 * n) 4 8 .rwt 24 (.domain n)
def ETH_PTP_CFG_TWO_STEP (n : Nat) : Field := fld (0x90020 + 0x4000 * n) 12 1 .rwt 0 .any
def ETH_PTP_CFG_TRK (n : Nat) : Field := fld (0x90020 + 0x4000 * n) 13 3 .rwt 0 .any
def ETH_PTP_CFG_TRK_EN (n : Nat) : Field := fld (0x90020 + 0x4000 * n) 16 1 .rwt 0 .any
def ETH_PTP_CFG_LEAP_FOLLOW (n : Nat) : Field := fld (0x90020 + 0x4000 * n) 17 1 .rwt 0 .any
def ETH_PTP_CFG_ENCAP (n : Nat) : Field := fld (0x90020 + 0x4000 * n) 18 2 .rwt 0 (.encap n)
def ETH_PTP_CFG_DAVG_LOG2 (n : Nat) : Field := fld (0x90020 + 0x4000 * n) 20 3 .rwt 3 .any
def ETH_PTP_CFG_LOCAL_PRIO (n : Nat) : Field := fld (0x90020 + 0x4000 * n) 23 8 .rwt 128 (.range 1 255)
def ETH_PTP_RATE_LOG_SYNC (n : Nat) : Field := fld (0x90024 + 0x4000 * n) 0 4 .rwt 12 (.srange 4 (-7) 1)
def ETH_PTP_RATE_LOG_DREQ (n : Nat) : Field := fld (0x90024 + 0x4000 * n) 4 4 .rwt 12 (.srange 4 (-7) 1)
def ETH_PTP_RATE_LOG_ANN (n : Nat) : Field := fld (0x90024 + 0x4000 * n) 8 4 .rwt 13 (.srange 4 (-3) 3)
def ETH_PTP_RATE_RESP_WAIT_MS (n : Nat) : Field := fld (0x90024 + 0x4000 * n) 12 8 .rwt 10 (.range 1 255)
def ETH_PTP_RATE_ANN_TMO (n : Nat) : Field := fld (0x90024 + 0x4000 * n) 20 4 .rwt 3 (.range 2 10)
def ETH_AUTH_EN (n : Nat) : Field := fld (0x90028 + 0x4000 * n) 0 1 .rwt 0 .any
def ETH_AUTH_REQUIRE (n : Nat) : Field := fld (0x90028 + 0x4000 * n) 1 1 .rwt 0 (.authReq n)
def ETH_AUTH_SPP (n : Nat) : Field := fld (0x90028 + 0x4000 * n) 2 8 .rwt 0 .any
def ETH_PORT_STATE_STATE (n : Nat) : Field := fld (0x9002c + 0x4000 * n) 0 4 .ro 3 .any
def ETH_PORT_STATE_PARENT_DISTRUST (n : Nat) : Field := fld (0x9002c + 0x4000 * n) 4 1 .ro 0 .any
def ETH_OFFSET_PS_OFFSET (n : Nat) : Field := fld (0x90030 + 0x4000 * n) 0 32 .ro 0 .any
def ETH_PATH_PS_DELAY (n : Nat) : Field := fld (0x90034 + 0x4000 * n) 0 32 .ro 0 .any
def ETH_PARENT_LO_ID_LO (n : Nat) : Field := fld (0x90038 + 0x4000 * n) 0 32 .ro 0 .any
def ETH_PARENT_HI_ID_HI (n : Nat) : Field := fld (0x9003c + 0x4000 * n) 0 32 .ro 0 .any
def ETH_PARENT_INFO_GM_CLASS (n : Nat) : Field := fld (0x90040 + 0x4000 * n) 0 8 .ro 0 .any
def ETH_PARENT_INFO_STEPS (n : Nat) : Field := fld (0x90040 + 0x4000 * n) 8 8 .ro 0 .any
def ETH_PARENT_INFO_PORT_NO (n : Nat) : Field := fld (0x90040 + 0x4000 * n) 16 16 .ro 0 .any
def ETH_ESMC_CFG_ESMC_TX (n : Nat) : Field := fld (0x90050 + 0x4000 * n) 0 1 .rwt 0 .any
def ETH_ESMC_CFG_EXT_TLV (n : Nat) : Field := fld (0x90050 + 0x4000 * n) 1 1 .rwt 1 .any
def ETH_ESMC_CFG_OVR_EN (n : Nat) : Field := fld (0x90050 + 0x4000 * n) 2 1 .rwt 0 .any
def ETH_ESMC_CFG_OVR_SSM (n : Nat) : Field := fld (0x90050 + 0x4000 * n) 3 4 .rwt 15 .any
def ETH_ESMC_CFG_OVR_ESSM (n : Nat) : Field := fld (0x90050 + 0x4000 * n) 7 8 .rwt 255 .any
def ETH_ESMC_STAT_SSM_RX (n : Nat) : Field := fld (0x90054 + 0x4000 * n) 0 4 .ro 15 .any
def ETH_ESMC_STAT_ESSM_RX (n : Nat) : Field := fld (0x90054 + 0x4000 * n) 4 8 .ro 255 .any
def ETH_ESMC_STAT_SSM_TX (n : Nat) : Field := fld (0x90054 + 0x4000 * n) 12 4 .ro 11 .any
def ETH_ESMC_STAT_ESSM_TX (n : Nat) : Field := fld (0x90054 + 0x4000 * n) 16 8 .ro 255 .any
def ETH_HOST_CFG_RX_DMA (n : Nat) : Field := fld (0x90060 + 0x4000 * n) 0 4 .rwt 0 .any
def ETH_HOST_CFG_TX_DMA (n : Nat) : Field := fld (0x90060 + 0x4000 * n) 4 4 .rwt 1 .any
def ETH_HOST_CFG_RX_EN (n : Nat) : Field := fld (0x90060 + 0x4000 * n) 8 1 .rwt 0 .any
def ETH_HOST_CFG_TX_EN (n : Nat) : Field := fld (0x90060 + 0x4000 * n) 9 1 .rwt 0 .any
def ETH_HOST_CFG_RATE_MBPS (n : Nat) : Field := fld (0x90060 + 0x4000 * n) 10 7 .rwt 100 (.range 1 100)
def ETH_MAC_LO_MAC_LO (n : Nat) : Field := fld (0x90064 + 0x4000 * n) 0 32 .rwt 0 .any
def ETH_MAC_HI_MAC_HI (n : Nat) : Field := fld (0x90068 + 0x4000 * n) 0 16 .rwt 0 .any
def ETH_COUNTS_A_AUTH_FAIL_CNT (n : Nat) : Field := fld (0x9006c + 0x4000 * n) 0 16 .ro 0 .any
def ETH_COUNTS_A_GEN_DISCARD_CNT (n : Nat) : Field := fld (0x9006c + 0x4000 * n) 16 16 .ro 0 .any
def ETH_COUNTS_B_LATE_MEAS (n : Nat) : Field := fld (0x90070 + 0x4000 * n) 0 10 .ro 0 .any
def ETH_COUNTS_B_UNSUPP_CNT (n : Nat) : Field := fld (0x90070 + 0x4000 * n) 10 10 .ro 0 .any
def ETH_COUNTS_B_HOST_DROP_CNT (n : Nat) : Field := fld (0x90070 + 0x4000 * n) 20 12 .ro 0 .any
def ETH_IRQ_EN_EN (n : Nat) : Field := fld (0x90080 + 0x4000 * n) 0 8 .rw 0 .any
def ETH_IRQ_STAT_LINK (n : Nat) : Field := fld (0x90084 + 0x4000 * n) 0 1 .w1c 0 .any
def ETH_IRQ_STAT_PORT_STATE (n : Nat) : Field := fld (0x90084 + 0x4000 * n) 1 1 .w1c 0 .any
def ETH_IRQ_STAT_PARENT (n : Nat) : Field := fld (0x90084 + 0x4000 * n) 2 1 .w1c 0 .any
def ETH_IRQ_STAT_AUTH (n : Nat) : Field := fld (0x90084 + 0x4000 * n) 3 1 .w1c 0 .any
def ETH_IRQ_STAT_GEN (n : Nat) : Field := fld (0x90084 + 0x4000 * n) 4 1 .w1c 0 .any
def ETH_IRQ_STAT_QL (n : Nat) : Field := fld (0x90084 + 0x4000 * n) 5 1 .w1c 0 .any
def ETH_IRQ_STAT_HOST_DROP (n : Nat) : Field := fld (0x90084 + 0x4000 * n) 6 1 .w1c 0 .any
def ETH_IRQ_STAT_PROFILE_CONFLICT (n : Nat) : Field := fld (0x90084 + 0x4000 * n) 7 1 .w1c 0 .any
def ETH_CLK_CFG_PRIO1 : Field := fld (0x90200) 0 8 .rwt 128 .any
def ETH_CLK_CFG_PRIO2 : Field := fld (0x90200) 8 8 .rwt 128 .any
def ETH_CLK_CFG_TIME_SOURCE : Field := fld (0x90200) 16 8 .rwt 160 .any
def ETH_CLK_CFG_SLAVE_ONLY : Field := fld (0x90200) 24 1 .rwt 0 .any
def ETH_CLK_CFG_QL_MIN : Field := fld (0x90200) 25 2 .rwt 3 .any
def ETH_CLK_ID_LO_ID_LO : Field := fld (0x90204) 0 32 .ro 0 .any
def ETH_CLK_ID_HI_ID_HI : Field := fld (0x90208) 0 32 .ro 0 .any
def KEEL_VER_ROM_ROM_VER : Field := fld (0xa0000) 0 8 .ro 4 .any
def KEEL_VER_PATCH_PATCH_VER : Field := fld (0xa0004) 0 32 .ro 0 .any
def KEEL_PATCH_SEQ_ARB_SEQ : Field := fld (0xa0008) 0 32 .ro 0 .any
def KEEL_STATUS_STAGE : Field := fld (0xa000c) 0 2 .ro 0 .any
def KEEL_STATUS_REJECT : Field := fld (0xa000c) 2 4 .ro 0 .any
def KEEL_STATUS_INSTALLED : Field := fld (0xa000c) 6 1 .ro 0 .any
def KEEL_STATUS_MATCH_EN : Field := fld (0xa000c) 7 7 .ro 0 .any
def KEEL_STATUS_STACK_MAX : Field := fld (0xa000c) 14 4 .ro 0 .any
def KEEL_STATUS_RESTARTED : Field := fld (0xa000c) 18 1 .w1c 0 .any
def KEEL_STATUS_PATCH_ERR : Field := fld (0xa000c) 19 1 .w1c 0 .any
def KEEL_STATUS_STACK_CLR : Field := fld (0xa000c) 20 1 .wo 0 .any
def KEEL_PLOAD_ADDR_ADDR : Field := fld (0xa0010) 0 32 .rw 30408704 (.ploadAddr)
def KEEL_PLOAD_LEN_LEN : Field := fld (0xa0014) 0 20 .rw 64 (.range 64 1048575)
def KEEL_PCTRL_LOAD : Field := fld (0xa0018) 0 1 .wo 0 .any
def KEEL_PCTRL_INSTALL : Field := fld (0xa0018) 1 1 .wo 0 .any
def KEEL_PCTRL_ACCEPT : Field := fld (0xa0018) 2 1 .wo 0 .any
def KEEL_PCTRL_CLEAR : Field := fld (0xa0018) 3 1 .wo 0 .any
def KEEL_LOAD_LOAD_PM : Field := fld (0xa0020) 0 10 .ro 0 .any
def KEEL_LOAD_PEAK_PM : Field := fld (0xa0020) 16 10 .ro 0 .any
def KEEL_LOAD_CLEAR : Field := fld (0xa0020) 31 1 .wo 0 .any
def KEEL_COUNTS_TRAP_CNT : Field := fld (0xa0024) 0 16 .ro 0 .any
def KEEL_COUNTS_RESTART_CNT : Field := fld (0xa0024) 16 16 .ro 0 .any
def KEEL_FAULT_UPC : Field := fld (0xa0028) 0 17 .ro 0 .any
def KEEL_FAULT_CAUSE : Field := fld (0xa0028) 17 3 .ro 0 .any
def KEEL_FAULT_CLASS : Field := fld (0xa0028) 20 3 .ro 0 .any
def KEEL_CFG_DB_IDX : Field := fld (0xa002c) 0 6 .rw 62 (.range 0 62)
def KEEL_CFG_DB_EN : Field := fld (0xa002c) 6 1 .rw 1 .any
def KEEL_PRAM_ADDR_INDEX : Field := fld (0xa0040) 0 13 .rw 0 (.range 0 4351)
def KEEL_PRAM_DATA_DATA (n : Nat) : Field := fld (0xa0050 + 0x4 * n) 0 32 .ro 0 .any
def KEEL_MATCH_ROM_ADDR (n : Nat) : Field := fld (0xa0100 + 0x4 * n) 0 16 .ro 0 .any
def KEEL_MATCH_TARGET (n : Nat) : Field := fld (0xa0100 + 0x4 * n) 16 12 .ro 0 .any
def KEEL_MATCH_EN (n : Nat) : Field := fld (0xa0100 + 0x4 * n) 31 1 .ro 0 .any
/-- R395, R409: the SRC registers of reserved sources and of source 1,023 read 0, and writes to them are discarded. -/
def srcNone (n : Nat) : Bool := (decide (381 ≤ n) && decide (n ≤ 959)) || n == 1023
def srcClamp (n : Nat) (c : Clamp) : Clamp := if srcNone n then .range 0 0 else c
def IRQ_SRC_CFG_PRIO (n : Nat) : Field := fld (0xb0000 + 0x4 * n) 0 4 .rwt (if srcNone n then 0 else 15) (srcClamp n .any)
def IRQ_SRC_CFG_TARGET (n : Nat) : Field := fld (0xb0000 + 0x4 * n) 4 4 .rwt 0 (srcClamp n (.range 0 10))
def IRQ_SRC_CFG_EN (n : Nat) : Field := fld (0xb0000 + 0x4 * n) 8 1 .rw 0 (srcClamp n .any)
def IRQ_SRC_CFG_SENSE (n : Nat) : Field :=
  fld (0xb0000 + 0x4 * n) 9 1 .rwt (if 960 ≤ n ∧ n ≤ 1022 then 1 else 0) (srcClamp n (if 960 ≤ n ∧ n ≤ 1022 then .range 1 1 else .any))
def IRQ_SRC_CFG_WAKE (n : Nat) : Field := fld (0xb0000 + 0x4 * n) 10 1 .rwt 0 (srcClamp n .any)
def IRQ_SRC_CFG_VEC (n : Nat) : Field := fld (0xb0000 + 0x4 * n) 11 5 .rwt 0 (srcClamp n .any)
def IRQ_PEND_PEND (n : Nat) : Field := fld (0xb1000 + 0x4 * n) 0 32 .w1c 0 .any
def IRQ_T_CTRL_EN (n : Nat) : Field := fld (0xb2000 + 0x40 * n) 0 1 .rw 0 .any
def IRQ_T_CTRL_MSIX (n : Nat) : Field := fld (0xb2000 + 0x40 * n) 1 1 .rw 0 (if n = 0 then .any else .range 0 0)
def IRQ_T_ACK_SOURCE (n : Nat) : Field := fld (0xb2004 + 0x40 * n) 0 10 .ro 1023 .any
def IRQ_T_ACK_PRIO (n : Nat) : Field := fld (0xb2004 + 0x40 * n) 10 4 .ro 0 .any
def IRQ_T_EOI_EOI (n : Nat) : Field := fld (0xb2008 + 0x40 * n) 0 32 .wo 0 .any
def IRQ_T_STATUS_CAND (n : Nat) : Field := fld (0xb200c + 0x40 * n) 0 10 .ro 1023 .any
def IRQ_T_STATUS_DEPTH (n : Nat) : Field := fld (0xb200c + 0x40 * n) 10 5 .ro 0 .any
def IRQ_T_STATUS_RUNPRI (n : Nat) : Field := fld (0xb200c + 0x40 * n) 15 5 .ro 16 .any
def IRQ_T_STATUS_WAKE (n : Nat) : Field := fld (0xb200c + 0x40 * n) 20 1 .ro 0 .any
def IRQ_T_COUNTS_SPURIOUS_CNT (n : Nat) : Field := fld (0xb2010 + 0x40 * n) 0 16 .ro 0 .any
def IRQ_T_COUNTS_EOI_EMPTY_CNT (n : Nat) : Field := fld (0xb2010 + 0x40 * n) 16 16 .ro 0 .any
def IRQ_DB_RING_INDEX : Field := fld (0xb3000) 0 6 .wo 0 (.range 0 62)
def IRQ_DB_RING_DATUM : Field := fld (0xb3000) 16 16 .wo 0 .any
def IRQ_DB_COUNTS_OVR_CNT : Field := fld (0xb3004) 0 16 .ro 0 .any
def IRQ_DB_COUNTS_DENIED_CNT : Field := fld (0xb3004) 16 16 .ro 0 .any
def IRQ_DB_DATA_DATUM (n : Nat) : Field := fld (0xb3100 + 0x4 * n) 0 16 .ro 0 .any
def IRQ_DB_DATA_RINGER (n : Nat) : Field := fld (0xb3100 + 0x4 * n) 16 4 .ro 0 .any
def DMA_ACTIVE_ACTIVE : Field := fld (0xc0000) 0 16 .ro 0 .any
def DMA_CFG_PACE (n : Nat) : Field := fld (0xc0100 + 0x40 * n) 0 2 .rwt 0 .any
def DMA_CFG_LSRC (n : Nat) : Field := fld (0xc0100 + 0x40 * n) 2 9 .rwt 0 (.range 0 367)
def DMA_CFG_ON (n : Nat) : Field := fld (0xc0100 + 0x40 * n) 11 5 .rwt 1 (.range 1 16)
def DMA_CFG_OFF (n : Nat) : Field := fld (0xc0100 + 0x40 * n) 16 5 .rwt 0 (.dmaOff n)
def DMA_CFG_EV_CH (n : Nat) : Field := fld (0xc0100 + 0x40 * n) 21 1 .rwt 0 .any
def DMA_CFG_EV_CHAIN (n : Nat) : Field := fld (0xc0100 + 0x40 * n) 22 1 .rwt 0 .any
def DMA_CFG_CHAIN_SRC (n : Nat) : Field := fld (0xc0100 + 0x40 * n) 23 4 .rwt 0 .any
def DMA_CFG_PRIO (n : Nat) : Field := fld (0xc0100 + 0x40 * n) 27 2 .rwt 3 .any
def DMA_BURST_BYTES (n : Nat) : Field := fld (0xc0104 + 0x40 * n) 0 7 .rwt 64 (.step 4 4 64)
def DMA_DESC_ADDR (n : Nat) : Field := fld (0xc0108 + 0x40 * n) 0 32 .rw 30408704 (.step 32 0x01D00000 0x01FFFFE0)
def DMA_CTRL_START (n : Nat) : Field := fld (0xc010c + 0x40 * n) 0 1 .wo 0 .any
def DMA_CTRL_STOP (n : Nat) : Field := fld (0xc010c + 0x40 * n) 1 1 .wo 0 .any
def DMA_CTRL_COUNT_CLEAR (n : Nat) : Field := fld (0xc010c + 0x40 * n) 2 1 .wo 0 .any
def DMA_STATUS_STATE (n : Nat) : Field := fld (0xc0110 + 0x40 * n) 0 3 .ro 0 .any
def DMA_STATUS_GEN (n : Nat) : Field := fld (0xc0110 + 0x40 * n) 3 4 .ro 0 .any
def DMA_STATUS_LAST_RESULT (n : Nat) : Field := fld (0xc0110 + 0x40 * n) 7 3 .ro 0 .any
def DMA_STATUS_REQ (n : Nat) : Field := fld (0xc0110 + 0x40 * n) 10 1 .ro 0 .any
def DMA_STATUS_EV_COUNT (n : Nat) : Field := fld (0xc0110 + 0x40 * n) 11 8 .ro 0 .any
def DMA_STATUS_RESET (n : Nat) : Field := fld (0xc0110 + 0x40 * n) 19 1 .w1c 0 .any
def DMA_CUR_ADDR (n : Nat) : Field := fld (0xc0114 + 0x40 * n) 0 32 .ro 0 .any
def DMA_DONE_BYTES_BYTES (n : Nat) : Field := fld (0xc0118 + 0x40 * n) 0 24 .ro 0 .any
def DMA_COUNTS_A_DESC_CNT (n : Nat) : Field := fld (0xc011c + 0x40 * n) 0 16 .ro 0 .any
def DMA_COUNTS_A_ERR_CNT (n : Nat) : Field := fld (0xc011c + 0x40 * n) 16 16 .ro 0 .any
def DMA_COUNTS_B_EV_OVF_CNT (n : Nat) : Field := fld (0xc0120 + 0x40 * n) 0 16 .ro 0 .any
def DMA_COUNTS_B_LATE_CNT (n : Nat) : Field := fld (0xc0120 + 0x40 * n) 16 16 .ro 0 .any
def DMA_IRQ_EN_EN (n : Nat) : Field := fld (0xc0124 + 0x40 * n) 0 5 .rw 0 .any
def DMA_IRQ_STAT_DONE (n : Nat) : Field := fld (0xc0128 + 0x40 * n) 0 1 .w1c 0 .any
def DMA_IRQ_STAT_CHAIN_END (n : Nat) : Field := fld (0xc0128 + 0x40 * n) 1 1 .w1c 0 .any
def DMA_IRQ_STAT_ERR (n : Nat) : Field := fld (0xc0128 + 0x40 * n) 2 1 .w1c 0 .any
def DMA_IRQ_STAT_CHK_FAIL (n : Nat) : Field := fld (0xc0128 + 0x40 * n) 3 1 .w1c 0 .any
def DMA_IRQ_STAT_EV_OVF (n : Nat) : Field := fld (0xc0128 + 0x40 * n) 4 1 .w1c 0 .any
def CHK_CFG_CODE (n : Nat) : Field := fld (0xd0000 + 0x40 * n) 0 2 .rw 1 .any
def CHK_CTRL_GO (n : Nat) : Field := fld (0xd0004 + 0x40 * n) 0 1 .wo 0 .any
def CHK_CTRL_INIT (n : Nat) : Field := fld (0xd0004 + 0x40 * n) 1 1 .wo 0 .any
def CHK_SCAN_ADDR_ADDR (n : Nat) : Field := fld (0xd0008 + 0x40 * n) 0 32 .rw 30408704 .any
def CHK_SCAN_LEN_LEN (n : Nat) : Field := fld (0xd000c + 0x40 * n) 0 24 .rw 1 (.range 1 16777215)
def CHK_VALUE_VALUE (n : Nat) : Field := fld (0xd0010 + 0x40 * n) 0 32 .rw 0 .any
def CHK_RESULT_RESULT (n : Nat) : Field := fld (0xd0014 + 0x40 * n) 0 32 .ro 0 .any
def CHK_STATUS_BUSY (n : Nat) : Field := fld (0xd0018 + 0x40 * n) 0 1 .ro 0 .any
def CHK_STATUS_OWNER_DMA (n : Nat) : Field := fld (0xd0018 + 0x40 * n) 1 1 .ro 0 .any
def CHK_STATUS_OWNER (n : Nat) : Field := fld (0xd0018 + 0x40 * n) 2 4 .ro 0 .any
def CHK_STATUS_RESIDUE_OK (n : Nat) : Field := fld (0xd0018 + 0x40 * n) 6 1 .ro 0 .any
def CHK_STATUS_LAST_FAIL (n : Nat) : Field := fld (0xd0018 + 0x40 * n) 7 1 .w1c 0 .any
def CHK_COUNTS_FAIL_CNT (n : Nat) : Field := fld (0xd001c + 0x40 * n) 0 16 .ro 0 .any
def CHK_COUNTS_REFUSED_CNT (n : Nat) : Field := fld (0xd001c + 0x40 * n) 16 16 .ro 0 .any
def CHK_IRQ_EN_EN (n : Nat) : Field := fld (0xd0020 + 0x40 * n) 0 3 .rw 0 .any
def CHK_IRQ_STAT_SCAN_DONE (n : Nat) : Field := fld (0xd0024 + 0x40 * n) 0 1 .w1c 0 .any
def CHK_IRQ_STAT_FAIL (n : Nat) : Field := fld (0xd0024 + 0x40 * n) 1 1 .w1c 0 .any
def CHK_IRQ_STAT_REFUSED (n : Nat) : Field := fld (0xd0024 + 0x40 * n) 2 1 .w1c 0 .any
def MEM_CTRL_SCRUB_EN : Field := fld (0xe0000) 0 1 .rw 1 .any
def MEM_CTRL_MOORED_SR : Field := fld (0xe0000) 1 1 .rw 1 .any
def MEM_CTRL_TRAIN : Field := fld (0xe0000) 2 1 .wo 0 .any
def MEM_SCRUB_INTERVAL : Field := fld (0xe0004) 0 16 .rw 256 (.range 16 65535)
def MEM_BUSY_PCIE : Field := fld (0xe0008) 0 1 .w1c 0 .any
def MEM_BUSY_SPI : Field := fld (0xe0008) 1 1 .w1c 0 .any
def MEM_BUSY_I2C : Field := fld (0xe0008) 2 1 .w1c 0 .any
def MEM_BUSY_DMA : Field := fld (0xe0008) 3 1 .w1c 0 .any
def MEM_BUSY_KEEL : Field := fld (0xe0008) 4 1 .w1c 0 .any
def MEM_BUSY_TRUST : Field := fld (0xe0008) 5 1 .w1c 0 .any
def MEM_BUSY_ETH : Field := fld (0xe0008) 6 1 .w1c 0 .any
def MEM_BUSY_CREW : Field := fld (0xe0008) 7 1 .w1c 0 .any
def MEM_BUSY_CE : Field := fld (0xe0008) 8 8 .w1c 0 .any
def MEM_COLL_COLL_CNT : Field := fld (0xe0010) 0 16 .ro 0 .any
def MEM_COLL_BANK : Field := fld (0xe0010) 16 4 .ro 0 .any
def MEM_COLL_PORT_A : Field := fld (0xe0010) 20 2 .ro 0 .any
def MEM_COLL_PORT_B : Field := fld (0xe0010) 22 2 .ro 0 .any
def MEM_COLL_WW : Field := fld (0xe0010) 24 1 .ro 0 .any
def MEM_COLL_ADDR_ADDR : Field := fld (0xe0014) 0 32 .ro 0 .any
def MEM_SRAM_ECC_CE_CNT : Field := fld (0xe0018) 0 16 .ro 0 .any
def MEM_SRAM_ECC_UE_CNT : Field := fld (0xe0018) 16 16 .ro 0 .any
def MEM_SRAM_UE_ADDR_ADDR : Field := fld (0xe001c) 0 32 .ro 0 .any
def MEM_DRAM_CFG_DENSITY : Field := fld (0xe0020) 0 2 .rw 2 (.range 0 2)
def MEM_DRAM_CFG_ECC_EN : Field := fld (0xe0020) 2 1 .rw 1 .any
def MEM_DRAM_CFG_RATE : Field := fld (0xe0020) 3 2 .rw 0 (.range 0 2)
def MEM_DRAM_CAP_CAP_MIB : Field := fld (0xe0024) 0 12 .ro 0 .any
def MEM_DRAM_STAT_TRAINED : Field := fld (0xe0028) 0 1 .ro 0 .any
def MEM_DRAM_STAT_DERATE : Field := fld (0xe0028) 1 1 .ro 0 .any
def MEM_DRAM_STAT_CLEAR : Field := fld (0xe0028) 2 1 .wo 0 .any
def MEM_DRAM_STAT_MAXLAT_NS : Field := fld (0xe0028) 16 16 .ro 0 .any
def MEM_DRAM_ECC_CE_CNT : Field := fld (0xe0030) 0 16 .ro 0 .any
def MEM_DRAM_ECC_UE_CNT : Field := fld (0xe0030) 16 16 .ro 0 .any
def MEM_DRAM_UE_ADDR_ADDR : Field := fld (0xe0034) 0 32 .ro 0 .any
def MEM_SLOT_DENY_SLOT_DENY_CNT : Field := fld (0xe0038) 0 16 .ro 0 .any
def MEM_IRQ_EN_EN : Field := fld (0xe003c) 0 7 .rw 0 .any
def MEM_IRQ_STAT_COLL : Field := fld (0xe0040) 0 1 .w1c 0 .any
def MEM_IRQ_STAT_SRAM_CE : Field := fld (0xe0040) 1 1 .w1c 0 .any
def MEM_IRQ_STAT_SRAM_UE : Field := fld (0xe0040) 2 1 .w1c 0 .any
def MEM_IRQ_STAT_DRAM_CE : Field := fld (0xe0040) 3 1 .w1c 0 .any
def MEM_IRQ_STAT_DRAM_UE : Field := fld (0xe0040) 4 1 .w1c 0 .any
def MEM_IRQ_STAT_SLOT_DENY : Field := fld (0xe0040) 5 1 .w1c 0 .any
def MEM_IRQ_STAT_DERATE : Field := fld (0xe0040) 6 1 .w1c 0 .any
def HOST_PCIE_STAT_LINK_UP : Field := fld (0xf0000) 0 1 .ro 0 .any
def HOST_PCIE_STAT_SPEED : Field := fld (0xf0000) 1 3 .ro 0 .any
def HOST_PCIE_STAT_WIDTH : Field := fld (0xf0000) 4 3 .ro 0 .any
def HOST_PCIE_STAT_BME : Field := fld (0xf0000) 7 1 .ro 0 .any
def HOST_PCIE_STAT_MSIX_EN : Field := fld (0xf0000) 8 1 .ro 0 .any
def HOST_PCIE_STAT_FUNC_MASK : Field := fld (0xf0000) 9 1 .ro 0 .any
def HOST_PCIE_CFG_MAX_SPEED : Field := fld (0xf0004) 0 3 .rw 4 (.range 1 4)
def HOST_PCIE_CFG_L1_EN : Field := fld (0xf0004) 3 1 .rw 1 .any
def HOST_ACC_ERR_BADSIZE_CNT (n : Nat) : Field := fld (0xf0010 + 0x4 * n) 0 16 .ro 0 .any
def HOST_ACC_ERR_UNMAPPED_CNT (n : Nat) : Field := fld (0xf0010 + 0x4 * n) 16 16 .ro 0 .any
def HOST_SPI_CFG_DUMMY : Field := fld (0xf0020) 0 5 .rw 4 (.range 1 16)
def HOST_SPI_STAT_LATE_CNT : Field := fld (0xf0024) 0 16 .ro 0 .any
def HOST_SPI_STAT_PARTIAL_CNT : Field := fld (0xf0024) 16 16 .ro 0 .any
def HOST_I2C_CFG_ADDR : Field := fld (0xf0030) 0 7 .rw 92 (.range 8 119)
def HOST_I2C_CFG_PEC_EN : Field := fld (0xf0030) 7 1 .rw 0 .any
def HOST_I2C_STAT_PEC_ERR_CNT : Field := fld (0xf0034) 0 16 .ro 0 .any
def HOST_I2C_STAT_TIMEOUT_CNT : Field := fld (0xf0034) 16 16 .ro 0 .any
def HOST_QSPI_CFG_DIV : Field := fld (0xf0040) 0 11 .rw 80 (.range 15 2000)
def HOST_QSPI_CMD_OPCODE : Field := fld (0xf0044) 0 8 .rw 0 .any
def HOST_QSPI_CMD_LANES : Field := fld (0xf0044) 8 2 .rw 0 (.range 0 2)
def HOST_QSPI_CMD_ADDR_BYTES : Field := fld (0xf0044) 10 2 .rw 0 (.range 0 2)
def HOST_QSPI_CMD_DUMMY : Field := fld (0xf0044) 12 5 .rw 0 .any
def HOST_QSPI_CMD_DIR : Field := fld (0xf0044) 17 1 .rw 0 .any
def HOST_QSPI_CMD_LEN : Field := fld (0xf0044) 18 9 .rw 0 (.range 0 256)
def HOST_QSPI_CMD_GO : Field := fld (0xf0044) 31 1 .wo 0 .any
def HOST_QSPI_ADDR_ADDR : Field := fld (0xf0048) 0 32 .rw 0 .any
def HOST_QSPI_STAT_BUSY : Field := fld (0xf004c) 0 1 .ro 0 .any
def HOST_QSPI_STAT_DISCARD_CNT : Field := fld (0xf004c) 16 16 .ro 0 .any
def HOST_UART_CFG_BAUD : Field := fld (0xf0060) 0 22 .rw 115200 (.range 9600 3000000)
def HOST_UART_CFG_KEEL_LOG : Field := fld (0xf0060) 22 1 .rw 1 .any
def HOST_UART_DATA_BYTE : Field := fld (0xf0064) 0 8 .rw 0 .any
def HOST_UART_DATA_VALID : Field := fld (0xf0064) 8 1 .ro 0 .any
def HOST_UART_STAT_TX_LEVEL : Field := fld (0xf0068) 0 5 .ro 0 .any
def HOST_UART_STAT_RX_LEVEL : Field := fld (0xf0068) 5 5 .ro 0 .any
def HOST_UART_STAT_TX_DROP_CNT : Field := fld (0xf0068) 16 8 .ro 0 .any
def HOST_UART_STAT_RX_OVR_CNT : Field := fld (0xf0068) 24 8 .ro 0 .any
def HOST_MSIX_ADDR_LO_ADDR_LO (n : Nat) : Field := fld (0xf0800 + 0x10 * n) 0 32 .rw 0 (.step 4 0 0xFFFFFFFC)
def HOST_MSIX_ADDR_HI_ADDR_HI (n : Nat) : Field := fld (0xf0804 + 0x10 * n) 0 32 .rw 0 .any
def HOST_MSIX_DATA_DATA (n : Nat) : Field := fld (0xf0808 + 0x10 * n) 0 32 .rw 0 .any
def HOST_MSIX_VCTRL_MASK (n : Nat) : Field := fld (0xf080c + 0x10 * n) 0 1 .rw 1 .any
def HOST_MSIX_PBA_PEND : Field := fld (0xf0a00) 0 32 .ro 0 .any
def TRUST_STATUS_LC : Field := fld (0x110000) 0 3 .ro 0 .any
def TRUST_STATUS_GOOD : Field := fld (0x110000) 3 1 .ro 0 .any
def TRUST_STATUS_BUSY : Field := fld (0x110000) 4 1 .ro 0 .any
def TRUST_STATUS_BH_PERMIT : Field := fld (0x110000) 5 1 .ro 0 .any
def TRUST_STATUS_LC_REPAIR : Field := fld (0x110000) 6 1 .ro 0 .any
def TRUST_STATUS_KS_ERR : Field := fld (0x110000) 7 1 .ro 0 .any
def TRUST_SERIAL_LO_LO : Field := fld (0x110004) 0 32 .ro 0 .any
def TRUST_SERIAL_HI_HI : Field := fld (0x110008) 0 32 .ro 0 .any
def TRUST_CMD_OP : Field := fld (0x110010) 0 3 .wo 0 .any
def TRUST_ARG_ADDR_ADDR : Field := fld (0x110014) 0 32 .rw 30408704 (.step 4 0x01D00000 0x01EFFFFC)
def TRUST_ARG_LEN_LEN : Field := fld (0x110018) 0 16 .rw 32 (.step 4 4 65532)
def TRUST_RESULT_CODE : Field := fld (0x11001c) 0 4 .ro 0 .any
def TRUST_RESULT_OUT_LEN : Field := fld (0x11001c) 4 16 .ro 0 .any
def TRUST_POLICY_MIN_ALG : Field := fld (0x110020) 0 2 .ro 0 (.range 0 2)
def TRUST_POLICY_ENDORSE : Field := fld (0x110020) 2 1 .ro 0 .any
def TRUST_POLICY_CREW_LOCK : Field := fld (0x110020) 3 1 .ro 0 .any
def TRUST_KEYSLOT_STATE (n : Nat) : Field := fld (0x110030 + 0x4 * n) 0 2 .ro 0 .any
def TRUST_KEYSLOT_ALGS (n : Nat) : Field := fld (0x110030 + 0x4 * n) 2 2 .ro 0 .any
def TRUST_COUNTER_RIG_VALUE : Field := fld (0x110040) 0 32 .ro 0 .any
def TRUST_COUNTER_PATCH_VALUE : Field := fld (0x110044) 0 32 .ro 0 .any
def TRUST_COUNTER_TOKEN_VALUE : Field := fld (0x110048) 0 32 .ro 0 .any
def TRUST_KEYINFO_CREW_KEY : Field := fld (0x11004c) 0 1 .ro 0 .any
def TRUST_KEYINFO_SA_COUNT : Field := fld (0x11004c) 1 7 .ro 0 .any
def TRUST_TAMP_CFG_EN (n : Nat) : Field := fld (0x110050 + 0x4 * n) 0 1 .rw 0 .any
def TRUST_TAMP_CFG_POL (n : Nat) : Field := fld (0x110050 + 0x4 * n) 1 1 .rw 0 .any
def TRUST_TAMP_CFG_RESPONSE (n : Nat) : Field := fld (0x110050 + 0x4 * n) 2 2 .rw 0 (.range 0 2)
def TRUST_TAMP_CFG_DEBOUNCE (n : Nat) : Field := fld (0x110050 + 0x4 * n) 4 16 .rw 10 (.range 1 65535)
def TRUST_TAMP_STAT_LATCH : Field := fld (0x110070) 0 6 .ro 0 .any
def TRUST_CFG_DB_IDX : Field := fld (0x110080) 0 6 .rw 61 (.range 0 62)
def TRUST_CFG_DB_EN : Field := fld (0x110080) 6 1 .rw 0 .any
def TRUST_IRQ_EN_EN : Field := fld (0x110084) 0 6 .rw 0 .any
def TRUST_IRQ_STAT_CMD_DONE : Field := fld (0x110088) 0 1 .w1c 0 .any
def TRUST_IRQ_STAT_LC : Field := fld (0x110088) 1 1 .w1c 0 .any
def TRUST_IRQ_STAT_QUAR : Field := fld (0x110088) 2 1 .w1c 0 .any
def TRUST_IRQ_STAT_AUTH : Field := fld (0x110088) 3 1 .w1c 0 .any
def TRUST_IRQ_STAT_KS_ERR : Field := fld (0x110088) 4 1 .w1c 0 .any
def TRUST_IRQ_STAT_LC_REPAIR : Field := fld (0x110088) 5 1 .w1c 0 .any
def TRUST_SA_ID_KEYID (n : Nat) : Field := fld (0x110100 + 0x8 * n) 0 32 .ro 0 .any
def TRUST_SA_INFO_SPP (n : Nat) : Field := fld (0x110104 + 0x8 * n) 0 8 .ro 0 .any
def TRUST_SA_INFO_VALID (n : Nat) : Field := fld (0x110104 + 0x8 * n) 8 1 .ro 0 .any
def LOG_STATUS_READY : Field := fld (0x120000) 0 1 .ro 0 .any
def LOG_STATUS_WRAPPED : Field := fld (0x120000) 1 1 .ro 0 .any
def LOG_JHEAD_INDEX : Field := fld (0x120004) 0 17 .ro 0 .any
def LOG_JCOUNT_COUNT : Field := fld (0x120008) 0 32 .ro 0 .any
def LOG_RD_ADDR_OFFSET : Field := fld (0x12000c) 0 22 .rw 0 (.step 4 0 0x3FFFFC)
def LOG_RD_DATA_DATA : Field := fld (0x120010) 0 32 .ro 0 .any
def LOG_WEAR_WEAR_PM : Field := fld (0x120014) 0 10 .ro 0 .any
def LOG_IRQ_EN_EN : Field := fld (0x120020) 0 3 .rw 0 .any
def LOG_IRQ_STAT_ENTRY : Field := fld (0x120024) 0 1 .w1c 0 .any
def LOG_IRQ_STAT_CRC_ERR : Field := fld (0x120024) 1 1 .w1c 0 .any
def LOG_IRQ_STAT_WEAR : Field := fld (0x120024) 2 1 .w1c 0 .any
def SKW_CH_CMP_LO_T_LO (n : Nat) : Field := fld (0x160000 + 0x20 * n) 0 32 .rw 0 .any
def SKW_CH_CMP_HI_T_HI (n : Nat) : Field := fld (0x160004 + 0x20 * n) 0 32 .rw 0 .any
def SKW_CH_CTL_ACT (n : Nat) : Field := fld (0x160008 + 0x20 * n) 0 3 .rw 0 (.over 4 0)
def SKW_CH_CTL_IRQ_EN (n : Nat) : Field := fld (0x160008 + 0x20 * n) 3 1 .rw 0 .any
def SKW_CH_CTL_CAP_EDGE (n : Nat) : Field := fld (0x160008 + 0x20 * n) 4 2 .rw 0 .any
def SKW_CH_CTL_GO (n : Nat) : Field := fld (0x160008 + 0x20 * n) 8 1 .wo 0 .any
def SKW_CH_STAT_DONE (n : Nat) : Field := fld (0x16000c + 0x20 * n) 0 1 .ro 0 .any
def SKW_CH_STAT_LATE (n : Nat) : Field := fld (0x16000c + 0x20 * n) 1 1 .ro 0 .any
def SKW_CH_STAT_FULL (n : Nat) : Field := fld (0x16000c + 0x20 * n) 2 1 .ro 0 .any
def SKW_CH_STAT_CAP_VALID (n : Nat) : Field := fld (0x16000c + 0x20 * n) 3 1 .ro 0 .any
def SKW_CH_STAT_LEVEL (n : Nat) : Field := fld (0x16000c + 0x20 * n) 4 1 .ro 0 .any
def SKW_CH_CAP_LO_C_LO (n : Nat) : Field := fld (0x160010 + 0x20 * n) 0 32 .ro 0 .any
def SKW_CH_CAP_HI_C_HI (n : Nat) : Field := fld (0x160014 + 0x20 * n) 0 32 .ro 0 .any
def SKW_ID_ID : Field := fld (0x160800) 0 32 .ro 104867168 .any
def SKW_TIME_LO_T_LO : Field := fld (0x160804) 0 32 .ro 0 .any
def SKW_TIME_HI_T_HI : Field := fld (0x160808) 0 32 .ro 0 .any
def SKW_IRQ_PEND_LO_PEND : Field := fld (0x16080c) 0 32 .w1c 0 .any
def SKW_IRQ_PEND_HI_PEND : Field := fld (0x160810) 0 32 .w1c 0 .any
def SKW_IRQ_VEC_VEC : Field := fld (0x160814) 0 8 .ro 255 .any
def SKW_IRQ_DONE_DONE : Field := fld (0x160818) 0 32 .wo 0 .any
def SKW_CTRL_IRQ_OUT : Field := fld (0x16081c) 0 1 .rw 0 .any
def PWR_MODE_TARGET : Field := fld (0x150000) 0 3 .rwt 2 (.modeTarget)
def PWR_MODE_CUR : Field := fld (0x150000) 3 3 .ro 2 .any
def PWR_MODE_PENDING : Field := fld (0x150000) 6 1 .ro 0 .any
def PWR_MOOR_CFG_WAKE_MODE : Field := fld (0x150004) 0 2 .rw 2 (.range 1 3)
def PWR_MOOR_CFG_PPS_EN : Field := fld (0x150004) 2 1 .rw 1 .any
def PWR_WAKE_CFG_TIMER_EN : Field := fld (0x150008) 0 1 .rw 0 .any
def PWR_WAKE_CFG_PERST_EN : Field := fld (0x150008) 1 1 .rw 1 .any
def PWR_WAKE_CFG_GTIO1_EN : Field := fld (0x150008) 2 1 .rw 0 .any
def PWR_WAKE_CFG_GTIO1_POL : Field := fld (0x150008) 3 1 .rw 0 .any
def PWR_WAKE_AT_LO_SEC_LO : Field := fld (0x15000c) 0 32 .rw 0 .any
def PWR_WAKE_AT_HI_SEC_HI : Field := fld (0x150010) 0 16 .rw 0 .any
def PWR_STATUS_WAKE_WON : Field := fld (0x150014) 0 1 .w1c 0 .any
def PWR_STATUS_DENIED : Field := fld (0x150014) 1 1 .w1c 0 .any
def PWR_STATUS_TRIP : Field := fld (0x150014) 2 1 .w1c 0 .any
def PWR_STATUS_WARN : Field := fld (0x150014) 3 1 .ro 0 .any
def PWR_STATUS_HOT : Field := fld (0x150014) 4 1 .ro 0 .any
def PWR_STATUS_WAKE_SRC : Field := fld (0x150014) 5 3 .ro 0 .any
def PWR_STATUS_WAKE_IRQ : Field := fld (0x150014) 8 10 .ro 0 .any
def PWR_STATUS_TEMP : Field := fld (0x150014) 18 8 .ro 0 .any
def PWR_THERM_WARN_C : Field := fld (0x150018) 0 7 .rw 115 (.range 60 125)
def PWR_THERM_HOT_C : Field := fld (0x150018) 8 7 .rw 122 (.hotC)
def PWR_THERM_STEP_DOWN : Field := fld (0x150018) 16 1 .rw 1 .any
def PWR_COUNTS_DENIED_CNT : Field := fld (0x15001c) 0 16 .ro 0 .any
def PWR_COUNTS_COMMIT_LOSS : Field := fld (0x15001c) 16 16 .ro 0 .any
def PWR_IRQ_EN_EN : Field := fld (0x150020) 0 6 .rw 0 .any
def PWR_IRQ_STAT_MODE : Field := fld (0x150024) 0 1 .w1c 0 .any
def PWR_IRQ_STAT_DENIED : Field := fld (0x150024) 1 1 .w1c 0 .any
def PWR_IRQ_STAT_WAKE_WON : Field := fld (0x150024) 2 1 .w1c 0 .any
def PWR_IRQ_STAT_WARN : Field := fld (0x150024) 3 1 .w1c 0 .any
def PWR_IRQ_STAT_HOT : Field := fld (0x150024) 4 1 .w1c 0 .any
def PWR_IRQ_STAT_TRIP : Field := fld (0x150024) 5 1 .w1c 0 .any
def SYS_RST_CTRL_WARM : Field := fld (0x40) 0 1 .wo 0 .any
def SYS_RST_STATUS_CAUSE : Field := fld (0x44) 0 2 .ro 0 .any
def SYS_RST_STATUS_WARM_BUSY : Field := fld (0x44) 2 1 .ro 0 .any
def SYS_RST_STATUS_INSTALLED : Field := fld (0x44) 3 1 .ro 0 .any
def SYS_BOOT_STATUS_STAGE : Field := fld (0x48) 0 3 .ro 0 .any
def SYS_BOOT_STATUS_STRAP : Field := fld (0x48) 3 2 .ro 0 .any
def SYS_BOOT_STATUS_STRAP2 : Field := fld (0x48) 5 1 .ro 0 .any
def SYS_BOOT_STATUS_DIR_BACKUP : Field := fld (0x48) 6 1 .ro 0 .any
def SYS_BOOT_STATUS_NO_DIR : Field := fld (0x48) 7 1 .ro 0 .any
def SYS_BOOT_STATUS_PATCH_REJ : Field := fld (0x48) 8 4 .ro 0 .any
def SYS_BOOT_STATUS_REJ_A : Field := fld (0x48) 12 4 .ro 0 .any
def SYS_BOOT_STATUS_REJ_B : Field := fld (0x48) 16 4 .ro 0 .any
def SYS_BOOT_STATUS_FALLBACK : Field := fld (0x48) 20 1 .ro 0 .any
def SYS_BOOT_STATUS_NO_RIG : Field := fld (0x48) 21 1 .ro 0 .any
def SYS_BOOT_STATUS_PREF : Field := fld (0x48) 22 1 .ro 0 .any
def SYS_BOOT_TIME_MS : Field := fld (0x4c) 0 20 .ro 0 .any
def SYS_RST_COUNTS_WARM_CNT : Field := fld (0x50) 0 16 .ro 0 .any
def SYS_RST_COUNTS_IGNORED_CNT : Field := fld (0x50) 16 16 .ro 0 .any
def MON_CTRL_SCAN_EN : Field := fld (0x130000) 0 1 .rwt 1 .any
def MON_ALARM_AIN : Field := fld (0x130004) 0 16 .ro 0 .any
def MON_ALARM_SUP : Field := fld (0x130004) 16 16 .ro 0 .any
def MON_ALARM_MASK_MASK : Field := fld (0x130008) 0 32 .rwt 4294901760 .any
def MON_IRQ_EN_EN : Field := fld (0x13000c) 0 32 .rw 0 .any
def MON_IRQ_STAT_ONSET : Field := fld (0x130010) 0 32 .w1c 0 .any
def MON_COUNTS_TRIG_OVR_CNT : Field := fld (0x130014) 0 16 .ro 0 .any
def MON_TEMP_TEMP (n : Nat) : Field := fld (0x130020 + 0x4 * n) 0 16 .ro 0 .any
def MON_TEMP_VALID (n : Nat) : Field := fld (0x130020 + 0x4 * n) 16 1 .ro 0 .any
def MON_AIN_CFG_SCAN (n : Nat) : Field := fld (0x130100 + 0x10 * n) 0 1 .rwt 0 .any
def MON_AIN_CFG_ALARM_EN (n : Nat) : Field := fld (0x130100 + 0x10 * n) 1 1 .rwt 0 .any
def MON_AIN_CFG_DEBOUNCE (n : Nat) : Field := fld (0x130100 + 0x10 * n) 2 8 .rwt 4 (.range 1 255)
def MON_AIN_LIMIT_LO (n : Nat) : Field := fld (0x130104 + 0x10 * n) 0 16 .rwt 0 .any
def MON_AIN_LIMIT_HI (n : Nat) : Field := fld (0x130104 + 0x10 * n) 16 16 .rwt 65535 (.limitHi n)
def MON_AIN_RESULT_CODE (n : Nat) : Field := fld (0x130108 + 0x10 * n) 0 16 .ro 0 .any
def MON_AIN_RESULT_VALID (n : Nat) : Field := fld (0x130108 + 0x10 * n) 16 1 .ro 0 .any
def MON_AIN_RESULT_TRIG (n : Nat) : Field := fld (0x130108 + 0x10 * n) 17 1 .ro 0 .any
def MON_AIN_STAMP_PT (n : Nat) : Field := fld (0x13010c + 0x10 * n) 0 32 .ro 0 .any
def MON_SUP_VALUE_MV (n : Nat) : Field := fld (0x130200 + 0x8 * n) 0 13 .ro 0 .any
def MON_SUP_WIN_LO_MV (n : Nat) : Field := fld (0x130204 + 0x8 * n) 0 13 .rwt (supLoMv n) (.range 0 4000)
def MON_SUP_WIN_HI_MV (n : Nat) : Field := fld (0x130204 + 0x8 * n) 16 13 .rwt (supHiMv n) (.winHi n)
def BIST_CTRL_EN : Field := fld (0x140000) 0 1 .rwt 0 .any
def BIST_CTRL_FULL : Field := fld (0x140000) 1 1 .wo 0 .any
def BIST_CTRL_STRUCT : Field := fld (0x140000) 2 1 .wo 0 .any
def BIST_CFG_GAP : Field := fld (0x140004) 0 8 .rwt 16 (.range 1 255)
def BIST_CFG_PASS_S : Field := fld (0x140004) 8 16 .rwt 3600 (.range 1 65535)
def BIST_STATUS_STATE : Field := fld (0x140008) 0 2 .ro 0 .any
def BIST_STATUS_UUT0 : Field := fld (0x140008) 2 10 .ro 1023 .any
def BIST_STATUS_UUT1 : Field := fld (0x140008) 12 10 .ro 1023 .any
def BIST_STATUS_PRECOND_OK : Field := fld (0x140008) 22 1 .ro 0 .any
def BIST_COUNTS_PASS_CNT : Field := fld (0x14000c) 0 16 .ro 0 .any
def BIST_COUNTS_FAIL_CNT : Field := fld (0x14000c) 16 16 .ro 0 .any
def BIST_COUNTS2_PRECOND_CNT : Field := fld (0x140010) 0 16 .ro 0 .any
def BIST_COUNTS2_ABANDON_CNT : Field := fld (0x140010) 16 16 .ro 0 .any
def BIST_COUNTS3_UNTESTED : Field := fld (0x140014) 0 16 .ro 0 .any
def BIST_COUNTS3_STRUCT_DENY_CNT : Field := fld (0x140014) 16 16 .ro 0 .any
def BIST_IRQ_EN_EN : Field := fld (0x140018) 0 4 .rw 0 .any
def BIST_IRQ_STAT_FAIL : Field := fld (0x14001c) 0 1 .w1c 0 .any
def BIST_IRQ_STAT_PASS_DONE : Field := fld (0x14001c) 1 1 .w1c 0 .any
def BIST_IRQ_STAT_FULL_DONE : Field := fld (0x14001c) 2 1 .w1c 0 .any
def BIST_IRQ_STAT_UNTESTED : Field := fld (0x14001c) 3 1 .w1c 0 .any
def BIST_MASK_MASK (n : Nat) : Field := fld (0x140040 + 0x4 * n) 0 (if n = 10 then 7 else 32) .rwt 0 .any
def BIST_FAIL_FAIL (n : Nat) : Field := fld (0x140080 + 0x4 * n) 0 32 .w1c 0 .any
def SYS_IOBANK_VOLT (n : Nat) : Field := fld (0x80 + 0x4 * n) 0 2 .ro 1 .any
def SYS_IOBANK_DRIVE (n : Nat) : Field := fld (0x80 + 0x4 * n) 2 2 .rwt 1 .any
def SYS_IOBANK_PULL (n : Nat) : Field := fld (0x80 + 0x4 * n) 4 2 .rwt 2 (.range 0 2)
def HOST_QSPI_BUF_DATA (n : Nat) : Field := fld (0xf0100 + 0x4 * n) 0 32 .rw 0 .any

/-- One register of the map: base address, index counts and strides, and its fields by index. -/
structure RegRow where
  base : Nat
  n1 : Nat
  s1 : Nat
  n2 : Nat
  s2 : Nat
  fields : Nat → Nat → List Field

/-- The indexes of an address in a row, if the row covers it. -/
def RegRow.find (r : RegRow) (addr : Nat) : Option (Nat × Nat) :=
  if addr < r.base then none else
    let o := addr - r.base
    let i := if r.s1 = 0 then 0 else o / r.s1
    let i := if r.n1 ≤ i then r.n1 - 1 else i
    let o2 := o - i * r.s1
    let j := if r.s2 = 0 then 0 else o2 / r.s2
    if j < r.n2 ∧ o2 = j * r.s2 then some (i, j) else none

/-- The fields of the first row that covers the address. -/
def findRow (addr : Nat) : List RegRow → List Field
  | [] => []
  | r :: rs => match r.find addr with
    | some (i, j) => r.fields i j
    | none => findRow addr rs

def rows00 : List RegRow := [
  ⟨0x0, 1, 0x0, 1, 0x0, fun _ _ => [SYS_IDENT_PART, SYS_IDENT_REV_MAJOR, SYS_IDENT_REV_MINOR, SYS_IDENT_VARIANT]⟩,
  ⟨0x10, 1, 0x0, 1, 0x0, fun _ _ => [SYS_STROKE_CFG_PERIOD_NS, SYS_STROKE_CFG_PENDING]⟩,
  ⟨0x14, 1, 0x0, 1, 0x0, fun _ _ => [SYS_STROKE_NO_LO_NUM_LO]⟩,
  ⟨0x18, 1, 0x0, 1, 0x0, fun _ _ => [SYS_STROKE_NO_HI_NUM_HI]⟩,
  ⟨0x1c, 1, 0x0, 1, 0x0, fun _ _ => [SYS_STROKE_POS_CYCLE, SYS_STROKE_POS_FINISH]⟩,
  ⟨0x20, 1, 0x0, 1, 0x0, fun _ _ => [SYS_FAB_MAXWAIT_MAXWAIT, SYS_FAB_MAXWAIT_CLEAR]⟩,
  ⟨0x24, 1, 0x0, 1, 0x0, fun _ _ => [SYS_STROKE_NEXT_PERIOD_NS]⟩,
  ⟨0x40, 1, 0x0, 1, 0x0, fun _ _ => [SYS_RST_CTRL_WARM]⟩,
  ⟨0x44, 1, 0x0, 1, 0x0, fun _ _ => [SYS_RST_STATUS_CAUSE, SYS_RST_STATUS_WARM_BUSY, SYS_RST_STATUS_INSTALLED]⟩,
  ⟨0x48, 1, 0x0, 1, 0x0, fun _ _ => [SYS_BOOT_STATUS_STAGE, SYS_BOOT_STATUS_STRAP, SYS_BOOT_STATUS_STRAP2, SYS_BOOT_STATUS_DIR_BACKUP, SYS_BOOT_STATUS_NO_DIR, SYS_BOOT_STATUS_PATCH_REJ, SYS_BOOT_STATUS_REJ_A, SYS_BOOT_STATUS_REJ_B, SYS_BOOT_STATUS_FALLBACK, SYS_BOOT_STATUS_NO_RIG, SYS_BOOT_STATUS_PREF]⟩,
  ⟨0x4c, 1, 0x0, 1, 0x0, fun _ _ => [SYS_BOOT_TIME_MS]⟩,
  ⟨0x50, 1, 0x0, 1, 0x0, fun _ _ => [SYS_RST_COUNTS_WARM_CNT, SYS_RST_COUNTS_IGNORED_CNT]⟩,
  ⟨0x80, 8, 0x4, 1, 0x0, fun n _ => [(SYS_IOBANK_VOLT n), (SYS_IOBANK_DRIVE n), (SYS_IOBANK_PULL n)]⟩]

def rows01_0 : List RegRow := [
  ⟨0x10000, 1, 0x0, 1, 0x0, fun _ _ => [TB_CTRL_FORCE_HOLDOVER, TB_CTRL_LEARN_EN, TB_CTRL_MODEL_CLEAR]⟩,
  ⟨0x10004, 1, 0x0, 1, 0x0, fun _ _ => [TB_STATUS_STATE, TB_STATUS_RECOVERING, TB_STATUS_FREQ_ASSIST, TB_STATUS_ETE_VALID, TB_STATUS_CARRIER, TB_STATUS_NO_OSC, TB_STATUS_FFO_LIMIT, TB_STATUS_BOUND_BREACH, TB_STATUS_STEPPED, TB_STATUS_TSET_REJECT]⟩,
  ⟨0x10010, 1, 0x0, 1, 0x0, fun _ _ => [TB_TIME_SEC_LO_SEC_LO]⟩,
  ⟨0x10014, 1, 0x0, 1, 0x0, fun _ _ => [TB_TIME_SEC_HI_SEC_HI]⟩,
  ⟨0x10018, 1, 0x0, 1, 0x0, fun _ _ => [TB_TIME_NS_NS]⟩,
  ⟨0x10020, 1, 0x0, 1, 0x0, fun _ _ => [TB_TSET_SEC_LO_SEC_LO]⟩,
  ⟨0x10024, 1, 0x0, 1, 0x0, fun _ _ => [TB_TSET_SEC_HI_SEC_HI]⟩,
  ⟨0x10028, 1, 0x0, 1, 0x0, fun _ _ => [TB_TSET_NS_NS]⟩,
  ⟨0x1002c, 1, 0x0, 1, 0x0, fun _ _ => [TB_TSET_CTRL_GO]⟩,
  ⟨0x10030, 1, 0x0, 1, 0x0, fun _ _ => [TB_STEER_CFG_SLEW_LIMIT, TB_STEER_CFG_STEP_MODE]⟩,
  ⟨0x10034, 1, 0x0, 1, 0x0, fun _ _ => [TB_STEP_THRESH_THRESH_NS]⟩,
  ⟨0x10038, 1, 0x0, 1, 0x0, fun _ _ => [TB_LOCK_CFG_LOCK_THRESH, TB_LOCK_CFG_LOCK_HOLD]⟩,
  ⟨0x1003c, 1, 0x0, 1, 0x0, fun _ _ => [TB_FILT_CFG_UPDATE_MS]⟩,
  ⟨0x10040, 1, 0x0, 1, 0x0, fun _ _ => [TB_REF_SEL_TRK_MASK, TB_REF_SEL_CREW_EN, TB_REF_SEL_CNTF0, TB_REF_SEL_CNTF0_EN, TB_REF_SEL_CNTF1, TB_REF_SEL_CNTF1_EN]⟩,
  ⟨0x10048, 1, 0x0, 1, 0x0, fun _ _ => [TB_FFO_LO_FFO_LO]⟩,
  ⟨0x1004c, 1, 0x0, 1, 0x0, fun _ _ => [TB_FFO_HI_FFO_HI]⟩,
  ⟨0x10050, 1, 0x0, 1, 0x0, fun _ _ => [TB_OFFSET_NS_OFFSET]⟩,
  ⟨0x10054, 1, 0x0, 1, 0x0, fun _ _ => [TB_ETE_NS_ETE]⟩,
  ⟨0x10058, 1, 0x0, 1, 0x0, fun _ _ => [TB_ETE_BOUND_NS_BOUND]⟩,
  ⟨0x1005c, 1, 0x0, 1, 0x0, fun _ _ => [TB_ETE_TTB_TTB]⟩,
  ⟨0x10060, 1, 0x0, 1, 0x0, fun _ _ => [TB_ETE_CFG_K]⟩,
  ⟨0x10064, 1, 0x0, 1, 0x0, fun _ _ => [TB_BUDGET_BUDGET_NS]⟩,
  ⟨0x10068, 1, 0x0, 1, 0x0, fun _ _ => [TB_HOLD_TIME_SECONDS]⟩,
  ⟨0x1006c, 1, 0x0, 1, 0x0, fun _ _ => [TB_COUNTS_STEP_COUNT, TB_COUNTS_COMMIT_LOSS]⟩]

def rows01_1 : List RegRow := [
  ⟨0x10070, 1, 0x0, 1, 0x0, fun _ _ => [TB_UTC_OFFSET_OFFSET_S]⟩,
  ⟨0x10074, 1, 0x0, 1, 0x0, fun _ _ => [TB_LEAP_CFG_PENDING, TB_LEAP_CFG_DIR]⟩,
  ⟨0x10078, 1, 0x0, 1, 0x0, fun _ _ => [TB_LEAP_TAI_LO_SEC_LO]⟩,
  ⟨0x1007c, 1, 0x0, 1, 0x0, fun _ _ => [TB_LEAP_TAI_HI_SEC_HI]⟩,
  ⟨0x10080, 1, 0x0, 1, 0x0, fun _ _ => [TB_DCO_CFG_SRC, TB_DCO_CFG_AUTO_SWITCH]⟩,
  ⟨0x10090, 1, 0x0, 1, 0x0, fun _ _ => [TB_IRQ_EN_EN]⟩,
  ⟨0x10094, 1, 0x0, 1, 0x0, fun _ _ => [TB_IRQ_STAT_STATE, TB_IRQ_STAT_BUDGET]⟩,
  ⟨0x10100, 4, 0x40, 1, 0x0, fun n _ => [(TB_OSC_CFG_ENABLE n), (TB_OSC_CFG_KIND n), (TB_OSC_CFG_NOM_KHZ n), (TB_OSC_CFG_THERM n)]⟩,
  ⟨0x10104, 4, 0x40, 1, 0x0, fun n _ => [(TB_OSC_MODEL_ID_ID n)]⟩,
  ⟨0x10108, 4, 0x40, 1, 0x0, fun n _ => [(TB_OSC_PHASE_PS_PHASE n)]⟩,
  ⟨0x1010c, 4, 0x40, 1, 0x0, fun n _ => [(TB_OSC_FREQ_LO_FREQ_LO n)]⟩,
  ⟨0x10110, 4, 0x40, 1, 0x0, fun n _ => [(TB_OSC_FREQ_HI_FREQ_HI n)]⟩,
  ⟨0x10114, 4, 0x40, 1, 0x0, fun n _ => [(TB_OSC_WEIGHT_WEIGHT n)]⟩,
  ⟨0x10118, 4, 0x40, 1, 0x0, fun n _ => [(TB_OSC_MODEL_STAT_VALID n), (TB_OSC_MODEL_STAT_FAULT n), (TB_OSC_MODEL_STAT_RESTORED n), (TB_OSC_MODEL_STAT_SPAN_C n), (TB_OSC_MODEL_STAT_AGE_DAYS n)]⟩]

def rows01 : List RegRow := rows01_0 ++ rows01_1

def rows02_0 : List RegRow := [
  ⟨0x20000, 8, 0x200, 1, 0x0, fun n _ => [(TRK_CTRL_ENABLE n), (TRK_CTRL_RESTART n), (TRK_CTRL_RELEASE n)]⟩,
  ⟨0x20004, 8, 0x200, 1, 0x0, fun n _ => [(TRK_CFG_WHEEL n), (TRK_CFG_EDGE n), (TRK_CFG_T0_ID n), (TRK_CFG_WDEC n), (TRK_CFG_SPLIT_EN n), (TRK_CFG_TEETH n)]⟩,
  ⟨0x20008, 8, 0x200, 1, 0x0, fun n _ => [(TRK_REV_LEN_REV_LEN n)]⟩,
  ⟨0x2000c, 8, 0x200, 1, 0x0, fun n _ => [(TRK_ALIGN_ALIGN_NS n)]⟩,
  ⟨0x20010, 8, 0x200, 1, 0x0, fun n _ => [(TRK_DELAY_PS_DELAY n)]⟩,
  ⟨0x20014, 8, 0x200, 1, 0x0, fun n _ => [(TRK_WINDOW_WIN_NS n)]⟩,
  ⟨0x20018, 8, 0x200, 1, 0x0, fun n _ => [(TRK_QUAL_QUAL_S n)]⟩,
  ⟨0x2001c, 8, 0x200, 1, 0x0, fun n _ => [(TRK_GATE_PHASE_GATE_NS n), (TRK_GATE_FREQ_GATE_PPB n)]⟩,
  ⟨0x20020, 8, 0x200, 1, 0x0, fun n _ => [(TRK_SCORE_CFG_QUAR_SCORE n), (TRK_SCORE_CFG_QUAR_HOLD_S n), (TRK_SCORE_CFG_PHASE_EN n), (TRK_SCORE_CFG_FREQ_EN n)]⟩,
  ⟨0x20024, 8, 0x200, 1, 0x0, fun n _ => [(TRK_WCODE_ACCEPT n)]⟩,
  ⟨0x20028, 8, 0x200, 1, 0x0, fun n _ => [(TRK_SIGMA_PS_SIGMA n)]⟩,
  ⟨0x20030, 8, 0x200, 4, 0x4, fun n k => [(TRK_WCLASS_MIN n k), (TRK_WCLASS_MAX n k)]⟩,
  ⟨0x20040, 8, 0x200, 4, 0x8, fun n k => [(TRK_TRIG_POS_POS n k)]⟩,
  ⟨0x20044, 8, 0x200, 4, 0x8, fun n k => [(TRK_TRIG_CFG_AIN_MASK n k), (TRK_TRIG_CFG_XOUT n k), (TRK_TRIG_CFG_EN n k)]⟩,
  ⟨0x20080, 8, 0x200, 1, 0x0, fun n _ => [(TRK_STATE_STATE n), (TRK_STATE_SYNTH n), (TRK_STATE_TABLE_ERR n), (TRK_STATE_LEAP_SEEN n), (TRK_STATE_PULLING n), (TRK_STATE_LAST_TOOTH n), (TRK_STATE_QUAL_REMAIN n)]⟩,
  ⟨0x20084, 8, 0x200, 1, 0x0, fun n _ => [(TRK_SCORE_SCORE n), (TRK_SCORE_QUAR_24H n), (TRK_SCORE_HOLD_REMAIN n)]⟩,
  ⟨0x20088, 8, 0x200, 1, 0x0, fun n _ => [(TRK_REV_NO_LO_REV_LO n)]⟩,
  ⟨0x2008c, 8, 0x200, 1, 0x0, fun n _ => [(TRK_REV_NO_HI_REV_HI n)]⟩,
  ⟨0x20090, 8, 0x200, 1, 0x0, fun n _ => [(TRK_RESID_PS_RESID n)]⟩,
  ⟨0x20094, 8, 0x200, 1, 0x0, fun n _ => [(TRK_RATE_RATE n)]⟩,
  ⟨0x20098, 8, 0x200, 1, 0x0, fun n _ => [(TRK_COUNTS_A_NOISE_CNT n), (TRK_COUNTS_A_REJECT_CNT n)]⟩,
  ⟨0x2009c, 8, 0x200, 1, 0x0, fun n _ => [(TRK_COUNTS_B_SYNTH_CNT n), (TRK_COUNTS_B_LOST_CNT n)]⟩,
  ⟨0x200a0, 8, 0x200, 1, 0x0, fun n _ => [(TRK_IRIG_TIME_TOY_S n), (TRK_IRIG_TIME_DAY n)]⟩,
  ⟨0x200a4, 8, 0x200, 1, 0x0, fun n _ => [(TRK_IRIG_YEAR_YEAR n), (TRK_IRIG_YEAR_YEAR_VALID n), (TRK_IRIG_YEAR_SBS n), (TRK_IRIG_YEAR_SBS_VALID n)]⟩]

def rows02_1 : List RegRow := [
  ⟨0x200a8, 8, 0x200, 1, 0x0, fun n _ => [(TRK_IRIG_CF_CF n), (TRK_IRIG_CF_CF_VALID n)]⟩,
  ⟨0x200c0, 8, 0x200, 1, 0x0, fun n _ => [(TRK_IRQ_EN_EN n)]⟩,
  ⟨0x200c4, 8, 0x200, 1, 0x0, fun n _ => [(TRK_IRQ_STAT_STATE n), (TRK_IRQ_STAT_SYNTH n), (TRK_IRQ_STAT_REJECT n), (TRK_IRQ_STAT_QUARANTINE n), (TRK_IRQ_STAT_IRIG n), (TRK_IRQ_STAT_TABLE_ERR n), (TRK_IRQ_STAT_LEAP n)]⟩,
  ⟨0x20100, 8, 0x200, 1, 0x0, fun n _ => [(TRK_TT_ADDR_INDEX n), (TRK_TT_ADDR_AUTOINC n)]⟩,
  ⟨0x20104, 8, 0x200, 1, 0x0, fun n _ => [(TRK_TT_DATA_LO_LO n)]⟩,
  ⟨0x20108, 8, 0x200, 1, 0x0, fun n _ => [(TRK_TT_DATA_HI_HI n)]⟩,
  ⟨0x201e0, 8, 0x200, 8, 0x4, fun n k => [(TRK_SPLIT_WORD n k)]⟩,
  ⟨0x22000, 32, 0x80, 1, 0x0, fun n _ => [(CNT_CTRL_ENABLE n), (CNT_CTRL_ARM n)]⟩,
  ⟨0x22004, 32, 0x80, 1, 0x0, fun n _ => [(CNT_CFG_SRC n), (CNT_CFG_IDX_MODE n), (CNT_CFG_IDX_SRC n), (CNT_CFG_FRAC n), (CNT_CFG_SPLIT_EN n)]⟩,
  ⟨0x22008, 32, 0x80, 1, 0x0, fun n _ => [(CNT_GATE_G n)]⟩,
  ⟨0x2200c, 32, 0x80, 1, 0x0, fun n _ => [(CNT_NOM_HZ_NOM n)]⟩,
  ⟨0x22010, 32, 0x80, 1, 0x0, fun n _ => [(CNT_QCFG_FREQ_GATE_PPB n), (CNT_QCFG_QUAL_S n)]⟩,
  ⟨0x22014, 32, 0x80, 1, 0x0, fun n _ => [(CNT_COUNT_LO_LO n)]⟩,
  ⟨0x22018, 32, 0x80, 1, 0x0, fun n _ => [(CNT_COUNT_HI_HI n)]⟩,
  ⟨0x2201c, 32, 0x80, 1, 0x0, fun n _ => [(CNT_FFO_FFO n)]⟩,
  ⟨0x22020, 32, 0x80, 1, 0x0, fun n _ => [(CNT_STATUS_VALID n), (CNT_STATUS_NO_SIGNAL n), (CNT_STATUS_QUALIFIED n), (CNT_STATUS_ARMED n), (CNT_STATUS_QUAL_REMAIN n)]⟩,
  ⟨0x22024, 32, 0x80, 1, 0x0, fun n _ => [(CNT_IRQ_EN_EN n)]⟩,
  ⟨0x22028, 32, 0x80, 1, 0x0, fun n _ => [(CNT_IRQ_STAT_GATE n), (CNT_IRQ_STAT_INDEX n), (CNT_IRQ_STAT_NO_SIGNAL n), (CNT_IRQ_STAT_QUAL n)]⟩,
  ⟨0x22060, 32, 0x80, 8, 0x4, fun n k => [(CNT_SPLIT_WORD n k)]⟩]

def rows02 : List RegRow := rows02_0 ++ rows02_1

def rows03 : List RegRow := [
  ⟨0x30000, 1, 0x0, 1, 0x0, fun _ _ => [COX_CTRL_ENABLE, COX_CTRL_LEAD]⟩,
  ⟨0x30004, 1, 0x0, 1, 0x0, fun _ _ => [COX_STATUS_LIST_RUN, COX_STATUS_CACHE_ERR, COX_STATUS_DRAM_ERR]⟩,
  ⟨0x30008, 1, 0x0, 1, 0x0, fun _ _ => [COX_ARMED_LO_LO]⟩,
  ⟨0x3000c, 1, 0x0, 1, 0x0, fun _ _ => [COX_ARMED_HI_HI]⟩,
  ⟨0x30010, 1, 0x0, 1, 0x0, fun _ _ => [COX_DROPS_LATE, COX_DROPS_QFULL]⟩,
  ⟨0x30014, 1, 0x0, 1, 0x0, fun _ _ => [COX_ERRS_MISMATCH, COX_ERRS_FORMAT]⟩,
  ⟨0x30018, 1, 0x0, 1, 0x0, fun _ _ => [COX_LAST_DROP_CHANNEL, COX_LAST_DROP_ACTION, COX_LAST_DROP_LIST, COX_LAST_DROP_QFULL, COX_LAST_DROP_REV]⟩,
  ⟨0x3001c, 1, 0x0, 1, 0x0, fun _ _ => [COX_PERF_PEAK_ARM, COX_PERF_MIN_SLACK, COX_PERF_CLEAR]⟩,
  ⟨0x30020, 1, 0x0, 1, 0x0, fun _ _ => [COX_REFILL_STALL_CNT]⟩,
  ⟨0x30030, 1, 0x0, 1, 0x0, fun _ _ => [COX_IRQ_EN_EN]⟩,
  ⟨0x30034, 1, 0x0, 1, 0x0, fun _ _ => [COX_IRQ_STAT_LATE, COX_IRQ_STAT_QFULL, COX_IRQ_STAT_MISMATCH, COX_IRQ_STAT_FORMAT, COX_IRQ_STAT_STALL, COX_IRQ_STAT_DRAM_ERR, COX_IRQ_STAT_STATE, COX_IRQ_STAT_SEL]⟩,
  ⟨0x30100, 8, 0x40, 1, 0x0, fun n _ => [(COX_LIST_CFG_ENABLE n), (COX_LIST_CFG_TRK n), (COX_LIST_CFG_ON_LOST n), (COX_LIST_CFG_LATE_SPLIT n), (COX_LIST_CFG_IDX_SEL n)]⟩,
  ⟨0x30104, 8, 0x40, 1, 0x0, fun n _ => [(COX_LIST_REVS_REVS n)]⟩,
  ⟨0x30108, 8, 0x40, 1, 0x0, fun n _ => [(COX_LIST_REV_OFS_OFS n)]⟩,
  ⟨0x3010c, 8, 0x40, 1, 0x0, fun n _ => [(COX_LIST_ENT_BASE_BASE n)]⟩,
  ⟨0x30110, 8, 0x40, 1, 0x0, fun n _ => [(COX_LIST_IDX_BASE_A_BASE n)]⟩,
  ⟨0x30114, 8, 0x40, 1, 0x0, fun n _ => [(COX_LIST_IDX_BASE_B_BASE n)]⟩,
  ⟨0x30118, 8, 0x40, 1, 0x0, fun n _ => [(COX_LIST_CACHE_KIB_KIB n)]⟩,
  ⟨0x3011c, 8, 0x40, 1, 0x0, fun n _ => [(COX_LIST_STATUS_STATE n), (COX_LIST_STATUS_CACHE_ERR n), (COX_LIST_STATUS_SEL_ACTIVE n), (COX_LIST_STATUS_SYNTH n), (COX_LIST_STATUS_CUR_REV n)]⟩,
  ⟨0x30120, 8, 0x40, 1, 0x0, fun n _ => [(COX_LIST_SEL_REV_REV n)]⟩,
  ⟨0x30124, 8, 0x40, 1, 0x0, fun n _ => [(COX_LIST_CURSOR_INDEX n)]⟩,
  ⟨0x30128, 8, 0x40, 1, 0x0, fun n _ => [(COX_LIST_ARMED_COUNT n)]⟩,
  ⟨0x3012c, 8, 0x40, 1, 0x0, fun n _ => [(COX_LIST_COUNTS_LATE n), (COX_LIST_COUNTS_SKIP n)]⟩]

def rows04 : List RegRow := [
  ⟨0x40000, 4, 0x100, 1, 0x0, fun n _ => [(SYN_CTRL_ENABLE n), (SYN_CTRL_RECAL n)]⟩,
  ⟨0x40004, 4, 0x100, 1, 0x0, fun n _ => [(SYN_CFG_N n)]⟩,
  ⟨0x40008, 4, 0x100, 1, 0x0, fun n _ => [(SYN_FRAC_NUM_NUM n)]⟩,
  ⟨0x4000c, 4, 0x100, 1, 0x0, fun n _ => [(SYN_FRAC_DEN_DEN n)]⟩,
  ⟨0x40010, 4, 0x100, 1, 0x0, fun n _ => [(SYN_ODIV_ODIV n)]⟩,
  ⟨0x40014, 4, 0x100, 1, 0x0, fun n _ => [(SYN_ALIGN_PERIOD_S n), (SYN_ALIGN_ALIGN_EN n)]⟩,
  ⟨0x40018, 4, 0x100, 1, 0x0, fun n _ => [(SYN_PHASE_PS_PHASE n)]⟩,
  ⟨0x4001c, 4, 0x100, 1, 0x0, fun n _ => [(SYN_GUARD_TRK n), (SYN_GUARD_EN n), (SYN_GUARD_LEN_NS n)]⟩,
  ⟨0x40020, 4, 0x100, 1, 0x0, fun n _ => [(SYN_GUARD_POS_POS n)]⟩,
  ⟨0x40024, 4, 0x100, 1, 0x0, fun n _ => [(SYN_CAL_CFG_INTERVAL_S n)]⟩,
  ⟨0x40030, 4, 0x100, 1, 0x0, fun n _ => [(SYN_STATUS_STATE n), (SYN_STATUS_NO_ALIGN n), (SYN_STATUS_CAL_OVERDUE n)]⟩,
  ⟨0x40034, 4, 0x100, 1, 0x0, fun n _ => [(SYN_COUNTS_LOCK_LOSS_CNT n)]⟩,
  ⟨0x40040, 4, 0x100, 1, 0x0, fun n _ => [(SYN_IRQ_EN_EN n)]⟩,
  ⟨0x40044, 4, 0x100, 1, 0x0, fun n _ => [(SYN_IRQ_STAT_STATE n), (SYN_IRQ_STAT_LOCK_LOST n), (SYN_IRQ_STAT_CAL_OVERDUE n)]⟩,
  ⟨0x40800, 16, 0x4, 1, 0x0, fun n _ => [(DOUT_CFG_STD n), (DOUT_CFG_DRIVE n)]⟩,
  ⟨0x41000, 1, 0x0, 1, 0x0, fun _ _ => [TXG_INH_CFG_INH_MASK]⟩,
  ⟨0x41004, 1, 0x0, 1, 0x0, fun _ _ => [TXG_IRQ_EN_EN]⟩,
  ⟨0x41008, 1, 0x0, 1, 0x0, fun _ _ => [TXG_IRQ_STAT_REJECT, TXG_IRQ_STAT_DISQ]⟩,
  ⟨0x4100c, 1, 0x0, 1, 0x0, fun _ _ => [TXG_ALL_STATUS_OPEN, TXG_ALL_STATUS_PENDING, TXG_ALL_STATUS_TXINH]⟩,
  ⟨0x41100, 8, 0x20, 1, 0x0, fun n _ => [(TXG_CFG_Q_SYN n), (TXG_CFG_Q_TB n), (TXG_CFG_Q_RIG n), (TXG_CFG_Q_TRUST n), (TXG_CFG_WARM_HOLD n), (TXG_CFG_TIMEOUT_MS n)]⟩,
  ⟨0x41104, 8, 0x20, 1, 0x0, fun n _ => [(TXG_CTRL_OPEN n), (TXG_CTRL_CLOSE n)]⟩,
  ⟨0x41108, 8, 0x20, 1, 0x0, fun n _ => [(TXG_STATUS_STATE n), (TXG_STATUS_TB_OK n), (TXG_STATUS_RIG_OK n), (TXG_STATUS_TRUST_OK n), (TXG_STATUS_SYN_OK n), (TXG_STATUS_LAST_REJECT n)]⟩,
  ⟨0x4110c, 8, 0x20, 1, 0x0, fun n _ => [(TXG_COUNTS_REJECT_CNT n), (TXG_COUNTS_DISQ_CNT n)]⟩]

def rows05 : List RegRow := [
  ⟨0x50000, 8, 0x2000, 1, 0x0, fun n _ => [(CE_CTRL_ENABLE n), (CE_CTRL_HALT n), (CE_CTRL_RESUME n), (CE_CTRL_STEP n)]⟩,
  ⟨0x50004, 8, 0x2000, 1, 0x0, fun n _ => [(CE_CFG_OVR_POLICY n), (CE_CFG_OVR_TRAP n)]⟩,
  ⟨0x50008, 8, 0x2000, 1, 0x0, fun n _ => [(CE_VEC_BASE n)]⟩,
  ⟨0x5000c, 8, 0x2000, 1, 0x0, fun n _ => [(CE_STATUS_RUN n), (CE_STATUS_OVERRUN n), (CE_STATUS_IE n), (CE_STATUS_TS n), (CE_STATUS_PC n)]⟩,
  ⟨0x50010, 8, 0x2000, 1, 0x0, fun n _ => [(CE_COUNTS_OVERRUN_CNT n), (CE_COUNTS_TRAP_CNT n)]⟩,
  ⟨0x50014, 8, 0x2000, 1, 0x0, fun n _ => [(CE_STAGE_DEPTH n), (CE_STAGE_OVF n), (CE_STAGE_OVF_CNT n)]⟩,
  ⟨0x50018, 8, 0x2000, 1, 0x0, fun n _ => [(CE_RUNMAX_MAXYIELD n), (CE_RUNMAX_CLEAR n)]⟩,
  ⟨0x5001c, 8, 0x2000, 1, 0x0, fun n _ => [(CE_TRAPINFO_CAUSE n), (CE_TRAPINFO_DOUBLE n), (CE_TRAPINFO_PC n)]⟩,
  ⟨0x50020, 8, 0x2000, 1, 0x0, fun n _ => [(CE_IRQ_EN_EN n)]⟩,
  ⟨0x50024, 8, 0x2000, 1, 0x0, fun n _ => [(CE_IRQ_STAT_OVERRUN n), (CE_IRQ_STAT_TRAP n), (CE_IRQ_STAT_FAULT n), (CE_IRQ_STAT_STAGE_OVF n)]⟩,
  ⟨0x50028, 8, 0x2000, 1, 0x0, fun n _ => [(CE_WIN_WIN n)]⟩,
  ⟨0x50040, 8, 0x2000, 8, 0x8, fun n k => [(CE_SEG_BASE_BASE n k), (CE_SEG_BASE_R n k), (CE_SEG_BASE_W n k)]⟩,
  ⟨0x50044, 8, 0x2000, 8, 0x8, fun n k => [(CE_SEG_LIMIT_LIMIT n k)]⟩,
  ⟨0x50080, 8, 0x2000, 16, 0x4, fun n k => if k = 0 then [] else [(CE_CSEL_SEL n k)]⟩,
  ⟨0x50400, 8, 0x2000, 256, 0x4, fun n k => [(CE_XREG_VALUE n k)]⟩,
  ⟨0x50800, 8, 0x2000, 32, 0x4, fun n k => [(CE_SPEC_VALUE n k)]⟩]

def rows06 : List RegRow := [
  ⟨0x60000, 32, 0x800, 1, 0x0, fun n _ => [(PE_CTRL_ENABLE n), (PE_CTRL_RESTART n), (PE_CTRL_COUNT_CLEAR n)]⟩,
  ⟨0x60004, 32, 0x800, 1, 0x0, fun n _ => [(PE_CFG_START_PC n), (PE_CFG_WRAP_BOTTOM n), (PE_CFG_WRAP_TOP n), (PE_CFG_QMODE n)]⟩,
  ⟨0x60008, 32, 0x800, 1, 0x0, fun n _ => [(PE_CLKDIV_DIV n)]⟩,
  ⟨0x6000c, 32, 0x800, 1, 0x0, fun n _ => [(PE_PINS_IN_BASE n), (PE_PINS_IN_COUNT n), (PE_PINS_OUT_BASE n), (PE_PINS_OUT_COUNT n)]⟩,
  ⟨0x60010, 32, 0x800, 1, 0x0, fun n _ => [(PE_PINS2_SIDE_BASE n), (PE_PINS2_SIDE_COUNT n), (PE_PINS2_JPIN n), (PE_PINS2_SA n), (PE_PINS2_SB n)]⟩,
  ⟨0x60014, 32, 0x800, 1, 0x0, fun n _ => [(PE_SHIFTCTL_RX_LSB n), (PE_SHIFTCTL_TX_LSB n), (PE_SHIFTCTL_RX_AUTO n), (PE_SHIFTCTL_TX_AUTO n), (PE_SHIFTCTL_TX_AUTO_NB n), (PE_SHIFTCTL_WLEN_RX n), (PE_SHIFTCTL_WLEN_TX n)]⟩,
  ⟨0x60018, 32, 0x800, 1, 0x0, fun n _ => [(PE_IDLE_IDLE_STROKES n)]⟩,
  ⟨0x6001c, 32, 0x800, 1, 0x0, fun n _ => [(PE_QTHRESH_TX_LOW n), (PE_QTHRESH_RX_HIGH n)]⟩,
  ⟨0x60020, 32, 0x800, 1, 0x0, fun n _ => [(PE_STATUS_RUN n), (PE_STATUS_PC n), (PE_STATUS_TX_LEVEL n), (PE_STATUS_RX_LEVEL n), (PE_STATUS_RSH_COUNT n), (PE_STATUS_TSH_COUNT n), (PE_STATUS_ILLEGAL n)]⟩,
  ⟨0x60024, 32, 0x800, 1, 0x0, fun n _ => [(PE_X_X n)]⟩,
  ⟨0x60028, 32, 0x800, 1, 0x0, fun n _ => [(PE_Y_Y n)]⟩,
  ⟨0x6002c, 32, 0x800, 1, 0x0, fun n _ => [(PE_COUNTS_A_UNDERRUN_CNT n), (PE_COUNTS_A_OVERRUN_CNT n)]⟩,
  ⟨0x60030, 32, 0x800, 1, 0x0, fun n _ => [(PE_COUNTS_B_COLLIDE_CNT n), (PE_COUNTS_B_TXDROP_CNT n)]⟩,
  ⟨0x60034, 32, 0x800, 1, 0x0, fun n _ => [(PE_COUNTS_C_FLUSH_CNT n)]⟩,
  ⟨0x60038, 32, 0x800, 1, 0x0, fun n _ => [(PE_LAST_FLUSH_COUNT n)]⟩,
  ⟨0x60040, 32, 0x800, 1, 0x0, fun n _ => [(PE_TXQ_WORD n)]⟩,
  ⟨0x60044, 32, 0x800, 1, 0x0, fun n _ => [(PE_RXQ_WORD n)]⟩,
  ⟨0x60048, 32, 0x800, 1, 0x0, fun n _ => [(PE_RXQ_INFO_COUNT n), (PE_RXQ_INFO_FLUSHED n), (PE_RXQ_INFO_VALID n)]⟩,
  ⟨0x60050, 32, 0x800, 1, 0x0, fun n _ => [(PE_IRQ_EN_EN n)]⟩,
  ⟨0x60054, 32, 0x800, 1, 0x0, fun n _ => [(PE_IRQ_STAT_SIGNAL n), (PE_IRQ_STAT_UNDERRUN n), (PE_IRQ_STAT_OVERRUN n), (PE_IRQ_STAT_FLUSH n), (PE_IRQ_STAT_ILLEGAL n), (PE_IRQ_STAT_COLLIDE n), (PE_IRQ_STAT_TXDROP n), (PE_IRQ_STAT_TX_LOW n), (PE_IRQ_STAT_RX_HIGH n)]⟩,
  ⟨0x60100, 32, 0x800, 64, 0x4, fun n k => [(PE_INSTR_WORD n k)]⟩,
  ⟨0x60780, 32, 0x800, 1, 0x0, fun n _ => [(PE_GFLAGS_FLAGS n)]⟩]

def rows07 : List RegRow := [
  ⟨0x70000, 1, 0x0, 1, 0x0, fun _ _ => [RIG_CTRL_ACTIVE_SEL, RIG_CTRL_LOAD, RIG_CTRL_ACCEPT, RIG_CTRL_CLEAR]⟩,
  ⟨0x70004, 1, 0x0, 1, 0x0, fun _ _ => [RIG_LOAD_ADDR_ADDR]⟩,
  ⟨0x70008, 1, 0x0, 1, 0x0, fun _ _ => [RIG_LOAD_LEN_LEN]⟩,
  ⟨0x7000c, 1, 0x0, 1, 0x0, fun _ _ => [RIG_STATUS_ACTIVE, RIG_STATUS_STATE_A, RIG_STATUS_STATE_B, RIG_STATUS_SWAP_REFUSED, RIG_STATUS_REJECT]⟩,
  ⟨0x70010, 1, 0x0, 1, 0x0, fun _ _ => [RIG_SLOT_BASE_A_BASE]⟩,
  ⟨0x70014, 1, 0x0, 1, 0x0, fun _ _ => [RIG_SLOT_BASE_B_BASE]⟩,
  ⟨0x70020, 2, 0x10, 1, 0x0, fun n _ => [(RIG_SLOT_SEQ_ARB_SEQ n)]⟩,
  ⟨0x70024, 2, 0x10, 1, 0x0, fun n _ => [(RIG_SLOT_IMGVER_IMG_VER n)]⟩,
  ⟨0x70028, 2, 0x10, 1, 0x0, fun n _ => [(RIG_SLOT_LEVEL_CREW_LEVEL n)]⟩,
  ⟨0x70040, 1, 0x0, 1, 0x0, fun _ _ => [RIG_IRQ_EN_EN]⟩,
  ⟨0x70044, 1, 0x0, 1, 0x0, fun _ _ => [RIG_IRQ_STAT_LOADED, RIG_IRQ_STAT_REJECTED, RIG_IRQ_STAT_SWAP, RIG_IRQ_STAT_SWAP_REFUSED]⟩,
  ⟨0x71000, 1, 0x0, 1, 0x0, fun _ _ => [TXN_BEGIN_HANDLE]⟩,
  ⟨0x71004, 1, 0x0, 1, 0x0, fun _ _ => [TXN_CMD_HANDLE, TXN_CMD_OP]⟩,
  ⟨0x71008, 1, 0x0, 1, 0x0, fun _ _ => [TXN_LAST_RESULT]⟩,
  ⟨0x7100c, 1, 0x0, 1, 0x0, fun _ _ => [TXN_COUNTS_STALE_CNT, TXN_COUNTS_WARM_LOSS_CNT]⟩,
  ⟨0x71010, 1, 0x0, 1, 0x0, fun _ _ => [TXN_IRQ_EN_EN]⟩,
  ⟨0x71014, 1, 0x0, 1, 0x0, fun _ _ => [TXN_IRQ_STAT_APPLIED, TXN_IRQ_STAT_STALE, TXN_IRQ_STAT_REFUSED]⟩,
  ⟨0x71100, 8, 0x20, 1, 0x0, fun n _ => [(TXN_CTX_AT_LO_AT_LO n)]⟩,
  ⟨0x71104, 8, 0x20, 1, 0x0, fun n _ => [(TXN_CTX_AT_HI_AT_HI n)]⟩,
  ⟨0x71108, 8, 0x20, 1, 0x0, fun n _ => [(TXN_CTX_AT_NS_NS n)]⟩,
  ⟨0x7110c, 8, 0x20, 1, 0x0, fun n _ => [(TXN_CTX_STATUS_STATE n), (TXN_CTX_STATUS_OVF n), (TXN_CTX_STATUS_DEPTH n), (TXN_CTX_STATUS_GEN n), (TXN_CTX_STATUS_OWNER n), (TXN_CTX_STATUS_WHEN n)]⟩]

def rows08_0 : List RegRow := [
  ⟨0x80000, 1, 0x0, 1, 0x0, fun _ _ => [CREW_CTRL_ENABLE, CREW_CTRL_ROLLCALL, CREW_CTRL_RAISE_LEVEL, CREW_CTRL_REKEY]⟩,
  ⟨0x80004, 1, 0x0, 1, 0x0, fun _ _ => [CREW_CFG_LEAD_PRIO, CREW_CFG_SD_WORDS, CREW_CFG_ENCRYPT, CREW_CFG_CC_PREP]⟩,
  ⟨0x80008, 1, 0x0, 1, 0x0, fun _ _ => [CREW_QUAL_QUAL_S]⟩,
  ⟨0x8000c, 1, 0x0, 1, 0x0, fun _ _ => [CREW_GATE_PHASE_GATE_NS, CREW_GATE_FREQ_GATE_PPB]⟩,
  ⟨0x80010, 1, 0x0, 1, 0x0, fun _ _ => [CREW_SCORE_CFG_QUAR_SCORE, CREW_SCORE_CFG_QUAR_HOLD_S, CREW_SCORE_CFG_PHASE_EN, CREW_SCORE_CFG_FREQ_EN]⟩,
  ⟨0x80014, 1, 0x0, 1, 0x0, fun _ _ => [CREW_SIGMA_PS_SIGMA]⟩,
  ⟨0x80018, 1, 0x0, 1, 0x0, fun _ _ => [CREW_LEVEL_AT_LO_SEC_LO]⟩,
  ⟨0x8001c, 1, 0x0, 1, 0x0, fun _ _ => [CREW_LEVEL_AT_HI_SEC_HI]⟩,
  ⟨0x80020, 1, 0x0, 1, 0x0, fun _ _ => [CREW_STATUS_ROLE, CREW_STATUS_MY_ID, CREW_STATUS_UP_PORT, CREW_STATUS_HOPS, CREW_STATUS_ADMITTED, CREW_STATUS_SD_DENIED, CREW_STATUS_REFUSED, CREW_STATUS_CREW_QUAL, CREW_STATUS_MEMBERS]⟩,
  ⟨0x80024, 1, 0x0, 1, 0x0, fun _ _ => [CREW_LEVEL_CUR, CREW_LEVEL_TARGET]⟩,
  ⟨0x80028, 1, 0x0, 1, 0x0, fun _ _ => [CREW_LEVEL_SPAN_MIN, CREW_LEVEL_SPAN_MAX]⟩,
  ⟨0x8002c, 1, 0x0, 1, 0x0, fun _ _ => [CREW_LEAD_SER_LO_LO]⟩,
  ⟨0x80030, 1, 0x0, 1, 0x0, fun _ _ => [CREW_LEAD_SER_HI_HI]⟩,
  ⟨0x80034, 1, 0x0, 1, 0x0, fun _ _ => [CREW_OFFSET_PS_OFFSET]⟩,
  ⟨0x80038, 1, 0x0, 1, 0x0, fun _ _ => [CREW_PATH_NS_PATH]⟩,
  ⟨0x8003c, 1, 0x0, 1, 0x0, fun _ _ => [CREW_SCORE_SCORE, CREW_SCORE_QUAR_24H, CREW_SCORE_HOLD_REMAIN]⟩,
  ⟨0x80040, 4, 0x10, 1, 0x0, fun n _ => [(CREW_PORT_CFG_EN n), (CREW_PORT_CFG_ASYM_PS n)]⟩,
  ⟨0x80044, 4, 0x10, 1, 0x0, fun n _ => [(CREW_PORT_STAT_STATE n), (CREW_PORT_STAT_DELAY_NS n)]⟩,
  ⟨0x80048, 4, 0x10, 1, 0x0, fun n _ => [(CREW_PORT_COUNTS_AUTH_FAIL_CNT n), (CREW_PORT_COUNTS_DROP_CNT n)]⟩,
  ⟨0x8004c, 4, 0x10, 1, 0x0, fun n _ => [(CREW_PORT_IRQ_EN n), (CREW_PORT_IRQ_LINK n), (CREW_PORT_IRQ_AUTH n)]⟩,
  ⟨0x80080, 1, 0x0, 1, 0x0, fun _ _ => [CREW_COUNTS_GEN_DISCARD_CNT, CREW_COUNTS_ABSENT_CNT]⟩,
  ⟨0x80084, 1, 0x0, 1, 0x0, fun _ _ => [CREW_CC_CTRL_BEGIN]⟩,
  ⟨0x80088, 1, 0x0, 1, 0x0, fun _ _ => [CREW_CC_STATUS_STATE, CREW_CC_STATUS_OUTCOME, CREW_CC_STATUS_CTID]⟩,
  ⟨0x8008c, 1, 0x0, 1, 0x0, fun _ _ => [CREW_CC_COUNTS_ABORT_CNT, CREW_CC_COUNTS_ORPHAN_CNT]⟩]

def rows08_1 : List RegRow := [
  ⟨0x80090, 1, 0x0, 1, 0x0, fun _ _ => [CREW_IRQ_EN_EN]⟩,
  ⟨0x80094, 1, 0x0, 1, 0x0, fun _ _ => [CREW_IRQ_STAT_CAUSE]⟩,
  ⟨0x800a0, 1, 0x0, 1, 0x0, fun _ _ => [CREW_RA_DEST_ID, CREW_RA_DEST_BCAST, CREW_RA_DEST_IN_CC]⟩,
  ⟨0x800a4, 1, 0x0, 1, 0x0, fun _ _ => [CREW_RA_ADDR_ADDR]⟩,
  ⟨0x800a8, 1, 0x0, 1, 0x0, fun _ _ => [CREW_RA_DATA_DATA]⟩,
  ⟨0x800ac, 1, 0x0, 1, 0x0, fun _ _ => [CREW_RA_CTRL_GO, CREW_RA_CTRL_WRITE, CREW_RA_CTRL_RESULT, CREW_RA_CTRL_BUSY]⟩,
  ⟨0x800b0, 1, 0x0, 1, 0x0, fun _ _ => [CREW_DB_TX_DEST, CREW_DB_TX_BCAST, CREW_DB_TX_INDEX, CREW_DB_TX_GO]⟩,
  ⟨0x800b4, 1, 0x0, 1, 0x0, fun _ _ => [CREW_DB_DATA_DATUM]⟩,
  ⟨0x800b8, 1, 0x0, 1, 0x0, fun _ _ => [CREW_DB_ALLOW_LO_ALLOW]⟩,
  ⟨0x800bc, 1, 0x0, 1, 0x0, fun _ _ => [CREW_DB_ALLOW_HI_ALLOW]⟩,
  ⟨0x80100, 16, 0x4, 1, 0x0, fun n _ => [(CREW_SD_TX_WORD n)]⟩,
  ⟨0x80200, 32, 0x4, 1, 0x0, fun n _ => [(CREW_SD_STALE_STALE n)]⟩,
  ⟨0x81000, 1024, 0x4, 1, 0x0, fun n _ => [(CREW_ROSTER_PRESENT n), (CREW_ROSTER_SD n), (CREW_ROSTER_HOPS n), (CREW_ROSTER_LVL_MAX n)]⟩]

def rows08 : List RegRow := rows08_0 ++ rows08_1

def rows09_0 : List RegRow := [
  ⟨0x90000, 4, 0x4000, 1, 0x0, fun n _ => [(ETH_CTRL_ENABLE n), (ETH_CTRL_RETRAIN n)]⟩,
  ⟨0x90004, 4, 0x4000, 1, 0x0, fun n _ => [(ETH_CFG_PCS n), (ETH_CFG_FEC n), (ETH_CFG_AN_EN n)]⟩,
  ⟨0x90008, 4, 0x4000, 1, 0x0, fun n _ => [(ETH_STATUS_LINK n), (ETH_STATUS_RXCLK_OK n), (ETH_STATUS_SPEED_NA n), (ETH_STATUS_ESMC_FAILED n)]⟩,
  ⟨0x9000c, 4, 0x4000, 1, 0x0, fun n _ => [(ETH_TS_TX_PS_CORR n)]⟩,
  ⟨0x90010, 4, 0x4000, 1, 0x0, fun n _ => [(ETH_TS_RX_PS_CORR n)]⟩,
  ⟨0x90020, 4, 0x4000, 1, 0x0, fun n _ => [(ETH_PTP_CFG_ROLE n), (ETH_PTP_CFG_PROFILE n), (ETH_PTP_CFG_DOMAIN n), (ETH_PTP_CFG_TWO_STEP n), (ETH_PTP_CFG_TRK n), (ETH_PTP_CFG_TRK_EN n), (ETH_PTP_CFG_LEAP_FOLLOW n), (ETH_PTP_CFG_ENCAP n), (ETH_PTP_CFG_DAVG_LOG2 n), (ETH_PTP_CFG_LOCAL_PRIO n)]⟩,
  ⟨0x90024, 4, 0x4000, 1, 0x0, fun n _ => [(ETH_PTP_RATE_LOG_SYNC n), (ETH_PTP_RATE_LOG_DREQ n), (ETH_PTP_RATE_LOG_ANN n), (ETH_PTP_RATE_RESP_WAIT_MS n), (ETH_PTP_RATE_ANN_TMO n)]⟩,
  ⟨0x90028, 4, 0x4000, 1, 0x0, fun n _ => [(ETH_AUTH_EN n), (ETH_AUTH_REQUIRE n), (ETH_AUTH_SPP n)]⟩,
  ⟨0x9002c, 4, 0x4000, 1, 0x0, fun n _ => [(ETH_PORT_STATE_STATE n), (ETH_PORT_STATE_PARENT_DISTRUST n)]⟩,
  ⟨0x90030, 4, 0x4000, 1, 0x0, fun n _ => [(ETH_OFFSET_PS_OFFSET n)]⟩,
  ⟨0x90034, 4, 0x4000, 1, 0x0, fun n _ => [(ETH_PATH_PS_DELAY n)]⟩,
  ⟨0x90038, 4, 0x4000, 1, 0x0, fun n _ => [(ETH_PARENT_LO_ID_LO n)]⟩,
  ⟨0x9003c, 4, 0x4000, 1, 0x0, fun n _ => [(ETH_PARENT_HI_ID_HI n)]⟩,
  ⟨0x90040, 4, 0x4000, 1, 0x0, fun n _ => [(ETH_PARENT_INFO_GM_CLASS n), (ETH_PARENT_INFO_STEPS n), (ETH_PARENT_INFO_PORT_NO n)]⟩,
  ⟨0x90050, 4, 0x4000, 1, 0x0, fun n _ => [(ETH_ESMC_CFG_ESMC_TX n), (ETH_ESMC_CFG_EXT_TLV n), (ETH_ESMC_CFG_OVR_EN n), (ETH_ESMC_CFG_OVR_SSM n), (ETH_ESMC_CFG_OVR_ESSM n)]⟩,
  ⟨0x90054, 4, 0x4000, 1, 0x0, fun n _ => [(ETH_ESMC_STAT_SSM_RX n), (ETH_ESMC_STAT_ESSM_RX n), (ETH_ESMC_STAT_SSM_TX n), (ETH_ESMC_STAT_ESSM_TX n)]⟩,
  ⟨0x90060, 4, 0x4000, 1, 0x0, fun n _ => [(ETH_HOST_CFG_RX_DMA n), (ETH_HOST_CFG_TX_DMA n), (ETH_HOST_CFG_RX_EN n), (ETH_HOST_CFG_TX_EN n), (ETH_HOST_CFG_RATE_MBPS n)]⟩,
  ⟨0x90064, 4, 0x4000, 1, 0x0, fun n _ => [(ETH_MAC_LO_MAC_LO n)]⟩,
  ⟨0x90068, 4, 0x4000, 1, 0x0, fun n _ => [(ETH_MAC_HI_MAC_HI n)]⟩,
  ⟨0x9006c, 4, 0x4000, 1, 0x0, fun n _ => [(ETH_COUNTS_A_AUTH_FAIL_CNT n), (ETH_COUNTS_A_GEN_DISCARD_CNT n)]⟩,
  ⟨0x90070, 4, 0x4000, 1, 0x0, fun n _ => [(ETH_COUNTS_B_LATE_MEAS n), (ETH_COUNTS_B_UNSUPP_CNT n), (ETH_COUNTS_B_HOST_DROP_CNT n)]⟩,
  ⟨0x90080, 4, 0x4000, 1, 0x0, fun n _ => [(ETH_IRQ_EN_EN n)]⟩,
  ⟨0x90084, 4, 0x4000, 1, 0x0, fun n _ => [(ETH_IRQ_STAT_LINK n), (ETH_IRQ_STAT_PORT_STATE n), (ETH_IRQ_STAT_PARENT n), (ETH_IRQ_STAT_AUTH n), (ETH_IRQ_STAT_GEN n), (ETH_IRQ_STAT_QL n), (ETH_IRQ_STAT_HOST_DROP n), (ETH_IRQ_STAT_PROFILE_CONFLICT n)]⟩,
  ⟨0x90200, 1, 0x0, 1, 0x0, fun _ _ => [ETH_CLK_CFG_PRIO1, ETH_CLK_CFG_PRIO2, ETH_CLK_CFG_TIME_SOURCE, ETH_CLK_CFG_SLAVE_ONLY, ETH_CLK_CFG_QL_MIN]⟩]

def rows09_1 : List RegRow := [
  ⟨0x90204, 1, 0x0, 1, 0x0, fun _ _ => [ETH_CLK_ID_LO_ID_LO]⟩,
  ⟨0x90208, 1, 0x0, 1, 0x0, fun _ _ => [ETH_CLK_ID_HI_ID_HI]⟩]

def rows09 : List RegRow := rows09_0 ++ rows09_1

def rows0A : List RegRow := [
  ⟨0xa0000, 1, 0x0, 1, 0x0, fun _ _ => [KEEL_VER_ROM_ROM_VER]⟩,
  ⟨0xa0004, 1, 0x0, 1, 0x0, fun _ _ => [KEEL_VER_PATCH_PATCH_VER]⟩,
  ⟨0xa0008, 1, 0x0, 1, 0x0, fun _ _ => [KEEL_PATCH_SEQ_ARB_SEQ]⟩,
  ⟨0xa000c, 1, 0x0, 1, 0x0, fun _ _ => [KEEL_STATUS_STAGE, KEEL_STATUS_REJECT, KEEL_STATUS_INSTALLED, KEEL_STATUS_MATCH_EN, KEEL_STATUS_STACK_MAX, KEEL_STATUS_RESTARTED, KEEL_STATUS_PATCH_ERR, KEEL_STATUS_STACK_CLR]⟩,
  ⟨0xa0010, 1, 0x0, 1, 0x0, fun _ _ => [KEEL_PLOAD_ADDR_ADDR]⟩,
  ⟨0xa0014, 1, 0x0, 1, 0x0, fun _ _ => [KEEL_PLOAD_LEN_LEN]⟩,
  ⟨0xa0018, 1, 0x0, 1, 0x0, fun _ _ => [KEEL_PCTRL_LOAD, KEEL_PCTRL_INSTALL, KEEL_PCTRL_ACCEPT, KEEL_PCTRL_CLEAR]⟩,
  ⟨0xa0020, 1, 0x0, 1, 0x0, fun _ _ => [KEEL_LOAD_LOAD_PM, KEEL_LOAD_PEAK_PM, KEEL_LOAD_CLEAR]⟩,
  ⟨0xa0024, 1, 0x0, 1, 0x0, fun _ _ => [KEEL_COUNTS_TRAP_CNT, KEEL_COUNTS_RESTART_CNT]⟩,
  ⟨0xa0028, 1, 0x0, 1, 0x0, fun _ _ => [KEEL_FAULT_UPC, KEEL_FAULT_CAUSE, KEEL_FAULT_CLASS]⟩,
  ⟨0xa002c, 1, 0x0, 1, 0x0, fun _ _ => [KEEL_CFG_DB_IDX, KEEL_CFG_DB_EN]⟩,
  ⟨0xa0040, 1, 0x0, 1, 0x0, fun _ _ => [KEEL_PRAM_ADDR_INDEX]⟩,
  ⟨0xa0050, 5, 0x4, 1, 0x0, fun n _ => [(KEEL_PRAM_DATA_DATA n)]⟩,
  ⟨0xa0100, 64, 0x4, 1, 0x0, fun n _ => [(KEEL_MATCH_ROM_ADDR n), (KEEL_MATCH_TARGET n), (KEEL_MATCH_EN n)]⟩]

def rows0B : List RegRow := [
  ⟨0xb0000, 1024, 0x4, 1, 0x0, fun n _ => [(IRQ_SRC_CFG_PRIO n), (IRQ_SRC_CFG_TARGET n), (IRQ_SRC_CFG_EN n), (IRQ_SRC_CFG_SENSE n), (IRQ_SRC_CFG_WAKE n), (IRQ_SRC_CFG_VEC n)]⟩,
  ⟨0xb1000, 32, 0x4, 1, 0x0, fun n _ => [(IRQ_PEND_PEND n)]⟩,
  ⟨0xb2000, 11, 0x40, 1, 0x0, fun n _ => [(IRQ_T_CTRL_EN n), (IRQ_T_CTRL_MSIX n)]⟩,
  ⟨0xb2004, 11, 0x40, 1, 0x0, fun n _ => [(IRQ_T_ACK_SOURCE n), (IRQ_T_ACK_PRIO n)]⟩,
  ⟨0xb2008, 11, 0x40, 1, 0x0, fun n _ => [(IRQ_T_EOI_EOI n)]⟩,
  ⟨0xb200c, 11, 0x40, 1, 0x0, fun n _ => [(IRQ_T_STATUS_CAND n), (IRQ_T_STATUS_DEPTH n), (IRQ_T_STATUS_RUNPRI n), (IRQ_T_STATUS_WAKE n)]⟩,
  ⟨0xb2010, 11, 0x40, 1, 0x0, fun n _ => [(IRQ_T_COUNTS_SPURIOUS_CNT n), (IRQ_T_COUNTS_EOI_EMPTY_CNT n)]⟩,
  ⟨0xb3000, 1, 0x0, 1, 0x0, fun _ _ => [IRQ_DB_RING_INDEX, IRQ_DB_RING_DATUM]⟩,
  ⟨0xb3004, 1, 0x0, 1, 0x0, fun _ _ => [IRQ_DB_COUNTS_OVR_CNT, IRQ_DB_COUNTS_DENIED_CNT]⟩,
  ⟨0xb3100, 63, 0x4, 1, 0x0, fun n _ => [(IRQ_DB_DATA_DATUM n), (IRQ_DB_DATA_RINGER n)]⟩]

def rows0C : List RegRow := [
  ⟨0xc0000, 1, 0x0, 1, 0x0, fun _ _ => [DMA_ACTIVE_ACTIVE]⟩,
  ⟨0xc0100, 16, 0x40, 1, 0x0, fun n _ => [(DMA_CFG_PACE n), (DMA_CFG_LSRC n), (DMA_CFG_ON n), (DMA_CFG_OFF n), (DMA_CFG_EV_CH n), (DMA_CFG_EV_CHAIN n), (DMA_CFG_CHAIN_SRC n), (DMA_CFG_PRIO n)]⟩,
  ⟨0xc0104, 16, 0x40, 1, 0x0, fun n _ => [(DMA_BURST_BYTES n)]⟩,
  ⟨0xc0108, 16, 0x40, 1, 0x0, fun n _ => [(DMA_DESC_ADDR n)]⟩,
  ⟨0xc010c, 16, 0x40, 1, 0x0, fun n _ => [(DMA_CTRL_START n), (DMA_CTRL_STOP n), (DMA_CTRL_COUNT_CLEAR n)]⟩,
  ⟨0xc0110, 16, 0x40, 1, 0x0, fun n _ => [(DMA_STATUS_STATE n), (DMA_STATUS_GEN n), (DMA_STATUS_LAST_RESULT n), (DMA_STATUS_REQ n), (DMA_STATUS_EV_COUNT n), (DMA_STATUS_RESET n)]⟩,
  ⟨0xc0114, 16, 0x40, 1, 0x0, fun n _ => [(DMA_CUR_ADDR n)]⟩,
  ⟨0xc0118, 16, 0x40, 1, 0x0, fun n _ => [(DMA_DONE_BYTES_BYTES n)]⟩,
  ⟨0xc011c, 16, 0x40, 1, 0x0, fun n _ => [(DMA_COUNTS_A_DESC_CNT n), (DMA_COUNTS_A_ERR_CNT n)]⟩,
  ⟨0xc0120, 16, 0x40, 1, 0x0, fun n _ => [(DMA_COUNTS_B_EV_OVF_CNT n), (DMA_COUNTS_B_LATE_CNT n)]⟩,
  ⟨0xc0124, 16, 0x40, 1, 0x0, fun n _ => [(DMA_IRQ_EN_EN n)]⟩,
  ⟨0xc0128, 16, 0x40, 1, 0x0, fun n _ => [(DMA_IRQ_STAT_DONE n), (DMA_IRQ_STAT_CHAIN_END n), (DMA_IRQ_STAT_ERR n), (DMA_IRQ_STAT_CHK_FAIL n), (DMA_IRQ_STAT_EV_OVF n)]⟩]

def rows0D : List RegRow := [
  ⟨0xd0000, 4, 0x40, 1, 0x0, fun n _ => [(CHK_CFG_CODE n)]⟩,
  ⟨0xd0004, 4, 0x40, 1, 0x0, fun n _ => [(CHK_CTRL_GO n), (CHK_CTRL_INIT n)]⟩,
  ⟨0xd0008, 4, 0x40, 1, 0x0, fun n _ => [(CHK_SCAN_ADDR_ADDR n)]⟩,
  ⟨0xd000c, 4, 0x40, 1, 0x0, fun n _ => [(CHK_SCAN_LEN_LEN n)]⟩,
  ⟨0xd0010, 4, 0x40, 1, 0x0, fun n _ => [(CHK_VALUE_VALUE n)]⟩,
  ⟨0xd0014, 4, 0x40, 1, 0x0, fun n _ => [(CHK_RESULT_RESULT n)]⟩,
  ⟨0xd0018, 4, 0x40, 1, 0x0, fun n _ => [(CHK_STATUS_BUSY n), (CHK_STATUS_OWNER_DMA n), (CHK_STATUS_OWNER n), (CHK_STATUS_RESIDUE_OK n), (CHK_STATUS_LAST_FAIL n)]⟩,
  ⟨0xd001c, 4, 0x40, 1, 0x0, fun n _ => [(CHK_COUNTS_FAIL_CNT n), (CHK_COUNTS_REFUSED_CNT n)]⟩,
  ⟨0xd0020, 4, 0x40, 1, 0x0, fun n _ => [(CHK_IRQ_EN_EN n)]⟩,
  ⟨0xd0024, 4, 0x40, 1, 0x0, fun n _ => [(CHK_IRQ_STAT_SCAN_DONE n), (CHK_IRQ_STAT_FAIL n), (CHK_IRQ_STAT_REFUSED n)]⟩]

def rows0E : List RegRow := [
  ⟨0xe0000, 1, 0x0, 1, 0x0, fun _ _ => [MEM_CTRL_SCRUB_EN, MEM_CTRL_MOORED_SR, MEM_CTRL_TRAIN]⟩,
  ⟨0xe0004, 1, 0x0, 1, 0x0, fun _ _ => [MEM_SCRUB_INTERVAL]⟩,
  ⟨0xe0008, 1, 0x0, 1, 0x0, fun _ _ => [MEM_BUSY_PCIE, MEM_BUSY_SPI, MEM_BUSY_I2C, MEM_BUSY_DMA, MEM_BUSY_KEEL, MEM_BUSY_TRUST, MEM_BUSY_ETH, MEM_BUSY_CREW, MEM_BUSY_CE]⟩,
  ⟨0xe0010, 1, 0x0, 1, 0x0, fun _ _ => [MEM_COLL_COLL_CNT, MEM_COLL_BANK, MEM_COLL_PORT_A, MEM_COLL_PORT_B, MEM_COLL_WW]⟩,
  ⟨0xe0014, 1, 0x0, 1, 0x0, fun _ _ => [MEM_COLL_ADDR_ADDR]⟩,
  ⟨0xe0018, 1, 0x0, 1, 0x0, fun _ _ => [MEM_SRAM_ECC_CE_CNT, MEM_SRAM_ECC_UE_CNT]⟩,
  ⟨0xe001c, 1, 0x0, 1, 0x0, fun _ _ => [MEM_SRAM_UE_ADDR_ADDR]⟩,
  ⟨0xe0020, 1, 0x0, 1, 0x0, fun _ _ => [MEM_DRAM_CFG_DENSITY, MEM_DRAM_CFG_ECC_EN, MEM_DRAM_CFG_RATE]⟩,
  ⟨0xe0024, 1, 0x0, 1, 0x0, fun _ _ => [MEM_DRAM_CAP_CAP_MIB]⟩,
  ⟨0xe0028, 1, 0x0, 1, 0x0, fun _ _ => [MEM_DRAM_STAT_TRAINED, MEM_DRAM_STAT_DERATE, MEM_DRAM_STAT_CLEAR, MEM_DRAM_STAT_MAXLAT_NS]⟩,
  ⟨0xe0030, 1, 0x0, 1, 0x0, fun _ _ => [MEM_DRAM_ECC_CE_CNT, MEM_DRAM_ECC_UE_CNT]⟩,
  ⟨0xe0034, 1, 0x0, 1, 0x0, fun _ _ => [MEM_DRAM_UE_ADDR_ADDR]⟩,
  ⟨0xe0038, 1, 0x0, 1, 0x0, fun _ _ => [MEM_SLOT_DENY_SLOT_DENY_CNT]⟩,
  ⟨0xe003c, 1, 0x0, 1, 0x0, fun _ _ => [MEM_IRQ_EN_EN]⟩,
  ⟨0xe0040, 1, 0x0, 1, 0x0, fun _ _ => [MEM_IRQ_STAT_COLL, MEM_IRQ_STAT_SRAM_CE, MEM_IRQ_STAT_SRAM_UE, MEM_IRQ_STAT_DRAM_CE, MEM_IRQ_STAT_DRAM_UE, MEM_IRQ_STAT_SLOT_DENY, MEM_IRQ_STAT_DERATE]⟩]

def rows0F : List RegRow := [
  ⟨0xf0000, 1, 0x0, 1, 0x0, fun _ _ => [HOST_PCIE_STAT_LINK_UP, HOST_PCIE_STAT_SPEED, HOST_PCIE_STAT_WIDTH, HOST_PCIE_STAT_BME, HOST_PCIE_STAT_MSIX_EN, HOST_PCIE_STAT_FUNC_MASK]⟩,
  ⟨0xf0004, 1, 0x0, 1, 0x0, fun _ _ => [HOST_PCIE_CFG_MAX_SPEED, HOST_PCIE_CFG_L1_EN]⟩,
  ⟨0xf0010, 3, 0x4, 1, 0x0, fun n _ => [(HOST_ACC_ERR_BADSIZE_CNT n), (HOST_ACC_ERR_UNMAPPED_CNT n)]⟩,
  ⟨0xf0020, 1, 0x0, 1, 0x0, fun _ _ => [HOST_SPI_CFG_DUMMY]⟩,
  ⟨0xf0024, 1, 0x0, 1, 0x0, fun _ _ => [HOST_SPI_STAT_LATE_CNT, HOST_SPI_STAT_PARTIAL_CNT]⟩,
  ⟨0xf0030, 1, 0x0, 1, 0x0, fun _ _ => [HOST_I2C_CFG_ADDR, HOST_I2C_CFG_PEC_EN]⟩,
  ⟨0xf0034, 1, 0x0, 1, 0x0, fun _ _ => [HOST_I2C_STAT_PEC_ERR_CNT, HOST_I2C_STAT_TIMEOUT_CNT]⟩,
  ⟨0xf0040, 1, 0x0, 1, 0x0, fun _ _ => [HOST_QSPI_CFG_DIV]⟩,
  ⟨0xf0044, 1, 0x0, 1, 0x0, fun _ _ => [HOST_QSPI_CMD_OPCODE, HOST_QSPI_CMD_LANES, HOST_QSPI_CMD_ADDR_BYTES, HOST_QSPI_CMD_DUMMY, HOST_QSPI_CMD_DIR, HOST_QSPI_CMD_LEN, HOST_QSPI_CMD_GO]⟩,
  ⟨0xf0048, 1, 0x0, 1, 0x0, fun _ _ => [HOST_QSPI_ADDR_ADDR]⟩,
  ⟨0xf004c, 1, 0x0, 1, 0x0, fun _ _ => [HOST_QSPI_STAT_BUSY, HOST_QSPI_STAT_DISCARD_CNT]⟩,
  ⟨0xf0060, 1, 0x0, 1, 0x0, fun _ _ => [HOST_UART_CFG_BAUD, HOST_UART_CFG_KEEL_LOG]⟩,
  ⟨0xf0064, 1, 0x0, 1, 0x0, fun _ _ => [HOST_UART_DATA_BYTE, HOST_UART_DATA_VALID]⟩,
  ⟨0xf0068, 1, 0x0, 1, 0x0, fun _ _ => [HOST_UART_STAT_TX_LEVEL, HOST_UART_STAT_RX_LEVEL, HOST_UART_STAT_TX_DROP_CNT, HOST_UART_STAT_RX_OVR_CNT]⟩,
  ⟨0xf0800, 32, 0x10, 1, 0x0, fun n _ => [(HOST_MSIX_ADDR_LO_ADDR_LO n)]⟩,
  ⟨0xf0804, 32, 0x10, 1, 0x0, fun n _ => [(HOST_MSIX_ADDR_HI_ADDR_HI n)]⟩,
  ⟨0xf0808, 32, 0x10, 1, 0x0, fun n _ => [(HOST_MSIX_DATA_DATA n)]⟩,
  ⟨0xf080c, 32, 0x10, 1, 0x0, fun n _ => [(HOST_MSIX_VCTRL_MASK n)]⟩,
  ⟨0xf0a00, 1, 0x0, 1, 0x0, fun _ _ => [HOST_MSIX_PBA_PEND]⟩,
  ⟨0xf0100, 64, 0x4, 1, 0x0, fun n _ => [(HOST_QSPI_BUF_DATA n)]⟩]

def rows10_0 : List RegRow := [
  ⟨0x100000, 256, 0x100, 1, 0x0, fun n _ => [(CH_CTRL_FLUSH n), (CH_CTRL_FIFO_CLEAR n), (CH_CTRL_COUNT_CLEAR n)]⟩,
  ⟨0x100004, 256, 0x100, 1, 0x0, fun n _ => [(CH_CFG_IDLE n), (CH_CFG_KEEP_ALIVE n), (CH_CFG_STALE_EN n), (CH_CFG_STALE_MEMBER n)]⟩,
  ⟨0x100008, 256, 0x100, 1, 0x0, fun n _ => [(CH_STARVE_LIMIT n), (CH_STARVE_ACTION n)]⟩,
  ⟨0x10000c, 256, 0x100, 1, 0x0, fun n _ => [(CH_CAP_CFG_MEAS n), (CH_CAP_CFG_EDGE n), (CH_CAP_CFG_TDC_REQ n), (CH_CAP_CFG_ALWAYS n), (CH_CAP_CFG_PARTNER n)]⟩,
  ⟨0x100010, 256, 0x100, 1, 0x0, fun n _ => [(CH_PHASE_REF_POS n)]⟩,
  ⟨0x100014, 256, 0x100, 1, 0x0, fun n _ => [(CH_SKEW_OUT_SKEW n), (CH_SKEW_IN_SKEW n)]⟩,
  ⟨0x100018, 256, 0x100, 1, 0x0, fun n _ => [(CH_PULSE_WIDTH_WIDTH n)]⟩,
  ⟨0x10001c, 256, 0x100, 1, 0x0, fun n _ => [(CH_TRAIN_PER_LO_PER_LO n)]⟩,
  ⟨0x100020, 256, 0x100, 1, 0x0, fun n _ => [(CH_TRAIN_PER_HI_PER_HI n)]⟩,
  ⟨0x100024, 256, 0x100, 1, 0x0, fun n _ => [(CH_TRAIN_HIGH_HIGH n)]⟩,
  ⟨0x100030, 256, 0x100, 1, 0x0, fun n _ => [(CH_STATUS_LEVEL n), (CH_STATUS_DRIVEN n), (CH_STATUS_TRAIN_RUN n), (CH_STATUS_CAP_OPEN n), (CH_STATUS_STARVED n), (CH_STATUS_FALLBACK n), (CH_STATUS_TDC_ACTIVE n), (CH_STATUS_KA_RUN n), (CH_STATUS_QDEPTH n), (CH_STATUS_FIFO_DEPTH n), (CH_STATUS_GEN n)]⟩,
  ⟨0x100034, 256, 0x100, 1, 0x0, fun n _ => [(CH_COUNTS_A_OVERFLOW_CNT n), (CH_COUNTS_A_REFUSED_CNT n)]⟩,
  ⟨0x100038, 256, 0x100, 1, 0x0, fun n _ => [(CH_COUNTS_B_STARVE_CNT n), (CH_COUNTS_B_FLUSH_CNT n)]⟩,
  ⟨0x10003c, 256, 0x100, 1, 0x0, fun n _ => [(CH_COUNT_LIVE_COUNT n)]⟩,
  ⟨0x100040, 256, 0x100, 1, 0x0, fun n _ => [(CH_IRQ_EN_EN n)]⟩,
  ⟨0x100044, 256, 0x100, 1, 0x0, fun n _ => [(CH_IRQ_STAT_FIRE n), (CH_IRQ_STAT_RAISE n), (CH_IRQ_STAT_SPLIT n), (CH_IRQ_STAT_OVERFLOW n), (CH_IRQ_STAT_STARVE n), (CH_IRQ_STAT_DROP n), (CH_IRQ_STAT_FALLBACK n), (CH_IRQ_STAT_KA_END n)]⟩,
  ⟨0x100048, 256, 0x100, 1, 0x0, fun n _ => [(CH_SPLIT_CFG_STREAM n), (CH_SPLIT_CFG_DMA_CH n)]⟩,
  ⟨0x100050, 256, 0x100, 1, 0x0, fun n _ => [(CH_HEV_SEC_LO_SEC_LO n)]⟩,
  ⟨0x100054, 256, 0x100, 1, 0x0, fun n _ => [(CH_HEV_SEC_HI_SEC_HI n), (CH_HEV_SEC_HI_FRAC n)]⟩,
  ⟨0x100058, 256, 0x100, 1, 0x0, fun n _ => [(CH_HEV_NS_NS n)]⟩,
  ⟨0x10005c, 256, 0x100, 1, 0x0, fun n _ => [(CH_HEV_WORD_PARAM n), (CH_HEV_WORD_FLAGS n), (CH_HEV_WORD_ACTION n)]⟩,
  ⟨0x100060, 256, 0x100, 1, 0x0, fun n _ => [(CH_HEV_CTRL_GO n), (CH_HEV_CTRL_DONE n), (CH_HEV_CTRL_LATE n), (CH_HEV_CTRL_FULL n)]⟩,
  ⟨0x100070, 256, 0x100, 1, 0x0, fun n _ => [(CH_REP_PERIOD_PERIOD_NS n)]⟩,
  ⟨0x100074, 256, 0x100, 1, 0x0, fun n _ => [(CH_REP_PHASE_PHASE_NS n)]⟩]

def rows10_1 : List RegRow := [
  ⟨0x100080, 256, 0x100, 8, 0x4, fun n k => [(CH_REP_EV_OFFSET_NS n k), (CH_REP_EV_ACT n k)]⟩,
  ⟨0x1000e0, 256, 0x100, 8, 0x4, fun n k => [(CH_SPLIT_WORD n k)]⟩]

def rows10 : List RegRow := rows10_0 ++ rows10_1

def rows11 : List RegRow := [
  ⟨0x110000, 1, 0x0, 1, 0x0, fun _ _ => [TRUST_STATUS_LC, TRUST_STATUS_GOOD, TRUST_STATUS_BUSY, TRUST_STATUS_BH_PERMIT, TRUST_STATUS_LC_REPAIR, TRUST_STATUS_KS_ERR]⟩,
  ⟨0x110004, 1, 0x0, 1, 0x0, fun _ _ => [TRUST_SERIAL_LO_LO]⟩,
  ⟨0x110008, 1, 0x0, 1, 0x0, fun _ _ => [TRUST_SERIAL_HI_HI]⟩,
  ⟨0x110010, 1, 0x0, 1, 0x0, fun _ _ => [TRUST_CMD_OP]⟩,
  ⟨0x110014, 1, 0x0, 1, 0x0, fun _ _ => [TRUST_ARG_ADDR_ADDR]⟩,
  ⟨0x110018, 1, 0x0, 1, 0x0, fun _ _ => [TRUST_ARG_LEN_LEN]⟩,
  ⟨0x11001c, 1, 0x0, 1, 0x0, fun _ _ => [TRUST_RESULT_CODE, TRUST_RESULT_OUT_LEN]⟩,
  ⟨0x110020, 1, 0x0, 1, 0x0, fun _ _ => [TRUST_POLICY_MIN_ALG, TRUST_POLICY_ENDORSE, TRUST_POLICY_CREW_LOCK]⟩,
  ⟨0x110030, 4, 0x4, 1, 0x0, fun n _ => [(TRUST_KEYSLOT_STATE n), (TRUST_KEYSLOT_ALGS n)]⟩,
  ⟨0x110040, 1, 0x0, 1, 0x0, fun _ _ => [TRUST_COUNTER_RIG_VALUE]⟩,
  ⟨0x110044, 1, 0x0, 1, 0x0, fun _ _ => [TRUST_COUNTER_PATCH_VALUE]⟩,
  ⟨0x110048, 1, 0x0, 1, 0x0, fun _ _ => [TRUST_COUNTER_TOKEN_VALUE]⟩,
  ⟨0x11004c, 1, 0x0, 1, 0x0, fun _ _ => [TRUST_KEYINFO_CREW_KEY, TRUST_KEYINFO_SA_COUNT]⟩,
  ⟨0x110050, 6, 0x4, 1, 0x0, fun n _ => [(TRUST_TAMP_CFG_EN n), (TRUST_TAMP_CFG_POL n), (TRUST_TAMP_CFG_RESPONSE n), (TRUST_TAMP_CFG_DEBOUNCE n)]⟩,
  ⟨0x110070, 1, 0x0, 1, 0x0, fun _ _ => [TRUST_TAMP_STAT_LATCH]⟩,
  ⟨0x110080, 1, 0x0, 1, 0x0, fun _ _ => [TRUST_CFG_DB_IDX, TRUST_CFG_DB_EN]⟩,
  ⟨0x110084, 1, 0x0, 1, 0x0, fun _ _ => [TRUST_IRQ_EN_EN]⟩,
  ⟨0x110088, 1, 0x0, 1, 0x0, fun _ _ => [TRUST_IRQ_STAT_CMD_DONE, TRUST_IRQ_STAT_LC, TRUST_IRQ_STAT_QUAR, TRUST_IRQ_STAT_AUTH, TRUST_IRQ_STAT_KS_ERR, TRUST_IRQ_STAT_LC_REPAIR]⟩,
  ⟨0x110100, 64, 0x8, 1, 0x0, fun n _ => [(TRUST_SA_ID_KEYID n)]⟩,
  ⟨0x110104, 64, 0x8, 1, 0x0, fun n _ => [(TRUST_SA_INFO_SPP n), (TRUST_SA_INFO_VALID n)]⟩]

def rows12 : List RegRow := [
  ⟨0x120000, 1, 0x0, 1, 0x0, fun _ _ => [LOG_STATUS_READY, LOG_STATUS_WRAPPED]⟩,
  ⟨0x120004, 1, 0x0, 1, 0x0, fun _ _ => [LOG_JHEAD_INDEX]⟩,
  ⟨0x120008, 1, 0x0, 1, 0x0, fun _ _ => [LOG_JCOUNT_COUNT]⟩,
  ⟨0x12000c, 1, 0x0, 1, 0x0, fun _ _ => [LOG_RD_ADDR_OFFSET]⟩,
  ⟨0x120010, 1, 0x0, 1, 0x0, fun _ _ => [LOG_RD_DATA_DATA]⟩,
  ⟨0x120014, 1, 0x0, 1, 0x0, fun _ _ => [LOG_WEAR_WEAR_PM]⟩,
  ⟨0x120020, 1, 0x0, 1, 0x0, fun _ _ => [LOG_IRQ_EN_EN]⟩,
  ⟨0x120024, 1, 0x0, 1, 0x0, fun _ _ => [LOG_IRQ_STAT_ENTRY, LOG_IRQ_STAT_CRC_ERR, LOG_IRQ_STAT_WEAR]⟩]

def rows13 : List RegRow := [
  ⟨0x130000, 1, 0x0, 1, 0x0, fun _ _ => [MON_CTRL_SCAN_EN]⟩,
  ⟨0x130004, 1, 0x0, 1, 0x0, fun _ _ => [MON_ALARM_AIN, MON_ALARM_SUP]⟩,
  ⟨0x130008, 1, 0x0, 1, 0x0, fun _ _ => [MON_ALARM_MASK_MASK]⟩,
  ⟨0x13000c, 1, 0x0, 1, 0x0, fun _ _ => [MON_IRQ_EN_EN]⟩,
  ⟨0x130010, 1, 0x0, 1, 0x0, fun _ _ => [MON_IRQ_STAT_ONSET]⟩,
  ⟨0x130014, 1, 0x0, 1, 0x0, fun _ _ => [MON_COUNTS_TRIG_OVR_CNT]⟩,
  ⟨0x130020, 4, 0x4, 1, 0x0, fun n _ => [(MON_TEMP_TEMP n), (MON_TEMP_VALID n)]⟩,
  ⟨0x130100, 16, 0x10, 1, 0x0, fun n _ => [(MON_AIN_CFG_SCAN n), (MON_AIN_CFG_ALARM_EN n), (MON_AIN_CFG_DEBOUNCE n)]⟩,
  ⟨0x130104, 16, 0x10, 1, 0x0, fun n _ => [(MON_AIN_LIMIT_LO n), (MON_AIN_LIMIT_HI n)]⟩,
  ⟨0x130108, 16, 0x10, 1, 0x0, fun n _ => [(MON_AIN_RESULT_CODE n), (MON_AIN_RESULT_VALID n), (MON_AIN_RESULT_TRIG n)]⟩,
  ⟨0x13010c, 16, 0x10, 1, 0x0, fun n _ => [(MON_AIN_STAMP_PT n)]⟩,
  ⟨0x130200, 16, 0x8, 1, 0x0, fun n _ => [(MON_SUP_VALUE_MV n)]⟩,
  ⟨0x130204, 16, 0x8, 1, 0x0, fun n _ => [(MON_SUP_WIN_LO_MV n), (MON_SUP_WIN_HI_MV n)]⟩]

def rows14 : List RegRow := [
  ⟨0x140000, 1, 0x0, 1, 0x0, fun _ _ => [BIST_CTRL_EN, BIST_CTRL_FULL, BIST_CTRL_STRUCT]⟩,
  ⟨0x140004, 1, 0x0, 1, 0x0, fun _ _ => [BIST_CFG_GAP, BIST_CFG_PASS_S]⟩,
  ⟨0x140008, 1, 0x0, 1, 0x0, fun _ _ => [BIST_STATUS_STATE, BIST_STATUS_UUT0, BIST_STATUS_UUT1, BIST_STATUS_PRECOND_OK]⟩,
  ⟨0x14000c, 1, 0x0, 1, 0x0, fun _ _ => [BIST_COUNTS_PASS_CNT, BIST_COUNTS_FAIL_CNT]⟩,
  ⟨0x140010, 1, 0x0, 1, 0x0, fun _ _ => [BIST_COUNTS2_PRECOND_CNT, BIST_COUNTS2_ABANDON_CNT]⟩,
  ⟨0x140014, 1, 0x0, 1, 0x0, fun _ _ => [BIST_COUNTS3_UNTESTED, BIST_COUNTS3_STRUCT_DENY_CNT]⟩,
  ⟨0x140018, 1, 0x0, 1, 0x0, fun _ _ => [BIST_IRQ_EN_EN]⟩,
  ⟨0x14001c, 1, 0x0, 1, 0x0, fun _ _ => [BIST_IRQ_STAT_FAIL, BIST_IRQ_STAT_PASS_DONE, BIST_IRQ_STAT_FULL_DONE, BIST_IRQ_STAT_UNTESTED]⟩,
  ⟨0x140040, 11, 0x4, 1, 0x0, fun n _ => [(BIST_MASK_MASK n)]⟩,
  ⟨0x140080, 11, 0x4, 1, 0x0, fun n _ => [(BIST_FAIL_FAIL n)]⟩]

def rows15 : List RegRow := [
  ⟨0x150000, 1, 0x0, 1, 0x0, fun _ _ => [PWR_MODE_TARGET, PWR_MODE_CUR, PWR_MODE_PENDING]⟩,
  ⟨0x150004, 1, 0x0, 1, 0x0, fun _ _ => [PWR_MOOR_CFG_WAKE_MODE, PWR_MOOR_CFG_PPS_EN]⟩,
  ⟨0x150008, 1, 0x0, 1, 0x0, fun _ _ => [PWR_WAKE_CFG_TIMER_EN, PWR_WAKE_CFG_PERST_EN, PWR_WAKE_CFG_GTIO1_EN, PWR_WAKE_CFG_GTIO1_POL]⟩,
  ⟨0x15000c, 1, 0x0, 1, 0x0, fun _ _ => [PWR_WAKE_AT_LO_SEC_LO]⟩,
  ⟨0x150010, 1, 0x0, 1, 0x0, fun _ _ => [PWR_WAKE_AT_HI_SEC_HI]⟩,
  ⟨0x150014, 1, 0x0, 1, 0x0, fun _ _ => [PWR_STATUS_WAKE_WON, PWR_STATUS_DENIED, PWR_STATUS_TRIP, PWR_STATUS_WARN, PWR_STATUS_HOT, PWR_STATUS_WAKE_SRC, PWR_STATUS_WAKE_IRQ, PWR_STATUS_TEMP]⟩,
  ⟨0x150018, 1, 0x0, 1, 0x0, fun _ _ => [PWR_THERM_WARN_C, PWR_THERM_HOT_C, PWR_THERM_STEP_DOWN]⟩,
  ⟨0x15001c, 1, 0x0, 1, 0x0, fun _ _ => [PWR_COUNTS_DENIED_CNT, PWR_COUNTS_COMMIT_LOSS]⟩,
  ⟨0x150020, 1, 0x0, 1, 0x0, fun _ _ => [PWR_IRQ_EN_EN]⟩,
  ⟨0x150024, 1, 0x0, 1, 0x0, fun _ _ => [PWR_IRQ_STAT_MODE, PWR_IRQ_STAT_DENIED, PWR_IRQ_STAT_WAKE_WON, PWR_IRQ_STAT_WARN, PWR_IRQ_STAT_HOT, PWR_IRQ_STAT_TRIP]⟩]

def rows16 : List RegRow := [
  ⟨0x160000, 64, 0x20, 1, 0x0, fun n _ => [(SKW_CH_CMP_LO_T_LO n)]⟩,
  ⟨0x160004, 64, 0x20, 1, 0x0, fun n _ => [(SKW_CH_CMP_HI_T_HI n)]⟩,
  ⟨0x160008, 64, 0x20, 1, 0x0, fun n _ => [(SKW_CH_CTL_ACT n), (SKW_CH_CTL_IRQ_EN n), (SKW_CH_CTL_CAP_EDGE n), (SKW_CH_CTL_GO n)]⟩,
  ⟨0x16000c, 64, 0x20, 1, 0x0, fun n _ => [(SKW_CH_STAT_DONE n), (SKW_CH_STAT_LATE n), (SKW_CH_STAT_FULL n), (SKW_CH_STAT_CAP_VALID n), (SKW_CH_STAT_LEVEL n)]⟩,
  ⟨0x160010, 64, 0x20, 1, 0x0, fun n _ => [(SKW_CH_CAP_LO_C_LO n)]⟩,
  ⟨0x160014, 64, 0x20, 1, 0x0, fun n _ => [(SKW_CH_CAP_HI_C_HI n)]⟩,
  ⟨0x160800, 1, 0x0, 1, 0x0, fun _ _ => [SKW_ID_ID]⟩,
  ⟨0x160804, 1, 0x0, 1, 0x0, fun _ _ => [SKW_TIME_LO_T_LO]⟩,
  ⟨0x160808, 1, 0x0, 1, 0x0, fun _ _ => [SKW_TIME_HI_T_HI]⟩,
  ⟨0x16080c, 1, 0x0, 1, 0x0, fun _ _ => [SKW_IRQ_PEND_LO_PEND]⟩,
  ⟨0x160810, 1, 0x0, 1, 0x0, fun _ _ => [SKW_IRQ_PEND_HI_PEND]⟩,
  ⟨0x160814, 1, 0x0, 1, 0x0, fun _ _ => [SKW_IRQ_VEC_VEC]⟩,
  ⟨0x160818, 1, 0x0, 1, 0x0, fun _ _ => [SKW_IRQ_DONE_DONE]⟩,
  ⟨0x16081c, 1, 0x0, 1, 0x0, fun _ _ => [SKW_CTRL_IRQ_OUT]⟩]

/-- The register rows of a 64 KiB block of the address map (R33). -/
def blockRows : Nat → List RegRow
  | 0x0 => rows00
  | 0x1 => rows01
  | 0x2 => rows02
  | 0x3 => rows03
  | 0x4 => rows04
  | 0x5 => rows05
  | 0x6 => rows06
  | 0x7 => rows07
  | 0x8 => rows08
  | 0x9 => rows09
  | 0xa => rows0A
  | 0xb => rows0B
  | 0xc => rows0C
  | 0xd => rows0D
  | 0xe => rows0E
  | 0xf => rows0F
  | 0x10 => rows10
  | 0x11 => rows11
  | 0x12 => rows12
  | 0x13 => rows13
  | 0x14 => rows14
  | 0x15 => rows15
  | 0x16 => rows16
  | _ => []

/-- The fields of the register at an address; none where the address is reserved (R34). -/
def fieldsAt (addr : Nat) : List Field := findRow addr (blockRows (addr / 0x10000))

end Sys2Proof.Machine
end

