-- ==== Sys2Proof/Machine/Ops.lean ====
section
/-!
DEFINITION. Sys2Proof/Machine/Ops.lean: the named operations over the state: reads and writes of canonical lists,
register fields, unit tables, memory bytes, read latches, split FIFOs, and the arithmetic the chapters share.
-/
namespace Sys2Proof.Machine

/-- A number for each master, used as a latch key and as TXN.CTX.OWNER (R309). -/
def Master.num : Master → Nat
  | .pcie => 0 | .spi => 1 | .i2c => 2 | .keel => 3 | .crew => 4 | .trust => 5 | .dma => 6 | .eth => 7
  | .ce n => 8 + n

/-! ### Canonical lists

Comparisons are written with the Boolean tests of Nat, which Lean's kernel computes in one step. -/

/-- The value at key `k`; an unlisted key reads `d`. -/
def aget {α : Type} (d : α) (k : Nat) : List (Nat × α) → α
  | [] => d
  | (a, v) :: r => bif Nat.beq a k then v else aget d k r

/-- Insert or replace the entry of key `k`, keys rising. -/
def aput {α : Type} (k : Nat) (v : α) : List (Nat × α) → List (Nat × α)
  | [] => [(k, v)]
  | (a, w) :: r => bif Nat.blt k a then (k, v) :: (a, w) :: r else bif Nat.beq k a then (k, v) :: r else (a, w) :: aput k v r

/-- Remove key `k`. -/
def adel {α : Type} (k : Nat) : List (Nat × α) → List (Nat × α)
  | [] => []
  | (a, w) :: r => bif Nat.beq a k then adel k r else (a, w) :: adel k r

/-- Write in canonical form: a value equal to what an unlisted key reads as removes the entry. -/
def awrite {α : Type} [DecidableEq α] (d : α) (k : Nat) (v : α) (l : List (Nat × α)) : List (Nat × α) :=
  if v = d then adel k l else aput k v l

/-- The canonical form: keys strictly rising above `lo`, no entry equal to `d`. -/
def Canon {α : Type} [DecidableEq α] (d : α) : List (Nat × α) → Bool
  | [] => true
  | [(_, v)] => decide (v ≠ d)
  | (a, v) :: (b, w) :: r => decide (v ≠ d) && decide (a < b) && Canon d ((b, w) :: r)

/-! ### Register fields -/

/-- The store key of a field: its register's byte address and its lowest bit. -/
def Field.key (f : Field) : Nat := f.addr * 32 + f.lo

/-- The value of a register field. -/
def Dev.get (d : Dev) (f : Field) : Nat := aget f.reset f.key d.regs

/-- A one-bit field as a truth value. -/
def Dev.on (d : Dev) (f : Field) : Bool := d.get f == 1

/-- A field read as a two's complement number. -/
def Dev.gets (d : Dev) (f : Field) : Int := toSigned f.w (d.get f)

/-- Store a value, cut to the field's width, in a register field. -/
def Dev.set (d : Dev) (f : Field) (v : Nat) : Dev := { d with regs := awrite f.reset f.key (v % 2 ^ f.w) d.regs }

/-- Store a signed value. -/
def Dev.sets (d : Dev) (f : Field) (i : Int) : Dev := d.set f (ofSigned f.w i)

/-- Store a truth value. -/
def Dev.setB (d : Dev) (f : Field) (b : Bool) : Dev := d.set f (b2n b)

/-- Count up, saturating at the field's largest value. -/
def Dev.inc (d : Dev) (f : Field) : Dev := d.set f (if d.get f + 1 < 2 ^ f.w then d.get f + 1 else 2 ^ f.w - 1)

/-- Add, saturating at the field's largest value. -/
def Dev.addSat (d : Dev) (f : Field) (n : Nat) : Dev := d.set f (min (d.get f + n) (2 ^ f.w - 1))

/-- Store a count, saturating at the field's largest value. -/
def Dev.setSat (d : Dev) (f : Field) (v : Nat) : Dev := d.set f (min v (2 ^ f.w - 1))

/-- Set bit `i` of a field that holds one bit per cause or instance. -/
def Dev.setBit (d : Dev) (f : Field) (i : Nat) : Dev := if bit (d.get f) i then d else d.set f (d.get f + 2 ^ i)

/-- Clear bit `i` of such a field. -/
def Dev.clrBit (d : Dev) (f : Field) (i : Nat) : Dev := if bit (d.get f) i then d.set f (d.get f - 2 ^ i) else d

/-- Set or clear bit `i`. -/
def Dev.putBit (d : Dev) (f : Field) (i : Nat) (b : Bool) : Dev := if b then d.setBit f i else d.clrBit f i

/-- A signed number held to the range of `w` bits without its most negative value: ±(2^(w−1) − 1). -/
def satS (w : Nat) (i : Int) : Int :=
  let m : Int := ((2 ^ (w - 1) : Nat) : Int) - 1
  if i > m then m else if i < -m then -m else i

/-- Store a signed value, saturated. -/
def Dev.setsSat (d : Dev) (f : Field) (i : Int) : Dev := d.sets f (satS f.w i)

/-- Hardware sets the bits `b` of a W1C field in this TCLK: a write that clears them in the same TCLK leaves them set (R12). -/
def Dev.mark (d : Dev) (f : Field) (b : Nat) : Dev := { d with cyc := { d.cyc with set_ := aput f.key (aget 0 f.key d.cyc.set_ ||| b) d.cyc.set_ } }

/-- Hardware sets a one-bit W1C field: a cause or an error flag. -/
def Dev.cause (d : Dev) (f : Field) : Dev := (d.set f 1).mark f 1

/-- Hardware sets bit `i` of a W1C field that holds one bit per instance. -/
def Dev.causeBit (d : Dev) (f : Field) (i : Nat) : Dev := (d.setBit f i).mark f (2 ^ i)

/-- A hardware update of an RW field: a master's write of it in the same TCLK wins (R12). -/
def Dev.update (d : Dev) (f : Field) (v : Nat) : Dev := if d.cyc.wr.contains f.key then d else d.set f v

/-! ### Per-master latches and read data -/

def latchKey (m : Master) (addr : Nat) : Nat := m.num * 0x100000000 + addr

/-- What the latch of register `addr` holds for master `m`. -/
def Dev.latched (d : Dev) (m : Master) (addr : Nat) : Nat := aget 0 (latchKey m addr) d.latch

/-- Latch a value for master `m`. -/
def Dev.latchTo (d : Dev) (m : Master) (addr v : Nat) : Dev := { d with latch := awrite 0 (latchKey m addr) v d.latch }

/-- Hand the word a read returned to its master. -/
def Dev.ret (d : Dev) (m : Master) (v : Nat) : Dev := { d with readOut := awrite 0 m.num v d.readOut }

/-- The word master `m`'s last read returned. -/
def Dev.lastRead (d : Dev) (m : Master) : Nat := aget 0 m.num d.readOut

/-- Take the index of the next free value. -/
def Dev.tick1 (d : Dev) : Dev := { d with fresh := d.fresh + 1 }

/-! ### Unit tables -/

def Dev.trkAt (d : Dev) (n : Nat) : Trk := aget {} n d.trk
def Dev.putTrk (d : Dev) (n : Nat) (t : Trk) : Dev := { d with trk := awrite {} n t d.trk }
def Dev.cntAt (d : Dev) (n : Nat) : Cnt := aget {} n d.cnt
def Dev.putCnt (d : Dev) (n : Nat) (t : Cnt) : Dev := { d with cnt := awrite {} n t d.cnt }
def Dev.listAt (d : Dev) (n : Nat) : CoxList := aget {} n d.cox.lists
def Dev.putList (d : Dev) (n : Nat) (t : CoxList) : Dev := { d with cox := { d.cox with lists := awrite {} n t d.cox.lists } }
def Dev.chAt (d : Dev) (n : Nat) : Chan := aget {} n d.ch
def Dev.putCh (d : Dev) (n : Nat) (t : Chan) : Dev := { d with ch := awrite {} n t d.ch }
def Dev.synAt (d : Dev) (n : Nat) : Syn := aget {} n d.syn
def Dev.putSyn (d : Dev) (n : Nat) (t : Syn) : Dev := { d with syn := awrite {} n t d.syn }
def Dev.gateAt (d : Dev) (n : Nat) : Gate := aget {} n d.gate
def Dev.putGate (d : Dev) (n : Nat) (t : Gate) : Dev := { d with gate := awrite {} n t d.gate }
def Dev.oscAt (d : Dev) (n : Nat) : Osc := aget {} n d.tb.oscs
def Dev.putOsc (d : Dev) (n : Nat) (t : Osc) : Dev := { d with tb := { d.tb with oscs := awrite {} n t d.tb.oscs } }

/-- Apply `f` for each index below `n`, in ascending order. -/
def forUpTo (n : Nat) (f : Nat → Dev → Dev) (d : Dev) : Dev := (List.range n).foldl (fun d i => f i d) d

/-! ### Memory bytes -/

def Mem.byte (m : Mem) (a : Nat) : Byte := aget (0 : Byte) a m
def Mem.put (m : Mem) (a : Nat) (b : Byte) : Mem := awrite (0 : Byte) a b m

/-- The little-endian number in `n` bytes at `a` (R6). -/
def Mem.read (m : Mem) (a : Nat) : Nat → Nat
  | 0 => 0
  | n + 1 => (m.byte a).toNat + 256 * Mem.read m (a + 1) n

/-- Store the low `n` bytes of `v` at `a`, little-endian (R6). -/
def Mem.write (m : Mem) (a v : Nat) : Nat → Mem
  | 0 => m
  | n + 1 => Mem.write (m.put a (BitVec.ofNat 8 v)) (a + 1) (v / 256) n

/-- The canonical form of a memory. -/
abbrev Memory.wf (m : Mem) : Bool := Canon (0 : Byte) m

/-! ### Shared arithmetic -/

/-- One nanosecond in the 2^-16 ns unit of stamps (R7). -/
def nsU : Int := 65536

/-- Quotient rounded to nearest, ties upwards (R84: ties to the later time). -/
def divRound (a : Int) (b : Nat) : Int := (2 * a + b) / (2 * (b : Int))

/-- Quotient rounded up. -/
def divCeil (a b : Nat) : Nat := (a + b - 1) / b

/-- Integer square root by bits, from bit `n` downwards, starting at `r`. -/
def isqrtFrom (v : Nat) : Nat → Nat → Nat
  | 0, r => r
  | n + 1, r => let c := r + 2 ^ n; isqrtFrom v n (if c * c ≤ v then c else r)

/-- The smallest number whose square is at least `v`, for `v` below 2^128. -/
def sqrtCeil (v : Nat) : Nat := let r := isqrtFrom v 64 0; if r * r = v then r else r + 1

/-- The time of day counter as a stamp in 2^-16 ns. -/
def Dev.nowU (d : Dev) : Int := (d.clock.now : Int) * nsU

/-- The TCLK that contains a stamp. -/
def dueOf (t : Int) : Nat := (t / nsU).toNat

/-- The stroke period in effect. -/
def Dev.period (d : Dev) : Nat := d.get SYS_STROKE_CFG_PERIOD_NS

/-- The mode in effect: 0 MOORED, 1 PADDLE, 2 STEADY, 3 RACE, 4 FORERUNNER, 5 BOATHOUSE (R496). -/
def Dev.mode (d : Dev) : Nat := d.get PWR_MODE_CUR

/-- The current cycle lies in the finish window (R24). -/
def Dev.inFinish (d : Dev) : Bool := d.clock.endAt ≤ d.clock.accept.getD d.clock.now + 64

/-- The life-cycle state: 0 BLANK, 1 OWNED, 2 FIELD, 3 SERVICE, 4 RETURNED, 5 SCRAPPED (R470). -/
def Dev.lc (d : Dev) : Nat := d.get TRUST_STATUS_LC

/-- TCLK runs: neither PORST_N nor MOORED holds it (R73, R513). -/
def Dev.tclkRuns (d : Dev) : Bool := d.clock.phase == .run || d.clock.phase == .waitFirst

/-- R24: a request is accepted, in the finish window or before it. -/
def Due.ask (x : Due) (finish : Bool) : Due := if finish then { x with late := true } else { x with soon := true }

/-- A later request of the other kind takes its place. -/
def Due.drop (x : Due) (finish : Bool) : Due := if finish then { x with late := false } else { x with soon := false }

/-- What is left of the requests after a catch. -/
def Due.age (x : Due) : Due := ⟨x.late, false⟩

/-- Device time moves forward to `t`; it never moves back. -/
def Dev.to (d : Dev) (t : Nat) : Dev := { d with clock := { d.clock with now := max d.clock.now t } }

/-! ### Split FIFOs -/

/-- The words of a split (R173): stamp in 2^-16 ns, source, kind, flags, value, secondary; SEQ is filled at the push. -/
def mkSplit (stamp : Int) (source kind flags value secondary : Nat) : Split :=
  let u := stamp.toNat
  let frac := u % 65536
  let ns := u / 65536
  let sec := ns / 1000000000
  let sub := ns % 1000000000
  { w0 := sec % 2 ^ 32, w1 := (sec / 2 ^ 32) % 65536 + 65536 * frac, w2 := sub,
    w3 := source % 65536 + 65536 * (kind % 256) + 16777216 * (flags % 256),
    w4 := value % 2 ^ 32, w5 := (value / 2 ^ 32) % 2 ^ 32, w6 := secondary % 2 ^ 32, w7 := 0 }

/-- The stamp a split carries, in 2^-16 ns (R7). -/
def Split.stampU (s : Split) : Nat :=
  ((s.w0 + 2 ^ 32 * (s.w1 % 65536)) * 1000000000 + s.w2 % 2 ^ 30) * 65536 + s.w1 / 65536

/-- Word `i` of a split. -/
def Split.word (s : Split) (i : Nat) : Nat :=
  match i with
  | 0 => s.w0 | 1 => s.w1 | 2 => s.w2 | 3 => s.w3 | 4 => s.w4 | 5 => s.w5 | 6 => s.w6 | _ => s.w7

/-- A new split takes the next sequence number; it is stored when a place is free of the eight, with OVERFLOW when
a mark is pending, and is discarded, leaving a mark, otherwise (R121, R176, R177). The flag tells whether it was stored. -/
def Fifo.push (f : Fifo) (s : Split) : Fifo × Bool :=
  let seqWord := f.seq + 2 ^ 28 * f.gen
  let f' := { f with seq := (f.seq + 1) % 2 ^ 28 }
  if f.items.length < 8 then
    let s := { s with w7 := seqWord, w3 := if f.ovf && !(bit s.w3 27) then s.w3 + 2 ^ 27 else s.w3 }
    ({ f' with items := f.items ++ [s], ovf := false }, true)
  else ({ f' with ovf := true }, false)

/-- Word `i` of the head; an empty FIFO reads 0 (R122). -/
def Fifo.peek (f : Fifo) (i : Nat) : Nat := match f.items with | [] => 0 | s :: _ => s.word i

/-- Remove the head (R122). -/
def Fifo.pop (f : Fifo) : Fifo := { f with items := f.items.tail }

end Sys2Proof.Machine
end

