-- ==== Sys2Proof/Machine/Candidate.lean ====
section
/-!
DEFINITION. Sys2Proof/Machine/Candidate.lean: the sources that are pending and the candidate of each interrupt target (R396–R398, R407,
R507).
-/
namespace Sys2Proof.Machine

/-- The pending bit of source `n` (R396). -/
def Dev.pend (d : Dev) (n : Nat) : Bool := bit (d.get (IRQ_PEND_PEND (n / 32))) (n % 32)
/-- The pending sources, rising. -/
def Dev.pendList (d : Dev) : List Nat :=
  (List.range 32).flatMap fun i =>
    let w := d.get (IRQ_PEND_PEND i)
    if w = 0 then [] else ((List.range 32).filter fun j => bit w j).map fun j => 32 * i + j

def Dev.irqStack (d : Dev) (t : Nat) : List Nat := aget [] t d.irq.prios
def Dev.putStack (d : Dev) (t : Nat) (s : List Nat) : Dev := { d with irq := { d.irq with prios := awrite [] t s d.irq.prios } }

def Dev.runPri (d : Dev) (t : Nat) : Nat := (d.irqStack t).headD 16

/-- R507: target and enable of a source in FORERUNNER; elsewhere as SRC[n].CFG gives them. -/
def Dev.srcTarget (d : Dev) (n : Nat) : Nat :=
  if d.mode = 4 then (if n < 64 then 0 else if d.get (IRQ_SRC_CFG_TARGET n) = 0 then 1 else d.get (IRQ_SRC_CFG_TARGET n))
  else d.get (IRQ_SRC_CFG_TARGET n)
def Dev.srcEn (d : Dev) (n : Nat) : Bool := if d.mode = 4 ∧ n < 64 then d.on (SKW_CH_CTL_IRQ_EN n) else d.on (IRQ_SRC_CFG_EN n)

/-- The priority that R398 uses; in FORERUNNER every PRIO acts as 0 (R407). -/
def Dev.srcPrio (d : Dev) (n : Nat) : Nat := if d.mode = 4 then 0 else d.get (IRQ_SRC_CFG_PRIO n)

/-- R398: a source is eligible for target `t`. -/
def Dev.eligible (d : Dev) (t n : Nat) : Bool := d.srcTarget n == t && d.srcEn n && decide (d.srcPrio n < d.runPri t)

/-- R398, R407: the candidate of target `t`, from the sources pending at the start of the TCLK, or 1,023. -/
def Dev.candidate (d : Dev) (t : Nat) : Nat :=
  if d.mode = 4 ∧ 1 < t then 1023
  else
    (d.pendList.foldl (fun best n =>
      if d.eligible t n && !d.cyc.newPend.contains n then
        (match best with | some b => if d.srcPrio n < d.srcPrio b then some n else best | none => some n)
      else best) none).getD 1023

end Sys2Proof.Machine
end

