-- ==== Sys2Proof/Machine/Crc.lean ====
section
/-!
DEFINITION. Sys2Proof/Machine/Crc.lean: the four check algorithms of R264, used by the control engines (CRCB, CRCW), the
check units (R426), the rig loader (R301), the patch loader (R387) and the journal (R493).
-/
namespace Sys2Proof.Machine

/-- Width in bits of an algorithm's running value (R264). -/
def crcWidth (code : Nat) : Nat := match code with | 0 => 32 | 1 => 32 | 2 => 16 | _ => 8

/-- One bit of an algorithm: codes 0 to 2 are reflected, code 3 runs most significant bit first (R264). -/
def crcBit (code v : Nat) : Nat :=
  match code with
  | 0 => if v % 2 = 1 then (v / 2) ^^^ 0xEDB88320 else v / 2
  | 1 => if v % 2 = 1 then (v / 2) ^^^ 0x82F63B78 else v / 2
  | 2 => if v % 2 = 1 then (v / 2) ^^^ 0x8408 else v / 2
  | _ => if 128 ≤ v % 256 then (2 * v % 256) ^^^ 0x07 else 2 * v % 256

def crcBits (code : Nat) : Nat → Nat → Nat
  | 0, v => v
  | n + 1, v => crcBits code n (crcBit code v)

/-- `crc_step` of R264: one byte into the running value. -/
def crcStep (code v byte : Nat) : Nat := crcBits code 8 (v ^^^ (byte % 256))

/-- A run of bytes in order. -/
def crcRun (code v : Nat) (bytes : List Nat) : Nat := bytes.foldl (crcStep code) v

def crcInit (code : Nat) : Nat := match code with | 0 => 0xFFFFFFFF | 1 => 0xFFFFFFFF | 2 => 0xFFFF | _ => 0
def crcFinal (code : Nat) : Nat := crcInit code

/-- CRC-32C of a run of bytes. -/
def crc32c (bytes : List Nat) : Nat := crcRun 1 0xFFFFFFFF bytes ^^^ 0xFFFFFFFF

/-- Residue of an algorithm (R430). -/
def crcResidue (code : Nat) : Nat := match code with | 0 => 0xDEBB20E3 | 1 => 0xB798B438 | 2 => 0xF0B8 | _ => 0

end Sys2Proof.Machine
end

