-- ==== Sys2Proof/Machine/Operands.lean ====
section
/-!
DEFINITION. Sys2Proof/Machine/Operands.lean: the operand forms of register writes: how a written value becomes the value
a field stores, under the clamp rules R15–R18, R580 and the field descriptions.
-/
namespace Sys2Proof.Machine

/-- Nearest value of `lo..hi` (R15). -/
def clampRange (lo hi v : Nat) : Nat := if v < lo then lo else if hi < v then hi else v

/-- Nearest value of a signed range, as a field value. -/
def clampSigned (w : Nat) (lo hi : Int) (v : Nat) : Nat :=
  let i := toSigned w v
  ofSigned w (if i < lo then lo else if hi < i then hi else i)

/-- Nearest lower multiple of `m` within `lo..hi`. -/
def clampStep (m lo hi v : Nat) : Nat :=
  let v := v - v % m
  if v < lo then lo else if hi < v then hi else v

/-- The numbers 2^a × 5^b with a and b at most `e`: the divisors of 10^e. -/
def tenDivisors (e : Nat) : List Nat :=
  (List.range (e + 1)).flatMap fun a => (List.range (e + 1)).map fun b => 2 ^ a * 5 ^ b

/-- Nearest lower divisor of 10^e within `lo..hi`, and `lo` below it (R17). -/
def clampDivisor (e lo hi v : Nat) : Nat :=
  (tenDivisors e).foldl (fun best x => if x ≤ v ∧ x ≤ hi ∧ best < x then x else best) lo

/-- Lowest legal stroke period of a mode (R27): PADDLE and FORERUNNER start at 20,000 ns. -/
def minPeriod (mode : Nat) : Nat := if mode = 1 ∨ mode = 4 then 20000 else 1000

/-- The stroke period that a written value gives in a mode (R17, R27). -/
def clampPeriod (mode v : Nat) : Nat := clampDivisor 9 (minPeriod mode) 1000000 v

/-- A phase position on a tracker of `teeth` teeth: a tooth index too high becomes the last, the micro-tick stays. -/
def clampPos (teeth v : Nat) : Nat := if v / 2 ^ 20 < teeth then v else (teeth - 1) * 2 ^ 20 + v % 2 ^ 20

/-- TEETH of tracker `n`. -/
def Dev.teeth (d : Dev) (n : Nat) : Nat := d.get (TRK_CFG_TEETH n)

/-- The tracker the rig image assigns to channel `n` (CHTRK of R295). -/
def Dev.chTracker (d : Dev) (n : Nat) : Option Nat :=
  match aget 0 n d.rig.chTrk with
  | 0 => none
  | t + 1 => some t

/-- The 48-bit train period of channel `n`, in 2^-16 ns. -/
def Dev.trainPer (d : Dev) (n : Nat) : Nat := d.get (CH_TRAIN_PER_LO_PER_LO n) + 2 ^ 32 * d.get (CH_TRAIN_PER_HI_PER_HI n)

/-- The legal 48-bit train period nearest to `v`. -/
def clampTrainPer (v : Nat) : Nat := clampRange 131072 65536000000000 v

/-- VCO numerator of synthesiser `n`: the output is 10^9 × (N × DEN + NUM) / (DEN × ODIV) Hz (R190). -/
def Dev.synNum (d : Dev) (n : Nat) : Nat := d.get (SYN_CFG_N n) * d.get (SYN_FRAC_DEN_DEN n) + d.get (SYN_FRAC_NUM_NUM n)

/-- Smallest ODIV giving 1.5 GHz or less, and largest giving 1 kHz or more (R191). -/
def Dev.odivLo (d : Dev) (n : Nat) : Nat := divCeil (d.synNum n * 2) (d.get (SYN_FRAC_DEN_DEN n) * 3)
def Dev.odivHi (d : Dev) (n : Nat) : Nat := d.synNum n * 1000000 / d.get (SYN_FRAC_DEN_DEN n)

/-- The largest PHASE_PS: the largest whole number of ps that is no more than one output period less 1 ps. -/
def Dev.maxPhasePs (d : Dev) (n : Nat) : Nat :=
  1000 * d.get (SYN_FRAC_DEN_DEN n) * d.get (SYN_ODIV_ODIV n) / d.synNum n - 1

/-- The value a field stores when `v` is written (R15–R18, R580). `v` is already cut to the field's width. GUARD_POS is clamped against
TEETH of the tracker that GUARD.TRK names, whatever GUARD.EN says: DESIGN CHOICE, log entry 98. -/
def Dev.clampVal (d : Dev) (f : Field) (v : Nat) : Nat :=
  match f.clamp with
  | .any => v
  | .range lo hi => clampRange lo hi v
  | .srange w lo hi => clampSigned w lo hi v
  | .step m lo hi => clampStep m lo hi v
  | .divisor of lo hi => clampDivisor (if of = 1000 then 3 else 9) lo hi v
  | .over mx tgt => if mx < v then tgt else v
  | .strokePeriod => clampPeriod d.mode v
  | .dcoSrc => if d.get (TB_OSC_CFG_ENABLE v) = 1 then v else d.get TB_STATUS_CARRIER
  | .align n => min v (d.get (TRK_REV_LEN_REV_LEN n) - 1)
  | .wclassMax n k => max v (d.get (TRK_WCLASS_MIN n k))
  | .trigPos n => clampPos (d.teeth n) v
  | .revOfs n => min v (d.get (COX_LIST_REVS_REVS n) - 1)
  | .phaseRef n => match d.chTracker n with | some t => clampPos (d.teeth t) v | none => v
  | .trainPerLo n => clampTrainPer (v + 2 ^ 32 * d.get (CH_TRAIN_PER_HI_PER_HI n)) % 2 ^ 32
  | .trainPerHi n => clampTrainPer (d.get (CH_TRAIN_PER_LO_PER_LO n) + 2 ^ 32 * v) / 2 ^ 32
  | .trainHigh n => clampRange 1024 ((d.trainPer n - 65536) / 64) v
  | .repPhase n => min v (d.get (CH_REP_PERIOD_PERIOD_NS n) - 1)
  | .fracNum n => min v (d.get (SYN_FRAC_DEN_DEN n) - 1)
  | .odiv n => clampRange (max 4 (d.odivLo n)) (min 8388607 (d.odivHi n)) v
  | .synPhase n => min v (d.maxPhasePs n)
  | .guardPos n => clampPos (d.teeth (d.get (SYN_GUARD_TRK n))) v
  | .activeSel => v
  | .fec n => if d.get (ETH_CFG_PCS n) = 3 then v else 0
  | .anEn n => if d.get (ETH_CFG_PCS n) ≤ 1 then v else 0
  | .domain n =>
    if d.get (ETH_PTP_CFG_PROFILE n) = 1 then (if 24 ≤ v ∧ v ≤ 43 then v else 24)
    else if d.get (ETH_PTP_CFG_PROFILE n) = 2 then (if 44 ≤ v ∧ v ≤ 63 then v else 44) else v
  | .encap n =>
    if d.get (ETH_PTP_CFG_PROFILE n) = 1 then (if v ≤ 1 then v else 0)
    else if d.get (ETH_PTP_CFG_PROFILE n) = 2 then (if v ≤ 1 then 2 else v) else v
  | .authReq n => if d.get (ETH_AUTH_EN n) = 1 then v else 0
  | .ploadAddr =>
    let a := v - v % 4
    if a < 0x01D00000 then 0x01D00000
    else if a ≤ 0x01EFFFFC then a
    else if 0x80000000 ≤ a then a
    else if a - 0x01EFFFFC ≤ 0x80000000 - a then 0x01EFFFFC else 0x80000000
  | .dmaOff n => min v (d.get (DMA_CFG_ON n) - 1)
  | .modeTarget => if v ≤ 5 then v else d.mode
  | .hotC => clampRange (d.get PWR_THERM_WARN_C) 125 v
  | .limitHi n => max v (d.get (MON_AIN_LIMIT_LO n))
  | .winHi n => clampRange (d.get (MON_SUP_WIN_LO_MV n)) 4000 v

/-- Clamp a field's stored value again against its governing fields (R580). -/
def Dev.reclamp (d : Dev) (f : Field) : Dev := d.set f (d.clampVal f (d.get f))

/-- Store a written value after clamping. -/
def Dev.setClamped (d : Dev) (f : Field) (v : Nat) : Dev := d.set f (d.clampVal f (v % 2 ^ f.w))

/-- The 48-bit train period is one field: clamp it as one value and let each register read back its part (R580). -/
def Dev.reclampTrain (d : Dev) (n : Nat) : Dev :=
  let p := clampTrainPer (d.trainPer n)
  ((d.set (CH_TRAIN_PER_LO_PER_LO n) (p % 2 ^ 32)).set (CH_TRAIN_PER_HI_PER_HI n) (p / 2 ^ 32)).reclamp (CH_TRAIN_HIGH_HIGH n)

end Sys2Proof.Machine
end

