-- ==== Sys2Proof/Machine/Logbook.lean ====
section
/-!
DEFINITION. Sys2Proof/Machine/Logbook.lean: the journal of the logbook (R492, R493, R495) and its read window.
-/
namespace Sys2Proof.Machine

/-- The low `n` bytes of a number, low byte first (R6). -/
def leBytes (v : Nat) : Nat → List Nat
  | 0 => []
  | n + 1 => v % 256 :: leBytes (v / 256) n

/-- The 12 bytes of a stamp (R7), from device time in 2^-16 ns. -/
def stampBytes (u : Nat) : List Nat :=
  let ns := u / 65536
  let sec := ns / 1000000000
  leBytes sec 6 ++ leBytes u 2 ++ leBytes (ns % 1000000000) 4

/-- Store a list of bytes at an address. -/
def Mem.puts (m : Mem) (a : Nat) : List Nat → Mem
  | [] => m
  | b :: r => Mem.puts (m.put a (BitVec.ofNat 8 b)) (a + 1) r

/-- `n` bytes from an address, as numbers. -/
def Mem.bytes (m : Mem) (a : Nat) : Nat → List Nat
  | 0 => []
  | n + 1 => (m.byte a).toNat :: Mem.bytes m (a + 1) n

/-- R493: a write to the logbook wears its words. The share of the most worn one never falls; it is a free value otherwise (log
entry 72). WEAR is set when it reaches 800. -/
def Dev.wear (d : Dev) : Dev :=
  let old := d.get LOG_WEAR_WEAR_PM
  let new := max old (Config.logWear d.fresh % 1001)
  let d := (d.set LOG_WEAR_WEAR_PM new).tick1
  if old < 800 ∧ 800 ≤ new then d.cause LOG_IRQ_STAT_WEAR else d

/-- Write a journal entry of a type, an instance and 12 bytes of data (R493): JHEAD and JCOUNT advance, a full ring
overwrites its oldest entry, and the ENTRY cause is set (R495). -/
def Dev.journal (d : Dev) (type inst : Nat) (data : List Nat) : Dev :=
  let head := d.get LOG_JHEAD_INDEX
  let count := d.get LOG_JCOUNT_COUNT
  let body := stampBytes (d.clock.now * 65536) ++ [type % 256, inst % 256] ++ leBytes count 2 ++ (data ++ List.replicate 12 0).take 12
  let d := { d with log := { d.log with mem := d.log.mem.puts (0x080000 + 32 * head) (body ++ leBytes (crc32c body) 4) } }
  let d := d.set LOG_JHEAD_INDEX ((head + 1) % 114688)
  let d := d.set LOG_JCOUNT_COUNT (count + 1)
  let d := if 114688 ≤ count then d.set LOG_STATUS_WRAPPED 1 else d
  (d.cause LOG_IRQ_STAT_ENTRY).wear

/-- A journal entry of a type whose 12 data bytes the spec does not lay out: they are a free value (log entry 15). -/
def Dev.journalFree (d : Dev) (type inst : Nat) : Dev :=
  (d.journal type inst (leBytes (Config.journalData d.fresh) 12)).tick1

/-- Journal entries of a type and an instance whose stamps lie within 24 h of device time (R491). -/
def Dev.journalCount (d : Dev) (type inst : Nat) : Nat :=
  (List.range (min (d.get LOG_JCOUNT_COUNT) 114688)).foldl (fun n i =>
    let a := 0x080000 + 32 * ((d.get LOG_JHEAD_INDEX + 114688 - 1 - i) % 114688)
    let at_ := d.log.mem.read a 6 * 1000000000 + d.log.mem.read (a + 8) 4
    if d.log.mem.read (a + 12) 1 = type ∧ d.log.mem.read (a + 13) 1 = inst ∧ d.clock.now ≤ at_ + 86400000000000
    then n + 1 else n) 0

/-- The logbook's time, in s: device time, or the newest journal entry's when that is later, as after a power-on (log entry 94). -/
def Dev.logTime (d : Dev) : Nat :=
  max (d.clock.now / 1000000000)
    (if d.get LOG_JCOUNT_COUNT = 0 then 0 else d.log.mem.read (0x080000 + 32 * ((d.get LOG_JHEAD_INDEX + 114687) % 114688)) 6)

/-- R495, RD_DATA: a read returns the word at OFFSET and adds 4 to OFFSET, wrapping at 4 MiB. The reserved region and the key
store read 0; a region whose layout the spec does not give returns a free value (log entry 11). -/
def Dev.logRead (d : Dev) : Nat × Dev :=
  let o := d.get LOG_RD_ADDR_OFFSET
  let v := if 0x080000 ≤ o then d.log.mem.read o 4
    else if (0x020000 ≤ o ∧ o < 0x040000) ∨ (0x070000 ≤ o) then 0
    else Config.logWord o d.fresh % 2 ^ 32
  (v, (d.set LOG_RD_ADDR_OFFSET ((o + 4) % 0x400000)).tick1)

end Sys2Proof.Machine
end

