-- ==== Sys2Proof/Machine/Bank.lean ====
section
/-!
DEFINITION. Sys2Proof/Machine/Bank.lean: the ports of the SRAM banks and what a collision does (R434–R436).
-/
namespace Sys2Proof.Machine

/-- The bank that a device byte address lies in, 0–11 (R36). -/
def bankOf (a : Nat) : Option Nat :=
  if a < 0x1000000 then none
  else if a < 0x1800000 then some ((a - 0x1000000) / 0x100000)
  else if a < 0x1C00000 then some 8
  else if a < 0x1D00000 then some 9
  else if a < 0x1F00000 then some 10
  else if a < 0x2000000 then some 11
  else none

/-- First byte address of a bank (R36). -/
def bankBase (k : Nat) : Nat :=
  if k < 8 then 0x1000000 + k * 0x100000 else if k = 8 then 0x1800000 else if k = 9 then 0x1C00000 else if k = 10 then 0x1D00000 else 0x1F00000

/-- Bytes of a bank (R36). -/
def bankSize (k : Nat) : Nat := if k = 8 then 0x400000 else if k = 10 then 0x200000 else 0x100000

/-- The port of the access fabric, and of the time wheel, on a bank (R434). -/
def fabricBankPort (k : Nat) : Nat := if k = 11 then 2 else 1
def wheelBankPort (k : Nat) : Nat := if k = 11 then 1 else 0

/-- R436: the busy indication of the master with number `m`. -/
def bankBusy (m : Nat) (d : Dev) : Dev :=
  match m with
  | 0 => d.cause MEM_BUSY_PCIE
  | 1 => d.cause MEM_BUSY_SPI
  | 2 => d.cause MEM_BUSY_I2C
  | 3 => d.cause MEM_BUSY_KEEL
  | 4 => d.cause MEM_BUSY_CREW
  | 5 => d.cause MEM_BUSY_TRUST
  | 6 => d.cause MEM_BUSY_DMA
  | 7 => d.cause MEM_BUSY_ETH
  | m => d.causeBit MEM_BUSY_CE (m - 8)

/-- R435: record a collision at word `a` between an earlier and a later port. -/
def collide (a portA portB : Nat) (ww : Bool) (d : Dev) : Dev :=
  let d := d.inc MEM_COLL_COLL_CNT
  let d := d.set MEM_COLL_BANK ((bankOf a).getD 0)
  let d := d.set MEM_COLL_PORT_A portA
  let d := d.set MEM_COLL_PORT_B portB
  let d := d.setB MEM_COLL_WW ww
  let d := d.set MEM_COLL_ADDR_ADDR a
  d.cause MEM_IRQ_STAT_COLL

/-- R435: a read that has already been made in this TCLK turns out to have met a write: what it returned becomes a free value. -/
def spoilRead (u : BankUse) (d : Dev) : Dev :=
  let v := Config.collidedRead d.fresh
  if u.dest ≠ 0 then
    let n := u.port / 16
    let e : Ce := aget {} n d.ce
    let lands := e.lands.map fun l => match l.eff with
      | .reg p _ => if p + 1 = u.dest ∧ l.unit = 3 ∧ d.clock.now ≤ l.at_ then { l with eff := .reg p (v % 65536) } else l
      | _ => l
    { d with ce := awrite {} n { e with lands := lands } d.ce }.tick1
  else if u.master ≠ 0 then (d.ret (if u.master = 1 then .pcie else if u.master = 2 then .spi else if u.master = 3 then .i2c else .dma) (v % 2 ^ 32)).tick1
  else d

/-- R435: an engine's store of this TCLK loses against a later port's write: it is not made. -/
def dropStore (u : BankUse) (d : Dev) : Dev :=
  let n := u.port / 16
  let e : Ce := aget {} n d.ce
  let lands := e.lands.filter fun l => match l.eff with
    | .mem w _ => !(2 * w == u.word && decide (d.clock.now < l.at_))
    | _ => true
  { d with ce := awrite {} n { e with lands := lands } d.ce }

/-- One access to the 16-bit word at `a` through port `u.port % 16` (R434, R435). It answers whether a read returns undefined
data, whether a write is overtaken by a later port's write of this TCLK, and the state. -/
def bankTouch (u : BankUse) (d : Dev) : Bool × Bool × Dev :=
  let uses := if d.memc.useAt = d.clock.now then d.memc.uses else []
  let hit := uses.find? fun x => x.word == u.word && x.port % 16 != u.port % 16 && (x.write || u.write)
  let d := { d with memc := { d.memc with uses := u :: uses, useAt := d.clock.now } }
  match hit with
  | none => (false, false, d)
  | some x =>
    let later := if x.port % 16 < u.port % 16 then u else x
    let ww := x.write && u.write
    let d := collide u.word (min (x.port % 16) (u.port % 16)) (max (x.port % 16) (u.port % 16)) ww d
    let d := if ww || later.master = 0 then d else bankBusy (later.master - 1) d
    let d := if u.write && !x.write then spoilRead x d else d
    let d := if ww && x.master = 0 && x.port % 16 < u.port % 16 && u.word < 0x1800000 then dropStore x d else d
    (!u.write, ww && u.port % 16 < x.port % 16, d)

/-- R438: a read that finds an error in the bank word at `a`: `kind` 1 is correctable, 2 or above uncorrectable. The word then holds raw
data until it is written again. -/
def sramErr (kind a : Nat) (d : Dev) : Dev :=
  if kind = 0 then d
  else if kind = 1 then
    let d := { d with memc := { d.memc with wb := d.memc.wb ++ [a] } }
    (d.inc MEM_SRAM_ECC_CE_CNT).cause MEM_IRQ_STAT_SRAM_CE
  else
    let w := a - a % 2
    let d := if d.memc.bad.contains w then d
      else { d with memc := { d.memc with bad := w :: d.memc.bad }, mem := d.mem.write w (Config.rawWord d.fresh % 65536) 2 }.tick1
    ((d.inc MEM_SRAM_ECC_UE_CNT).set MEM_SRAM_UE_ADDR_ADDR a).cause MEM_IRQ_STAT_SRAM_UE

/-- One of the `n` bytes at `a` lies in a bank word that holds an uncorrectable error. -/
def Dev.badIn (d : Dev) (a n : Nat) : Bool := d.memc.bad.any fun w => decide (a < w + 2) && decide (w < a + n)

/-- A write to the word at `a` renews its check bits (R437). -/
def badHeal (a : Nat) (d : Dev) : Dev :=
  if d.memc.bad.isEmpty then d else { d with memc := { d.memc with bad := d.memc.bad.erase (a - a % 2) } }

/-- The same for the words of `n` bytes from `a`. -/
def healRange (a n : Nat) (d : Dev) : Dev :=
  if d.memc.bad.isEmpty then d else { d with memc := { d.memc with bad := d.memc.bad.filter fun w => decide (w < a) || decide (a + n ≤ w) } }

/-- Read the 16-bit word at byte address `a` through a bank port. -/
def bankReadWord (a port master dest : Nat) (d : Dev) : Nat × Dev :=
  let a := a - a % 2
  let (undef, _, d) := bankTouch ⟨a, port, false, master, dest⟩ d
  let d := if d.memc.bad.contains a then sramErr 2 a d else d
  if undef then (Config.collidedRead d.fresh % 65536, d.tick1) else (d.mem.read a 2, d)

/-- Write `n` bytes (1 or 2) of the word at `a` through a bank port. -/
def bankWriteWord (a n v port master : Nat) (d : Dev) : Dev :=
  let (_, drop, d) := bankTouch ⟨a - a % 2, port, true, master, 0⟩ d
  if drop then d else badHeal a { d with mem := d.mem.write a v n }

/-- Read `n` 16-bit words upwards from the even address `a`. -/
def bankReadWords (a port master : Nat) : Nat → Dev → Nat × Dev
  | 0, d => (0, d)
  | n + 1, d =>
    let (v, d) := bankReadWord a port master 0 d
    let (w, d) := bankReadWords (a + 2) port master n d
    (v + 65536 * w, d)

/-- Write `bytes` bytes of `v` from address `a`, word by word. -/
def bankWriteBytes (port master : Nat) : Nat → Nat → Nat → Nat → Dev → Dev
  | 0, _, _, _, d => d
  | fuel + 1, a, v, bytes, d =>
    if bytes = 0 then d
    else
      let k := if a % 2 = 1 ∨ bytes = 1 then 1 else 2
      bankWriteBytes port master fuel (a + k) (v / 256 ^ k) (bytes - k) (bankWriteWord a k (v % 256 ^ k) port master d)

/-- Port 0 of the own bank of engine `n`: it carries the engine's number so that a load can be spoilt later. -/
def ownPort (n : Nat) : Nat := 16 * n

end Sys2Proof.Machine
end

