-- ==== Sys2Proof/Machine/MemCtl.lean ====
section
/-!
DEFINITION. Sys2Proof/Machine/MemCtl.lean: ECC, scrubber and DRAM port (R437–R447).
-/
namespace Sys2Proof.Machine

/-- R440: the installed capacity in MiB that DRAM_CFG gives. -/
def Dev.cfgCapMib (d : Dev) : Nat :=
  let m := 512 * 2 ^ d.get MEM_DRAM_CFG_DENSITY
  if d.on MEM_DRAM_CFG_ECC_EN then m / 8 * 7 else m

/-- R440, R441: a DRAM address that is mapped. -/
def Dev.dramMapped (d : Dev) (a : Nat) : Bool :=
  d.on MEM_DRAM_STAT_TRAINED && decide (0x80000000 ≤ a) && decide (a < 0x80000000 + d.get MEM_DRAM_CAP_CAP_MIB * 1048576)

/-- R444: the address lies in a rig slot region. -/
def Dev.inSlot (d : Dev) (a : Nat) : Bool :=
  let inS (b : Nat) : Bool := decide (b ≤ a) && decide (a < b + 0x400000)
  inS (d.get RIG_SLOT_BASE_A_BASE) || inS (d.get RIG_SLOT_BASE_B_BASE)

/-- R444: a refused write. -/
def slotDeny (d : Dev) : Dev := (d.inc MEM_SLOT_DENY_SLOT_DENY_CNT).cause MEM_IRQ_STAT_SLOT_DENY

/-- R445: the same for the DRAM word at `a`. -/
def dramErr (kind a : Nat) (d : Dev) : Dev :=
  if kind = 0 then d
  else if kind = 1 then (d.inc MEM_DRAM_ECC_CE_CNT).cause MEM_IRQ_STAT_DRAM_CE
  else ((d.inc MEM_DRAM_ECC_UE_CNT).set MEM_DRAM_UE_ADDR_ADDR a).cause MEM_IRQ_STAT_DRAM_UE

/-- An error that a read of `a` finds, in a bank or in DRAM. -/
def readErr (kind a : Nat) (d : Dev) : Dev := if 0x80000000 ≤ a then dramErr kind a d else if (bankOf a).isSome then sramErr kind a d else d

/-- Bank `k` is accessed by a port in this TCLK. -/
def Dev.bankInUse (d : Dev) (k : Nat) : Bool := decide (d.memc.useAt = d.clock.now) && d.memc.uses.any fun u => bankOf u.word == some k

/-- Corrected words of bank `k` that wait for a TCLK without a port access. -/
def Dev.wbOf (d : Dev) (k : Nat) : List Nat := d.memc.wb.filter fun a => bankOf a == some k

/-- R438: in a TCLK without a port access to bank `k` its oldest corrected word is written back. -/
def eccWriteback (k : Nat) (d : Dev) : Dev :=
  if d.bankInUse k then d
  else match d.wbOf k with
    | [] => d
    | a :: _ => { d with memc := { d.memc with wb := d.memc.wb.erase a } }

/-- The write-backs of a TCLK. -/
def eccTick (d : Dev) : Dev := if d.memc.wb.isEmpty then d else forUpTo 12 eccWriteback d

/-- The word of bank `k` that the scrubber reads at index `i`: ascending, with a wrap at the end of the bank (R439). -/
def scrubWord (k i : Nat) : Nat := bankBase k + 2 * i % bankSize k

/-- R439: the scrubber reads one word of each bank and treats errors as R438 states; `errs` gives the banks whose word shows one for the
first time, with its kind. -/
def scrub (errs : List (Nat × Nat)) (d : Dev) : Dev :=
  if !d.on MEM_CTRL_SCRUB_EN then d
  else
    let i := d.memc.scrub
    let d := (List.range 12).foldl (fun (d : Dev) k => if d.memc.bad.contains (scrubWord k i) then sramErr 2 (scrubWord k i) d else d) d
    let d := errs.foldl (fun (d : Dev) (e : Nat × Nat) => if e.1 < 12 then sramErr e.2 (scrubWord e.1 i) d else d) d
    { d with memc := { d.memc with scrub := (i + 1) % 2097152, scrubAt := d.clock.now + d.get MEM_SCRUB_INTERVAL } }

/-- The next TCLK in which the scrubber reads (log entry 103). -/
def Dev.scrubNext (d : Dev) : Option Nat := if d.on MEM_CTRL_SCRUB_EN then some (max d.clock.now d.memc.scrubAt) else none

/-- The scrubber in a TCLK: a read that finds no error of its own. -/
def scrubTick (d : Dev) : Dev := if d.clock.now < d.memc.scrubAt then d else scrub [] d

/-- R441: TRAIN has an effect in BOATHOUSE; until training is done DRAM accesses behave as R34 states. -/
def dramTrain (d : Dev) : Dev :=
  if d.mode = 5 then ({ d with memc := { d.memc with training := true } }).set MEM_DRAM_STAT_TRAINED 0 else d

/-- R440, R441: training completes: DRAM_CFG takes effect. -/
def dramTrained (d : Dev) : Dev :=
  if d.memc.training then
    (({ d with memc := { d.memc with training := false } }).set MEM_DRAM_STAT_TRAINED 1).set MEM_DRAM_CAP_CAP_MIB d.cfgCapMib
  else d

/-- R442: MR4_SAMPLE: `above` tells that the device asks for a rate above the nominal. -/
def mr4Sample (above : Bool) (d : Dev) : Dev :=
  if d.on MEM_DRAM_STAT_TRAINED then
    if above then (d.set MEM_DRAM_STAT_DERATE 1).cause MEM_IRQ_STAT_DERATE else d.set MEM_DRAM_STAT_DERATE 0
  else d

/-- R443: MAXLAT_NS after a request that took `ns`. -/
def maxLat (ns : Nat) (d : Dev) : Dev := d.setSat MEM_DRAM_STAT_MAXLAT_NS (max ns (d.get MEM_DRAM_STAT_MAXLAT_NS))

/-- R446: at entry to MOORED the banks lose their contents, and so does DRAM unless it stays in self-refresh. A lost byte reads
as one that nothing has written (log entry 3). -/
def memMoored (d : Dev) : Dev :=
  let keep := d.on MEM_CTRL_MOORED_SR
  { d with mem := d.mem.filter fun c => keep && decide (0x80000000 ≤ c.1),
           memc := { d.memc with uses := [], wb := [], bad := [], dram := [] } }

/-- MEM.CTRL.MOORED_SR 0: DRAM is trained again when MOORED is left (R446). -/
def memMooredOff (d : Dev) : Dev := if d.on MEM_CTRL_MOORED_SR then d else d.set MEM_DRAM_STAT_TRAINED 0

end Sys2Proof.Machine
end

