-- ==== Sys2Proof/Machine/Port.lean ====
section
/-!
DEFINITION. Sys2Proof/Machine/Port.lean: the master ports of the access fabric (R37, R38, R449): how requests enter it, and the requests
of the masters inside the device.
-/
namespace Sys2Proof.Machine

/-- The host interfaces take transactions: TCLK runs and no warm reset is in progress (R448, R522). -/
def Dev.hostsRun (d : Dev) : Bool := d.tclkRuns && !d.on SYS_RST_STATUS_WARM_BUSY

/-- R37: port of a master and its outstanding limit. -/
def Master.port : Master → Nat
  | .keel => 0 | .trust => 1 | .dma => 2 | .pcie => 3 | .spi => 4 | .i2c => 5 | .eth => 6 | .crew => 7 | .ce _ => 8
def portLimit (p : Nat) : Nat := match p with | 0 => 4 | 1 => 2 | 2 => 8 | 3 => 8 | 4 => 1 | 5 => 1 | 6 => 4 | _ => 4

/-- R449: a read waits until every earlier write of its interface has taken effect; R459: one of SPI also until the data of the read
before it has returned. -/
def Dev.readWaits (d : Dev) (r : FabReq) : Bool :=
  let before (a : Access) : Bool := a.master == r.acc.master && (a.write || r.acc.master == .spi)
  r.acc.master.port != 2 && !r.acc.write && (d.fab.reqs.any (fun x => before x.acc) || d.memc.dram.any fun x => before x.acc)

/-- The first waiting request enters the fabric when its port has room; it takes its age stamp (R38). Requests of one port stay in
order. No request enters during a warm reset (R522). -/
def fabEnter : Nat → Dev → Dev
  | 0, d => d
  | n + 1, d =>
    let ok (r : FabReq) : Bool :=
      decide ((d.fab.reqs.filter fun x => x.port == r.port).length < portLimit r.port) && !d.readWaits r &&
      (d.fab.wait.find? fun x => x.port == r.port) == some r
    if !d.hostsRun then d
    else match d.fab.wait.find? ok with
      | none => d
      | some r =>
        let e := { r with stamp := d.clock.now % 65536, at_ := d.clock.now }
        fabEnter n { d with fab := { d.fab with wait := d.fab.wait.erase r, reqs := d.fab.reqs ++ [e] } }

/-- An access is handed to its master's port. -/
def fabPut (a : Access) (d : Dev) : Dev :=
  fabEnter 8 { d with fab := { d.fab with wait := d.fab.wait ++ [⟨a.master.port, 0, 0, a⟩] } }

/-- R39: the pieces of `n` bytes from `a`, cut at every 64-byte boundary. -/
def pieces : Nat → Nat → Nat → List (Nat × Nat)
  | 0, _, _ => []
  | fuel + 1, a, n =>
    if n = 0 then []
    else
      let k := min n (64 - a % 64)
      (a, k) :: pieces fuel (a + k) (n - k)

/-- Change every request that waits, in the fabric or at the DRAM controller. -/
def Dev.mapReqs (d : Dev) (f : Access → Access) : Dev :=
  let g (r : FabReq) : FabReq := { r with acc := f r.acc }
  { d with
    fab := { d.fab with reqs := d.fab.reqs.map g, wait := d.fab.wait.map g }
    memc := { d.memc with dram := d.memc.dram.map fun r => { r with acc := f r.acc } } }

/-- Take the requests away that `p` names, wherever they wait. -/
def Dev.dropReqs (d : Dev) (p : Access → Bool) : Dev :=
  { d with
    fab := { d.fab with reqs := d.fab.reqs.filter (fun r => !p r.acc), wait := d.fab.wait.filter fun r => !p r.acc }
    memc := { d.memc with dram := d.memc.dram.filter fun r => !p r.acc } }

/-- How many such requests are in the fabric or at the DRAM controller. -/
def Dev.countReqs (d : Dev) (p : Access → Bool) : Nat :=
  (d.fab.reqs.filter fun r => p r.acc).length + (d.memc.dram.filter fun r => p r.acc).length

/-! ### Keel, the trust core and the Ethernet frame path (ports 0, 1, 6) -/

/-- The traffic of a service over `n` bytes from `a`: one request of at most 64 bytes after another. It occupies ports and links; the
service's own effect does not wait for it (log entry 99). -/
def fabCarry (m : Master) (a n : Nat) (d : Dev) : Dev :=
  if n = 0 then d
  else
    let k := min n (64 - a % 64)
    fabPut ⟨m, false, a, 0, k, n - k, 0⟩ d

/-- The access is one of that traffic. -/
def Access.carries (a : Access) : Bool := a.master == .keel || a.master == .trust || a.master == .eth

/-! ### DMA requests (port 2) -/

/-- What a request of the DMA engine is for. -/
inductive DmaKind where
  | data (i : Nat)   -- bytes of a burst from offset `i` of the transfer, RESULT after the last of them (R417, R429)
  | desc             -- a descriptor (R412)
  | last             -- the read-back of the last address written (R424, step 1)
  | back             -- bytes 20–31 of the descriptor (step 2)
  | status           -- the read-back of its STATUS word (step 3)
  | scan             -- a check unit's scan (R428)
deriving DecidableEq, Repr

/-- The tag of a request for unit or channel `c`, and back. -/
def DmaKind.tag (c : Nat) : DmaKind → Nat
  | .data i => c + 256 * i | .desc => c + 16 | .last => c + 32 | .back => c + 48 | .status => c + 64 | .scan => c + 80
def DmaKind.ofTag (t : Nat) : DmaKind :=
  match t / 16 % 16 with
  | 1 => .desc | 2 => .last | 3 => .back | 4 => .status | 5 => .scan | _ => .data (t / 256)

/-- The engine issues a request of `n` bytes at `a`. -/
def dmaPut (c : Nat) (k : DmaKind) (write : Bool) (a n v : Nat) (d : Dev) : Dev := fabPut ⟨.dma, write, a, v, n, k.tag c, 0⟩ d

/-- The access is one of channel `c`, but no scan. -/
def Access.ofChannel (c : Nat) (a : Access) : Bool := a.master == .dma && a.tag % 16 == c && decide (DmaKind.ofTag a.tag ≠ .scan)

/-- The access is one of the scan of unit `n`. -/
def Access.ofScan (n : Nat) (a : Access) : Bool := a.master == .dma && a.tag % 16 == n && decide (DmaKind.ofTag a.tag = .scan)

end Sys2Proof.Machine
end

