-- ==== Sys2Proof/Machine/Service.lean ====
section
/-!
DEFINITION. Sys2Proof/Machine/Service.lean: Keel's service classes (R372–R374): requests, their order, and preemption.
-/
namespace Sys2Proof.Machine

/-- Class of a service (R372). -/
def svcClass : KeelSvc → Nat
  | .rigLoad => 5 | .patchLoad => 5 | .codeCopy => 5 | .trust => 5
  | .modelSave => 4
  | .carrierChange => 2 | .timeSet => 2 | .filterUpdate => 2 | .other c => c

/-- R373: place of a request among those of its class that arrive in the same TCLK: those of the Ethernet and crew ports first, then the
internal ones in the order of the class table. -/
def svcRank : KeelSvc → Nat
  | .other _ => 0
  | .filterUpdate => 1 | .carrierChange => 2 | .timeSet => 3 | .modelSave => 4
  | .rigLoad => 5 | .patchLoad => 6 | .trust => 7 | .codeCopy => 8

/-- R375: the service ends by itself when its cost is used up; every other ends when its command says, since DRAM and MRAM accesses or a
verdict from outside the device belong to it (log entry 20). -/
def svcAuto : KeelSvc → Bool
  | .filterUpdate => true | .carrierChange => true | .timeSet => true | .modelSave => true | .other _ => true | _ => false

/-- Request `a` is served before request `b` (R373). -/
def KeelReq.before (a b : KeelReq) : Bool :=
  if svcClass a.svc ≠ svcClass b.svc then decide (svcClass a.svc < svcClass b.svc)
  else if a.at_ ≠ b.at_ then decide (a.at_ < b.at_)
  else decide (svcRank a.svc < svcRank b.svc)

/-- A request enters the queue behind those that are served before it or arrived first. -/
def keelInsert (r : KeelReq) : List KeelReq → List KeelReq
  | [] => [r]
  | q :: qs => if r.before q then r :: q :: qs else q :: keelInsert r qs

/-- The micro-PC at which Keel goes on after `upc`: a free value (log entry 93). -/
def Dev.keelPc (d : Dev) (upc : Nat) : Nat := Config.keelPc upc d.clock.now % 69632

/-- R373, R379: a service begins, after a trap whose entry takes `t` TCLK. -/
def keelStart (r : KeelReq) (q : List KeelReq) (t : Nat) (d : Dev) : Dev :=
  { d with keel := { d.keel with cur := some { r with upc := d.keelPc 69632 }, queue := q, wordEnd := d.clock.now + t } }

/-- R373, between microwords: a request of a lower class preempts the service in progress through a PREEMPT micro-trap, whose entry takes
3 TCLK; with none in progress, the service interrupted last resumes, 3 TCLK later, unless a request of a lower class waits; else the
next request starts. -/
def keelSched (d : Dev) : Dev :=
  match d.keel.cur, d.keel.queue, d.keel.frames with
  | some c, r :: q, fs =>
    if svcClass r.svc < svcClass c.svc then
      let d := { d with keel := { d.keel with frames := c :: fs } }
      keelStart r q 3 (d.set KEEL_STATUS_STACK_MAX (max (d.get KEEL_STATUS_STACK_MAX) (fs.length + 1)))
    else d
  | none, r :: q, f :: fs =>
    if svcClass r.svc < svcClass f.svc then keelStart r q 0 d
    else { d with keel := { d.keel with cur := some f, frames := fs, wordEnd := d.clock.now + 3 } }
  | none, [], f :: fs => { d with keel := { d.keel with cur := some f, frames := fs, wordEnd := d.clock.now + 3 } }
  | none, r :: q, [] => keelStart r q 0 d
  | _, _, _ => d

/-- A request arrives. -/
def keelAsk (svc : KeelSvc) (arg cost : Nat) (d : Dev) : Dev :=
  { d with keel := { d.keel with queue := keelInsert { svc := svc, arg := arg, at_ := d.clock.now, left := cost } d.keel.queue } }

/-- A service of class `cls` whose effect a command or a catch has already had: it occupies Keel for its cost (R373, R375; log
entry 20). -/
def keelWork (cls cost : Nat) (d : Dev) : Dev := keelAsk (.other cls) 0 cost d

/-- Service `svc` is in progress. -/
def Dev.keelIn (d : Dev) (svc : KeelSvc) : Bool := match d.keel.cur with | some r => decide (r.svc = svc) | none => false

/-- It has been asked for and has not ended. -/
def Dev.keelAsked (d : Dev) (svc : KeelSvc) : Bool :=
  d.keelIn svc || d.keel.frames.any (fun r => decide (r.svc = svc)) || d.keel.queue.any fun r => decide (r.svc = svc)

/-- It is in progress and its cost is used up, so that its results are committed in this TCLK (R375). -/
def Dev.keelReady (d : Dev) (svc : KeelSvc) : Bool :=
  match d.keel.cur with
  | some r => decide (r.svc = svc) && r.left == 0 && decide (d.keel.wordEnd ≤ d.clock.now)
  | none => false

/-- A request that has been withdrawn, wherever it stands. -/
def keelDrop (svc : KeelSvc) (d : Dev) : Dev :=
  let keep (r : KeelReq) : Bool := decide (r.svc ≠ svc)
  { d with keel := { d.keel with
      cur := d.keel.cur.filter keep, frames := d.keel.frames.filter keep, queue := d.keel.queue.filter keep } }

end Sys2Proof.Machine
end

