-- ==== Sys2Proof/Machine/Timebase.lean ====
section
/-!
DEFINITION. Sys2Proof/Machine/Timebase.lean: the timebase and the oscillator ensemble (R46–R78).
-/
namespace Sys2Proof.Machine

/-! ### Reads -/

/-- R47: a read of TIME_SEC_LO samples the counter and latches TIME_SEC_HI and TIME_NS for the master. -/
def readTimeSecLo (m : Master) (d : Dev) : Nat × Dev :=
  let sec := d.clock.now / 1000000000
  (sec % 2 ^ 32, (d.latchTo m 0x10014 (sec / 2 ^ 32 % 2 ^ 16)).latchTo m 0x10018 (d.clock.now % 1000000000))

/-- The upper 16 bits of a 48-bit value, sign-extended to a word (R48). -/
def signHi (v : Nat) : Nat := if v % 2 ^ 16 < 2 ^ 15 then v % 2 ^ 16 else v % 2 ^ 16 + (2 ^ 32 - 2 ^ 16)

/-- A read of FFO_LO returns the low FFO and latches FFO_HI. -/
def readFfoLo (m : Master) (d : Dev) : Nat × Dev :=
  (d.get TB_FFO_LO_FFO_LO, d.latchTo m 0x1004C (signHi (d.get TB_FFO_HI_FFO_HI)))

/-- A read of OSC[n].FREQ_LO returns the low word and latches FREQ_HI. -/
def readFreqLo (m : Master) (n : Nat) (d : Dev) : Nat × Dev :=
  (d.get (TB_OSC_FREQ_LO_FREQ_LO n), d.latchTo m (0x10110 + 0x40 * n) (signHi (d.get (TB_OSC_FREQ_HI_FREQ_HI n))))

/-! ### References -/

/-- Tracker `n` has a real tooth in its table. -/
def Dev.hasReal (d : Dev) (n : Nat) : Bool := (d.trkAt n).table.any fun e => decide (e.1 < d.teeth n) && bit e.2 48

/-- Tracker `n` is a qualified phase reference: selected, QUALIFIED and not a virtual wheel (R54, R99). -/
def Dev.trkRef (d : Dev) (n : Nat) : Bool :=
  bit (d.get TB_REF_SEL_TRK_MASK) n && d.get (TRK_STATE_STATE n) == 3 && d.hasReal n

/-- The qualified phase references, the crew upstream as 8; FORCE_HOLDOVER treats all as lost, and in MOORED TRK[0] is the only one
(R54, R56, R73). -/
def Dev.refList (d : Dev) : List Nat :=
  if d.on TB_CTRL_FORCE_HOLDOVER then []
  else ((List.range 8).filter fun n => d.trkRef n && (d.mode != 0 || n == 0)) ++
    (if d.on TB_REF_SEL_CREW_EN && d.on CREW_STATUS_CREW_QUAL && d.mode != 0 then [8] else [])

/-- R367, R371: the rank of a received SSM code: 0 PRC, 1 SSU-A, 2 SSU-B, 3 SEC; 4 for DNU and every other code. -/
def qlRank (ssm : Nat) : Nat := match ssm with | 2 => 0 | 4 => 1 | 8 => 2 | 11 => 3 | _ => 4

/-- R367: port `p` gives a frequency reference that may count as qualified. -/
def Dev.qlOk (d : Dev) (p : Nat) : Bool :=
  d.on (ETH_STATUS_RXCLK_OK p) && !d.on (ETH_STATUS_ESMC_FAILED p) &&
  decide (qlRank (d.get (ETH_ESMC_STAT_SSM_RX p)) ≤ d.get ETH_CLK_CFG_QL_MIN)

/-- R54, R120, R367: counter `c` is enabled and qualified as a frequency reference. -/
def Dev.cntRef (d : Dev) (c : Nat) : Bool :=
  let src := d.get (CNT_CFG_SRC c)
  d.on (CNT_CTRL_ENABLE c) && d.on (CNT_STATUS_QUALIFIED c) && (decide (src < 8) || decide (11 < src) || d.qlOk (src - 8))

/-- How many selected frequency references are qualified (R54, R120); none in MOORED (R73). -/
def Dev.freqRefs (d : Dev) : Nat :=
  if d.on TB_CTRL_FORCE_HOLDOVER || d.mode == 0 then 0
  else b2n (d.on TB_REF_SEL_CNTF0_EN && d.cntRef (d.get TB_REF_SEL_CNTF0)) +
    b2n (d.on TB_REF_SEL_CNTF1_EN && d.cntRef (d.get TB_REF_SEL_CNTF1))

/-- Oscillator `n` is enabled, free of fault and in the ensemble; in MOORED OSC[0] and OSC[1] are the only ones compared (R73). -/
def Dev.oscGood (d : Dev) (n : Nat) : Bool :=
  d.on (TB_OSC_CFG_ENABLE n) && !(d.oscAt n).faulty && (d.oscAt n).inEnsemble && (d.mode != 0 || decide (n < 2))

/-- No enabled oscillator is free of fault (R50). -/
def Dev.noOsc (d : Dev) : Bool := !((List.range 4).any d.oscGood)

def Dev.holdover (d : Dev) : Bool := d.get TB_STATUS_STATE == 3 || d.get TB_STATUS_STATE == 4

/-! ### The filter update -/

/-- R48: the correction range, ±36,028,797,018,964 units of 2^-56. -/
def ffoLimit : Int := 36028797018964

/-- R57: the temperature coefficients of oscillator `n` enter the prediction: it has a thermistor, and learning has seen 5 °C. -/
def Dev.tempTerm (d : Dev) (n : Nat) (m : OscModel) : Bool := d.get (TB_OSC_CFG_THERM n) != 31 && decide (5 ≤ m.spanC)

/-- R57: the coefficients that enter the prediction, by oscillator of the ensemble. -/
def Dev.predCoefs (d : Dev) : List (List Int) :=
  ((List.range 4).filter d.oscGood).map fun n =>
    match (d.oscAt n).model with
    | some m => if d.tempTerm n m then m.coef else [0, 0, 0] ++ m.coef.drop 3
    | none => []

/-- R57, R59, R68: the uncertainties that sigma(t) covers, by oscillator of the ensemble. -/
def Dev.predVars (d : Dev) : List (List Nat) :=
  ((List.range 4).filter d.oscGood).map fun n =>
    match (d.oscAt n).model with
    | some m => [m.resVar, m.freqMul, b2n (d.get (TB_OSC_CFG_THERM n) != 31 && decide (m.spanC < 5))]
    | none => [0, 1, 1]

/-- R68: sigma(t) in ps; after the loss of the crew reference with the initial phase uncertainty of R326 in it; on the internal reference for want of an oscillator, the root-sum-square of the last sigma before
the move and 100 ppm of the time since, rounded up. -/
def Dev.sigmaNow (d : Dev) : Nat :=
  if d.tb.internalRef && d.noOsc then
    divCeil (sqrtCeil (100 * d.tb.sigma0Ps ^ 2 + (d.clock.now - d.tb.internalAt) ^ 2)) 10
  else
    let s := Config.filterSigmaPs d.fresh d.predVars
    match d.tb.phase0Ps with
    | some p => sqrtCeil (p ^ 2 + s ^ 2)
    | none => s

/-- R68: the bound, in 1/1,382,400 ps: |ete| + K/16 × sigma(t) + 40 ns × t / 86,400 s. -/
def boundOf (eteAbsPs k sigmaPs t : Nat) : Nat := eteAbsPs * 1382400 + k * sigmaPs * 86400 + 640000 * t

/-- The bound in whole nanoseconds, rounded up. -/
def boundNs (bound : Nat) : Nat := divCeil bound 1382400000

/-- R55: the offset from references with the measured offsets and variances `l`: the mean weighted by the inverse of the variance. -/
def weightedOffset (l : List (Int × Nat)) : Int :=
  let prod := l.foldl (fun p x => p * max 1 x.2) 1
  let sum := l.foldl (fun s x => s + x.1 * ((prod / max 1 x.2 : Nat) : Int)) 0
  let w := l.foldl (fun s x => s + prod / max 1 x.2) 0
  divRound sum (max 1 w)

/-- R60: SLEW_LIMIT in units of 2^-56. -/
def Dev.slewLimit (d : Dev) : Nat := d.get TB_STEER_CFG_SLEW_LIMIT * 2 ^ 56 / 1000000000

/-- R60: the steering component that slews out an error: against its sign, at a rate within the limit. -/
def steerOf (err : Int) (rate limit : Nat) : Int :=
  if err = 0 then 0 else if 0 < err then -((min rate limit : Nat) : Int) else ((min rate limit : Nat) : Int)

/-- Whole nanoseconds of a number of ps, rounded toward zero (R62). -/
def psToNs (i : Int) : Int := if i < 0 then -((-i) / 1000) else i / 1000

/-- R65, R66: the one state change that an update with these figures causes: whether a phase reference is qualified, whether no
oscillator is good, |offset| in ps, the bound in 1/1,382,400 ps, and whether the offset has stayed within LOCK_THRESH for LOCK_HOLD. -/
def Dev.tbNext (d : Dev) (refs noOsc : Bool) (offAbs bound : Nat) (heldLock : Bool) : Option TbChange :=
  let s := d.get TB_STATUS_STATE
  let rec_ := d.on TB_STATUS_RECOVERING
  let thr := d.get TB_LOCK_CFG_LOCK_THRESH * 1000
  let budget := d.get TB_BUDGET_BUDGET_NS
  let breach := decide (d.tb.prevBound < offAbs * 1382400)
  if s ≠ 0 ∧ noOsc then
    (if s = 4 then none else some ⟨4, false, false, false, false, true⟩)
  else if s = 1 ∧ !refs then some (if d.tb.everLocked then ⟨4, false, true, false, false, false⟩ else ⟨0, false, false, false, false, false⟩)
  else if s = 2 ∧ !refs then some ⟨3, false, false, false, false, false⟩
  else if s = 3 ∧ rec_ ∧ !refs then some ⟨3, false, false, false, false, false⟩
  else if s = 3 ∧ budget * 1382400000 < bound then some ⟨4, false, true, false, false, false⟩
  else if s = 0 ∧ refs then some ⟨1, false, false, false, false, false⟩
  else if s = 1 ∧ refs ∧ heldLock then some ⟨2, false, false, false, false, false⟩
  else if s = 2 ∧ 4 * thr < offAbs then some ⟨1, false, false, false, false, false⟩
  else if s = 3 ∧ refs ∧ rec_ then
    (if offAbs ≤ thr then some ⟨2, false, false, false, false, false⟩
     else if budget * 1000 < offAbs then some ⟨1, false, true, true, false, false⟩ else none)
  else if s = 3 ∧ refs then
    (if offAbs ≤ thr then some ⟨2, false, breach, true, breach, false⟩
     else if offAbs ≤ budget * 1000 then some ⟨3, true, breach, true, breach, false⟩
     else some ⟨1, false, true, true, breach, false⟩)
  else if s = 4 ∧ refs then some ⟨1, false, breach, true, breach, false⟩
  else none

/-- R70: the holdover history entries of an update that requalifies a reference. -/
def Dev.writeHistory (d : Dev) (offNs : Int) : Dev :=
  let dur := match d.tb.holdFrom with | some t => (d.clock.now - t) / 1000000000 | none => 0
  let d := d.journal 0x05 0 (leBytes dur 4 ++ leBytes (boundNs d.tb.prevBound) 4 ++ leBytes (ofSigned 32 offNs) 4)
  d.journal 0x06 0 (leBytes (ofSigned 16 d.tb.tempLo) 2 ++ leBytes (ofSigned 16 d.tb.tempHi) 2)

/-- R70: the factor (offset / bound)², at most 16, on a residual variance, rounded up. -/
def inflated (resVar offAbs bound : Nat) : Nat :=
  if bound = 0 then 16 * resVar else min (16 * resVar) (divCeil (resVar * (offAbs * 1382400) ^ 2) (bound ^ 2))

/-- R70: the residual variances of every oscillator that carried weight in the holdover are inflated. -/
def inflateOscs (offAbs : Nat) (d : Dev) : Dev :=
  forUpTo 4 (fun n d =>
    let o := d.oscAt n
    match o.carried, o.model with
    | true, some m => d.putOsc n { o with model := some { m with resVar := inflated m.resVar offAbs d.tb.prevBound } }
    | _, _ => d) d

/-- R57: learning at an update while LOCKED; the coefficients are free values. Without a thermistor the temperature term is absent. -/
def learnOsc (n : Nat) (d : Dev) : Dev :=
  let o := d.oscAt n
  if d.oscGood n then
    let sec := d.logTime
    let k := d.fresh
    let therm := d.get (TB_OSC_CFG_THERM n) != 31
    let m0 : OscModel := o.model.getD { id := d.get (TB_OSC_MODEL_ID_ID n), created := sec }
    let m : OscModel := { m0 with
      updated := sec, spanC := if therm then max m0.spanC (Config.modelSpan n k) else m0.spanC,
      coef := (List.range 6).map fun j => if therm || decide (3 ≤ j) then Config.modelCoef n j k else 0,
      resVar := Config.modelVar n k }
    let d := d.putOsc n { o with model := some m }
    let d := d.set (TB_OSC_MODEL_STAT_VALID n) 1
    d.setSat (TB_OSC_MODEL_STAT_SPAN_C n) m.spanC
  else d

/-- MODEL_STAT.AGE_DAYS: the days since the model of oscillator `n` was created. -/
def ageOsc (n : Nat) (d : Dev) : Dev :=
  match (d.oscAt n).model with
  | some m => d.setSat (TB_OSC_MODEL_STAT_AGE_DAYS n) ((d.logTime - m.created) / 86400)
  | none => d

/-- What an update reports of oscillator `n`: free values for one that is in the ensemble, which carries weight in a holdover. -/
def reportOsc (n : Nat) (d : Dev) : Dev :=
  if d.oscGood n then
    let k := d.fresh
    let fr := ofSigned 48 (Config.oscFreq n k)
    let d := if d.holdover then d.putOsc n { d.oscAt n with carried := true } else d
    let d := d.sets (TB_OSC_PHASE_PS_PHASE n) (Config.oscPhase n k d.tb.comps)
    let d := d.set (TB_OSC_FREQ_LO_FREQ_LO n) (fr % 2 ^ 32)
    let d := d.set (TB_OSC_FREQ_HI_FREQ_HI n) (fr / 2 ^ 32)
    d.set (TB_OSC_WEIGHT_WEIGHT n) (min (Config.oscWeight n k) 65536)
  else d.set (TB_OSC_WEIGHT_WEIGHT n) 0

/-- R66: FREQ_ASSIST shows a qualified frequency reference in a holdover state. -/
def freqAssist (d : Dev) : Dev := d.setB TB_STATUS_FREQ_ASSIST (d.holdover && decide (d.freqRefs ≠ 0))

/-- R53: an update instant lies in the stroke that the present catch ends, or on that catch; `prev`: the device time of the catch before.
In MOORED the interval is 1,000 ms. -/
def Dev.updateDue (d : Dev) (prev : Nat) : Bool :=
  let iv := (if d.mode = 0 then 1000 else d.get TB_FILT_CFG_UPDATE_MS) * 1000000
  d.clock.now / iv != prev / iv

/-- R53, R54: what an update at this catch takes in. -/
def Dev.filterIn (d : Dev) : FilterIn := ⟨d.clock.now, d.refList, d.freqRefs, d.noOsc⟩

/-- R53, R375: at a catch at or after an update instant Keel is asked for the filter update. -/
def filterAsk (d : Dev) : Dev :=
  if d.tb.upd.isSome then d
  else
    let u := d.filterIn
    let oscs := ((List.range 4).filter fun n => d.on (TB_OSC_CFG_ENABLE n)).length
    keelAsk .filterUpdate 0 (2000 + 1200 * oscs + 800 * (u.refs.length + u.freq)) { d with tb := { d.tb with upd := some u } }

/-- R53–R70: one filter update. Its FFO and offset, a state change and a step take effect at the next catch. A recovery in
HOLDOVER_IN_BUDGET slews, it never steps (R65). -/
def filterUpdate (d : Dev) : Dev :=
  match d.tb.upd with
  | none => d
  | some u =>
    let refs := !u.refs.isEmpty
    let k := d.fresh
    let st := d.get TB_STATUS_STATE
    let offPs := if refs then weightedOffset (u.refs.map fun i => (Config.refOffsetPs i k, Config.refVar i k))
      else d.gets TB_OFFSET_NS_OFFSET * 1000
    let offAbs := offPs.natAbs
    let within := decide (offAbs ≤ d.get TB_LOCK_CFG_LOCK_THRESH * 1000)
    let lockFrom := if st = 1 ∧ refs ∧ within then some (d.tb.lockFrom.getD u.at_) else none
    let held := match lockFrom with
      | some x => decide (x + d.get TB_LOCK_CFG_LOCK_HOLD * 1000000000 ≤ u.at_)
      | none => false
    -- the state that the offset alone leads to tells which error the ETE is; the bound follows from the ETE
    let pre := match d.tbNext refs u.noOsc offAbs 0 held with | some c => c.state | none => st
    let mayStep := decide (d.get TB_STEP_THRESH_THRESH_NS * 1000 < offAbs) && refs &&
      ((d.get TB_STEER_CFG_STEP_MODE == 1 && (st == 0 || st == 1)) || d.get TB_STEER_CFG_STEP_MODE == 2)
    let stepIt := mayStep && pre != 3
    let err := if stepIt then offPs - 1000 * psToNs offPs else offPs
    let etePs := if pre = 2 then err else Config.filterEtePs k
    let sigma := d.sigmaNow
    let t := if d.holdover then (match d.tb.holdFrom with | some h => (d.clock.now - h) / 1000000000 | none => 0) else 0
    let bound := boundOf etePs.natAbs (d.get TB_ETE_CFG_K) sigma t
    let change := d.tbNext refs u.noOsc offAbs bound held
    let next := match change with | some c => c.state | none => st
    let steer := steerOf (if refs then err else etePs) (Config.filterSlew k) d.slewLimit
    let raw := Config.filterFfo k d.predCoefs + steer
    let ffo := if raw > ffoLimit then ffoLimit else if raw < -ffoLimit then -ffoLimit else raw
    let d1 := if (match change with | some c => c.history | none => false) then d.writeHistory (psToNs offPs) else d
    let d1 := if (match change with | some c => c.breach | none => false) then inflateOscs offAbs d1 else d1
    let d2 := { d1 with tb := { d1.tb with
      upd := none,
      out := some ⟨ffo, steer, raw ≠ ffo, psToNs offPs, psToNs etePs, boundNs bound,
        if next = 3 then min (Config.filterTtb k) 0xFFFFFFFF else 0⟩,
      change := change,
      step := if stepIt then some (-psToNs offPs) else d1.tb.step,
      lockFrom := lockFrom, prevBound := bound, sigmaPs := sigma, phase0Ps := if refs then none else d1.tb.phase0Ps } }
    let d3 := forUpTo 4 reportOsc (if stepIt ∧ d2.tclkRuns then keelWork 2 300 d2 else d2)
    let d4 := if st = 2 ∧ d3.on TB_CTRL_LEARN_EN then forUpTo 4 learnOsc d3 else d3
    (forUpTo 4 ageOsc d4).tick1

/-- R48, R53: the FFO and offset of the last update take effect, in the state that the same catch brings (R67, R68). -/
def ffoApply (d : Dev) : Dev :=
  match d.tb.out with
  | none => d
  | some o =>
    let v := ofSigned 48 o.ffo
    let d := d.set TB_FFO_LO_FFO_LO (v % 2 ^ 32)
    let d := d.set TB_FFO_HI_FFO_HI (v / 2 ^ 32)
    let d := d.setB TB_STATUS_FFO_LIMIT o.limited
    let d := d.setsSat TB_OFFSET_NS_OFFSET o.offset
    let d := d.setsSat TB_ETE_NS_ETE o.ete
    let d := if d.get TB_STATUS_STATE = 0 then d.set TB_ETE_BOUND_NS_BOUND 0xFFFFFFFF else d.setSat TB_ETE_BOUND_NS_BOUND o.bound
    let d := d.set TB_ETE_TTB_TTB o.ttb
    { d with tb := { d.tb with out := none, steer := o.steer } }

/-- R58: every model is saved to the logbook. -/
def modelSave (d : Dev) : Dev :=
  forUpTo 4 (fun n d => match (d.oscAt n).model with
    | some m => { d with log := { d.log with models := awrite {} n { m with id := d.get (TB_OSC_MODEL_ID_ID n) } d.log.models } }
    | none => d) d

/-- R58, R375: Keel is asked to save the models. -/
def modelAsk (d : Dev) : Dev :=
  if d.keelAsked .modelSave then d
  else keelAsk .modelSave 0 (6000 * ((List.range 4).filter fun n => (d.oscAt n).model.isSome).length) d

/-- R65, R78: the state change of the last update takes effect. -/
def tbStateApply (d : Dev) : Dev :=
  match d.tb.change with
  | none => d
  | some c =>
    let old := d.get TB_STATUS_STATE
    let d := { d with tb := { d.tb with change := none } }
    let d := d.set TB_STATUS_STATE c.state
    let d := d.setB TB_STATUS_RECOVERING c.recovering
    let d := d.setB TB_STATUS_ETE_VALID (c.state != 0)
    let d := if c.state ≠ old then d.cause TB_IRQ_STAT_STATE else d
    let d := if c.raise371 then d.cause TB_IRQ_STAT_BUDGET else d
    let d := if c.breach then (d.cause TB_STATUS_BOUND_BREACH).cause TB_IRQ_STAT_BUDGET else d
    let d := if c.noOsc then d.set TB_STATUS_NO_OSC 1 else d
    let d := if c.state = 0 then d.set TB_ETE_BOUND_NS_BOUND 0xFFFFFFFF else d
    let d := if c.state = 3 then d else d.set TB_ETE_TTB_TTB 0
    let hold := c.state = 3 ∨ c.state = 4
    let wasHold := old = 3 ∨ old = 4
    let d := if hold ∧ ¬ wasHold then
        forUpTo 4 (fun n d => d.putOsc n { d.oscAt n with carried := d.oscGood n }) { d with tb := { d.tb with
            holdFrom := some d.clock.now,
            tempLo := d.pwr.deg16, tempHi := d.pwr.deg16 } }
      else if hold then d else { d with tb := { d.tb with holdFrom := none } }
    let d := if hold ∧ wasHold then d else d.set TB_HOLD_TIME_SECONDS 0
    let d := if c.state = 3 ∧ old = 2 then modelAsk d else d
    { d with tb := { d.tb with everLocked := d.tb.everLocked || c.state == 2, lockFrom := none } }

/-- TB.HOLD_TIME counts whole seconds of the holdover. -/
def holdTimeUpdate (d : Dev) : Dev :=
  match d.tb.holdFrom with
  | some h => if d.holdover then d.setSat TB_HOLD_TIME_SECONDS ((d.clock.now - h) / 1000000000) else d
  | none => d

/-! ### Oscillators and the carrier -/

/-- R51: the comparisons of the stroke just ended are folded in, of every enabled oscillator without a fault, in MOORED to 100 ps
(R73). -/
def foldPhases (d : Dev) : Dev :=
  let cmp (n : Nat) : Int := let c := Config.oscComparison n d.fresh; if d.mode = 0 then 100 * divRound c 100 else c
  let ns := (List.range 4).filter fun n => d.on (TB_OSC_CFG_ENABLE n) && !(d.oscAt n).faulty && (d.mode != 0 || decide (n < 2))
  { d with tb := { d.tb with comps := ns.map fun n => (n, cmp n) } }.tick1

/-- R52: a fault condition of oscillator `n`: it is faulty and leaves the ensemble at the next catch; the 60 s count from its last
condition. A faulty carrier leaves the DCO on its internal reference until that catch (R49). -/
def oscFault (n : Nat) (d : Dev) : Dev :=
  let d := d.putOsc n { d.oscAt n with faulty := true, clearSince := some d.clock.now }
  if d.get TB_STATUS_CARRIER = n ∧ ¬ d.tb.internalRef then
    { d with tb := { d.tb with internalRef := true, internalAt := d.clock.now, sigma0Ps := d.tb.sigmaPs } }
  else d

/-- The next enabled, fault-free oscillator after `c` in ascending index, wrapping (R50); in MOORED one of OSC[0] and OSC[1] (R73). -/
def Dev.nextOsc (d : Dev) (c : Nat) : Option Nat := ((List.range 4).map fun i => (c + 1 + i) % 4).find? d.oscGood

/-- Move the DCO onto oscillator `n` (R49). -/
def moveCarrier (n : Nat) (d : Dev) : Dev :=
  let d := d.set TB_STATUS_CARRIER n
  let d := d.set TB_STATUS_NO_OSC 0
  let d := d.cause TB_IRQ_STAT_STATE
  { d with tb := { d.tb with internalRef := false } }

/-- Put the DCO on its internal reference (R50). -/
def moveInternal (d : Dev) : Dev :=
  let already := d.on TB_STATUS_NO_OSC
  let d := if d.tb.internalRef then d else
    { d with tb := { d.tb with internalRef := true, internalAt := d.clock.now, sigma0Ps := d.tb.sigmaPs } }
  if already then d else (d.set TB_STATUS_NO_OSC 1).cause TB_IRQ_STAT_STATE

/-- The earliest instant at which oscillator `n` may return: 60 s after its last fault condition, or after it was enabled again (R50,
R52). -/
def Dev.oscBack (d : Dev) (n : Nat) : Option Nat := (d.oscAt n).clearSince.map fun t => t + 60000000000

/-- Oscillator `n` returns to the ensemble at a catch at device time `t`. -/
def Dev.oscReturns (d : Dev) (t n : Nat) : Bool :=
  d.on (TB_OSC_CFG_ENABLE n) && match d.oscBack n with | some b => decide (b ≤ t) | none => false

/-- R52: after 60 s without a fault condition an enabled oscillator returns to the ensemble. -/
def oscReturn (n : Nat) (d : Dev) : Dev :=
  (d.putOsc n { d.oscAt n with faulty := false, inEnsemble := true, clearSince := none }).set (TB_OSC_MODEL_STAT_FAULT n) 0

/-- Step of a catch: oscillators whose 60 s have run return, a faulty one leaves the ensemble, and a carrier that is not good is
replaced, or the DCO runs from its internal reference (R50, R52). -/
def carrierFailover (d : Dev) : Dev :=
  let d := forUpTo 4 (fun n d =>
    let d := if d.oscReturns d.clock.now n then oscReturn n d else d
    let o := d.oscAt n
    let d := if o.faulty ∧ o.inEnsemble then d.putOsc n { o with inEnsemble := false } else d
    d.setB (TB_OSC_MODEL_STAT_FAULT n) (d.oscAt n).faulty) d
  let c := d.get TB_STATUS_CARRIER
  if d.oscGood c then
    if d.tb.internalRef then moveCarrier c d else d
  else if d.on TB_DCO_CFG_AUTO_SWITCH then
    match d.nextOsc c with
    | some n => moveCarrier n d
    | none => moveInternal d
  else moveInternal d

/-- R49: a committed SRC that names another oscillator starts Keel's carrier-change service. -/
def carrierRequest (n : Nat) (d : Dev) : Dev :=
  keelAsk .carrierChange 0 600 (keelDrop .carrierChange { d with tb := { d.tb with carrierReq := some n, carrierDone := false } })

/-- R49: the service completes; the DCO moves at the first catch after it. -/
def carrierServiceDone (d : Dev) : Dev :=
  match d.tb.carrierReq with
  | some _ => { d with tb := { d.tb with carrierDone := true } }
  | none => d

/-- R49: at the catch after the service the DCO moves onto the named oscillator, if it can serve. -/
def carrierApply (d : Dev) : Dev :=
  match d.tb.carrierReq, d.tb.carrierDone with
  | some n, true =>
    let d := { d with tb := { d.tb with carrierReq := none, carrierDone := false } }
    if d.oscGood n then moveCarrier n d else d
  | _, _ => d

/-- R59: every model in the device and in the logbook is discarded. -/
def modelClear (d : Dev) : Dev :=
  let d := forUpTo 4 (fun n d =>
    let d := d.putOsc n { d.oscAt n with model := none }
    let d := d.set (TB_OSC_MODEL_STAT_VALID n) 0
    let d := d.set (TB_OSC_MODEL_STAT_RESTORED n) 0
    let d := d.set (TB_OSC_MODEL_STAT_SPAN_C n) 0
    d.set (TB_OSC_MODEL_STAT_AGE_DAYS n) 0) d
  { d with log := { d.log with models := [] } }

/-- R59: at start-up the saved model of an oscillator is restored when its MODEL_ID matches, and is discarded otherwise; one last
updated more than 30 days earlier has its frequency uncertainty multiplied by 4. -/
def modelRestore (n : Nat) (d : Dev) : Dev :=
  let m := aget {} n d.log.models
  if m = {} then d
  else if m.id = d.get (TB_OSC_MODEL_ID_ID n) then
    let m := if m.updated + 2592000 < d.logTime then { m with freqMul := m.freqMul * 4 } else m
    let d := d.putOsc n { d.oscAt n with model := some m }
    let d := d.set (TB_OSC_MODEL_STAT_VALID n) 1
    let d := d.set (TB_OSC_MODEL_STAT_RESTORED n) 1
    ageOsc n (d.setSat (TB_OSC_MODEL_STAT_SPAN_C n) m.spanC)
  else { d with log := { d.log with models := adel n d.log.models } }

/-! ### Time sets and steps -/

/-- The time in the TSET registers, in ns. -/
def Dev.tsetNs (d : Dev) : Nat :=
  (d.get TB_TSET_SEC_LO_SEC_LO + 2 ^ 32 * d.get TB_TSET_SEC_HI_SEC_HI) * 1000000000 + d.get TB_TSET_NS_NS

/-- R64: GO requests a time set in FREE; in any other state it sets TSET_REJECT. -/
def timeSetGo (d : Dev) : Dev :=
  if d.get TB_STATUS_STATE = 0 then
    keelAsk .timeSet 0 200 (keelDrop .timeSet { d with tb := { d.tb with tset := some (d.tsetNs, d.clock.now), tsetDone := false } })
  else d.cause TB_STATUS_TSET_REJECT

/-- R64: Keel's time-set service completes; the set applies as a step at the next catch. -/
def timeSetDone (d : Dev) : Dev :=
  match d.tb.tset with
  | some _ => { d with tb := { d.tb with tsetDone := true } }
  | none => d

/-- End of the stroke that a step opens at device time `t` (R30). -/
def stepEnd (p t : Nat) : Nat :=
  let e := (t / p + 1) * p
  if e < t + 128 then e + p else e

/-- The step due at a catch, in ns: a time set first, else the filter's step (R62, R64). -/
def Dev.stepDue (d : Dev) : Option Int :=
  match d.tb.tset, d.tb.tsetDone with
  | some (target, at_), true => some ((target : Int) - (at_ : Int))
  | _, _ => d.tb.step

/-! ### Leap seconds -/

/-- R72: at the catch on the programmed TAI second, or at once when it is past, UTC_OFFSET changes and PENDING clears. -/
def leapSecond (d : Dev) : Dev :=
  let sec := d.get TB_LEAP_TAI_LO_SEC_LO + 2 ^ 32 * d.get TB_LEAP_TAI_HI_SEC_HI
  if d.on TB_LEAP_CFG_PENDING ∧ sec * 1000000000 ≤ d.clock.now then
    let u := d.gets TB_UTC_OFFSET_OFFSET_S
    let d := d.sets TB_UTC_OFFSET_OFFSET_S (if d.on TB_LEAP_CFG_DIR then u - 1 else u + 1)
    d.set TB_LEAP_CFG_PENDING 0
  else d

/-- R76: the exceptions that a warm reset clears. -/
def tbWarm (d : Dev) : Dev :=
  ((d.set TB_STATUS_STEPPED 0).set TB_STATUS_TSET_REJECT 0).set TB_STATUS_BOUND_BREACH 0

end Sys2Proof.Machine
end

