-- ==== Sys2Proof/Machine/Tracker.lean ====
section
/-!
DEFINITION. Sys2Proof/Machine/Tracker.lean: the reference trackers TRK[0..7] (R79–R113, R121–R123). Times are in units of
2^-16 ns of device TAI.
-/
namespace Sys2Proof.Machine

/-! ### Tooth tables -/

/-- Entry `k` of a tooth table (R79). -/
def Dev.tooth (d : Dev) (n k : Nat) : Nat := aget 0 k (d.trkAt n).table

/-- POS of tooth `k`; POS of tooth TEETH is the revolution length (R84). -/
def Dev.toothPos (d : Dev) (n k : Nat) : Nat :=
  if k < d.teeth n then bits (d.tooth n k) 0 48 else d.get (TRK_REV_LEN_REV_LEN n) * 65536

/-- The indexes of the real teeth, ascending. -/
def Dev.realTeeth (d : Dev) (n : Nat) : List Nat :=
  ((d.trkAt n).table.filter fun e => decide (e.1 < d.teeth n) && bit e.2 48).map Prod.fst

/-- The distances between consecutive real teeth, across the wrap too. -/
def Dev.realGaps (d : Dev) (n : Nat) : List Nat :=
  match d.realTeeth n with
  | [] => []
  | k0 :: ks =>
    let rec go (prev : Nat) : List Nat → List Nat
      | [] => [d.get (TRK_REV_LEN_REV_LEN n) * 65536 + d.toothPos n k0 - d.toothPos n prev]
      | k :: r => (d.toothPos n k - d.toothPos n prev) :: go k r
    go k0 ks

/-- The Ethernet port that feeds tracker `n`: the lowest whose TRK_EN is 1 and whose TRK names it (R357). -/
def Dev.feeder (d : Dev) (n : Nat) : Option Nat :=
  (List.range 4).find? fun p => d.on (ETH_PTP_CFG_TRK_EN p) && d.get (ETH_PTP_CFG_TRK p) == n

/-- The interval 2^LOG s in ns. -/
def logNs (l : Int) : Nat := if 0 ≤ l then 1000000000 * 2 ^ l.toNat else 1000000000 / 2 ^ (-l).toNat

/-- R358: what a tracker fed by a port must hold. -/
def Dev.feedOk (d : Dev) (n : Nat) : Bool :=
  match d.feeder n with
  | none => true
  | some p =>
    d.get (TRK_CFG_WHEEL n) == 0 && d.teeth n == 1 && d.get (TRK_CFG_T0_ID n) == 2 && d.get (TRK_CFG_WDEC n) == 0 &&
    decide (logNs (d.gets (ETH_PTP_RATE_LOG_SYNC p)) ≤ d.get (TRK_REV_LEN_REV_LEN n))

/-- R80: the tooth table is valid. -/
def Dev.tableValid (d : Dev) (n : Nat) : Bool :=
  let t := d.teeth n
  d.feedOk n && d.toothPos n 0 == 0 &&
  (List.range (t - 1)).all (fun k => decide (d.toothPos n k < d.toothPos n (k + 1))) &&
  decide (d.toothPos n (t - 1) < d.get (TRK_REV_LEN_REV_LEN n) * 65536) &&
  (d.realGaps n).all (fun g => decide (200 * 65536 ≤ g)) &&
  (d.get (TRK_CFG_WHEEL n) == 0 || d.hasReal n)

/-! ### Tooth timing and conversion -/

def Dev.direct (d : Dev) (n : Nat) : Bool := d.on (TRK_CFG_WHEEL n)

/-- R84: phase position (k, m) of revolution N on a wheel, rounded to 2^-16 ns, ties to the later time (R82, R83). -/
def Dev.phaseOn (d : Dev) (n : Nat) (asDirect : Bool) (w : Wheel) (rev : Int) (k m : Nat) : Int :=
  let teeth := d.teeth n
  let revLen : Int := (d.get (TRK_REV_LEN_REV_LEN n) : Int) * 65536
  let rev := rev + ((k / teeth : Nat) : Int)
  let k := k % teeth
  let dpos : Int := (d.toothPos n (k + 1) : Int) - d.toothPos n k
  if asDirect then
    let x : Int := ((rev - w.rev) * revLen + d.toothPos n k - d.toothPos n w.tooth) * 2 ^ 20 + m * dpos
    w.at_ + divRound (x * w.rNum) (2 ^ 20 * w.rDen)
  else
    let base : Int := (d.get (TRK_ALIGN_ALIGN_NS n) : Int) * 65536 + rev * revLen + d.toothPos n k
    base + divRound (m * dpos) (2 ^ 20)

/-- Convert a 32-bit phase position in revolution `rev` with the tooth timing in force (R84, R85). -/
def Dev.convertPhase (d : Dev) (n : Nat) (rev : Int) (pos : Nat) : Int :=
  d.phaseOn n (d.direct n) ((d.trkAt n).conv.getD {}) rev (pos / 2 ^ 20) (pos % 2 ^ 20)

/-- R82: the ANCHORED time of a tooth. -/
def Dev.anchoredTime (d : Dev) (n : Nat) (rev : Int) (k : Nat) : Int := d.phaseOn n false {} rev k 0

/-- The measurement wheel's time of a tooth: it follows the accepted edges, with rate 1 in ANCHORED (log entry 13). -/
def Dev.measTime (d : Dev) (n : Nat) (rev : Int) (k : Nat) : Int :=
  let w := (d.trkAt n).meas.getD {}
  d.phaseOn n true (if d.direct n then w else { w with rNum := 1, rDen := 1 }) rev k 0

/-- The revolution of R82 that contains a time. -/
def Dev.anchoredRev (d : Dev) (n : Nat) (t : Int) : Int :=
  (t - (d.get (TRK_ALIGN_ALIGN_NS n) : Int) * 65536) / ((d.get (TRK_REV_LEN_REV_LEN n) : Int) * 65536)

/-- The revolution of the conversion wheel that contains a time (R95). -/
def Dev.convRev (d : Dev) (n : Nat) (t : Int) : Int :=
  if d.direct n then
    let w := (d.trkAt n).conv.getD {}
    w.rev + ((t - w.at_) * w.rDen / w.rNum + d.toothPos n w.tooth) / ((d.get (TRK_REV_LEN_REV_LEN n) : Int) * 65536)
  else d.anchoredRev n t

/-- The tracker publishes tooth timing: any state but OFF and WAITING (R144). -/
def Dev.trkTiming (d : Dev) (n : Nat) : Bool := decide (2 ≤ d.get (TRK_STATE_STATE n))

/-- DELAY_PS in 2^-16 ns. -/
def Dev.delayU (d : Dev) (n : Nat) : Int := divRound (d.gets (TRK_DELAY_PS_DELAY n) * 65536) 1000

/-- R88: half the acceptance window: WIN_NS or half the shortest real-tooth interval. -/
def Dev.windowU (d : Dev) (n : Nat) : Int :=
  ((d.realGaps n).foldl (fun m g => min m (g / 2)) (d.get (TRK_WINDOW_WIN_NS n) * 65536) : Nat)

/-- The real tooth after (rev, k). -/
def Dev.nextReal (d : Dev) (n rev k : Nat) : Nat × Nat :=
  match (d.realTeeth n).find? (fun x => decide (k < x)) with
  | some x => (rev, x)
  | none => (rev + 1, ((d.realTeeth n).head?).getD 0)

/-! ### State changes -/

/-- Precedence of a pending change (R98): quarantine, loss, qualification, acquisition. -/
def trkPrio (s : Nat) : Nat := match s with | 5 => 4 | 4 => 3 | 3 => 2 | _ => 1

/-- Note a state change for the catch; an earlier one of higher precedence stands. -/
def Trk.pend (t : Trk) (s : Nat) : Trk :=
  match t.pendState with
  | some p => if trkPrio p < trkPrio s then { t with pendState := some s } else t
  | none => { t with pendState := some s }

/-- The state with the changes decided in this stroke. -/
def Dev.trkEff (d : Dev) (n : Nat) : Nat := (d.trkAt n).pendState.getD (d.get (TRK_STATE_STATE n))

/-- The width decoding in force; in MOORED codes 1 and 3 act as 0 (R102). -/
def Dev.wdec (d : Dev) (n : Nat) : Nat :=
  let w := d.get (TRK_CFG_WDEC n)
  if d.mode = 0 ∧ (w = 1 ∨ w = 3) then 0 else w

/-- R107: the ranges of the width classes in force, in ns. -/
def Dev.widthRanges (d : Dev) (n : Nat) : List (Nat × Nat) :=
  match d.wdec n with
  | 0 => []
  | 1 => [(1500000, 3500000), (3500000, 6500000), (6500000, 9500000)]
  | 2 => [(75000, 125000), (175000, 225000), (275000, 325000), (375000, 425000)]
  | _ => (List.range 4).map fun c => (d.get (TRK_WCLASS_MIN n c) * 100, d.get (TRK_WCLASS_MAX n c) * 100)

/-- R107: the class of a width in ns; `none` for an unclassified one. A width on the boundary of two classes, or in two custom ranges, is
of the lower class: DESIGN CHOICE, log entry 87. -/
def Dev.widthClass (d : Dev) (n width : Nat) : Option Nat :=
  (d.widthRanges n).findIdx? fun r => decide (r.1 ≤ width) && decide (width ≤ r.2)

/-- The upper limit of the widest class (R90). -/
def Dev.widest (d : Dev) (n : Nat) : Nat := (d.widthRanges n).foldl (fun m r => max m r.2) 0

/-- Push a tracker split when SPLIT_EN is 1 (R121); MOORED stops splits (R102). -/
def trkSplit (n : Nat) (s : Split) (d : Dev) : Dev :=
  if d.on (TRK_CFG_SPLIT_EN n) ∧ d.mode ≠ 0 then
    let t := d.trkAt n
    d.putTrk n { t with fifo := (t.fifo.push s).1 }
  else d

/-- A TOOTH split (R121). -/
def toothSplit (n : Nat) (stamp resid : Int) (k : Nat) (cls : Option Nat) (rev : Nat) (synth : Bool) (d : Dev) : Dev :=
  trkSplit n (mkSplit stamp (0x100 + n) 0x40 (if synth then 2 else 0) (ofSigned 64 resid)
    (k % 4096 + 4096 * cls.getD 7 + 65536 * (rev % 65536))) d

/-! ### Distrust (R103, R104) -/

/-- R104: a gate violation adds 4 to SCORE; at QUAR_SCORE the tracker is quarantined at the catch (R98). -/
def trkViolation (n : Nat) (d : Dev) : Dev :=
  let d := d.addSat (TRK_SCORE_SCORE n) 4
  let d := d.putTrk n { d.trkAt n with revViol := true }
  let d := if d.trkEff n = 2 then d.putTrk n { d.trkAt n with qualEnd := some (d.clock.now + d.get (TRK_QUAL_QUAL_S n) * 1000000000) } else d
  if d.get (TRK_SCORE_CFG_QUAR_SCORE n) ≤ d.get (TRK_SCORE_SCORE n) ∧ (d.trkEff n = 2 ∨ d.trkEff n = 3) then
    d.putTrk n { (d.trkAt n).pend 5 with wasLost := true }
  else d

/-- R98, R104: what comes with a quarantine: the logbook entry, the hold timer, q and the causes. -/
def quarantineStart (n : Nat) (d : Dev) : Dev :=
  let d := d.journalFree 0x04 n
  let q := d.journalCount 0x04 n
  let hold := min (d.get (TRK_SCORE_CFG_QUAR_HOLD_S n) * 2 ^ (q - 1)) (16 * d.get (TRK_SCORE_CFG_QUAR_HOLD_S n))
  let d := d.putTrk n { d.trkAt n with holdEnd := some (d.clock.now + hold * 1000000000) }
  ((d.setSat (TRK_SCORE_QUAR_24H n) q).cause (TRK_IRQ_STAT_QUARANTINE n)).cause TRUST_IRQ_STAT_QUAR

/-- R104: the revolutions before `rev` have ended; each without a violation subtracts 1 from SCORE. -/
def trkRevs (n rev : Nat) (d : Dev) : Dev :=
  let t := d.trkAt n
  if t.scoreRev < rev then
    let d := d.set (TRK_SCORE_SCORE n) (d.get (TRK_SCORE_SCORE n) - (rev - t.scoreRev - b2n t.revViol))
    d.putTrk n { t with scoreRev := rev, revViol := false }
  else d

/-- R103: tooth `k` of revolution `rev` lies in the first revolution after acquisition. -/
def Trk.firstRevolution (t : Trk) (rev k : Nat) : Bool := decide (rev < t.acqRev + 1 ∨ (rev = t.acqRev + 1 ∧ k < t.acqTooth))

/-- Move the expectation past real tooth (rev, k). -/
def trkAdvance (n rev k : Nat) (d : Dev) : Dev :=
  let (r, x) := d.nextReal n rev k
  d.putTrk n { d.trkAt n with expTooth := x, expRev := r, cand := none }

/-- R109: a class-3 pulse of the SK width-coded PPS sets LEAP_SEEN. -/
def leapSeen (n : Nat) (cls : Option Nat) (d : Dev) : Dev :=
  if d.wdec n = 2 ∧ cls = some 3 then (d.cause (TRK_STATE_LEAP_SEEN n)).cause (TRK_IRQ_STAT_LEAP n) else d

/-- R103: the phase gate and, over the last 16 accepted real teeth, the frequency gate; `resid` in 2^-16 ns. -/
def Dev.gateViolated (d : Dev) (n : Nat) (resid : Int) (recent : List ToothRec) : Bool :=
  let ete := d.gets TB_ETE_NS_ETE
  let room := d.get (TRK_GATE_PHASE_GATE_NS n) + (if d.holdover then d.get TB_ETE_BOUND_NS_BOUND else 0)
  let phase := d.on (TRK_SCORE_CFG_PHASE_EN n) && decide ((resid - ete * 65536).natAbs > room * 65536)
  let freq := d.on (TRK_SCORE_CFG_FREQ_EN n) &&
    (match recent.head?, (recent.take 16).getLast? with
     | some a, some b =>
       if recent.length < 16 then false else
         let nom := ((a.rev : Int) - b.rev) * ((d.get (TRK_REV_LEN_REV_LEN n) : Int) * 65536) + d.toothPos n a.tooth - d.toothPos n b.tooth
         decide (((a.stamp - b.stamp) - nom).natAbs * 1000000000 > d.get (TRK_GATE_FREQ_GATE_PPB n) * nom.natAbs)
     | _, _ => false)
  phase || freq

/-! ### IRIG-B (R110, R111) -/

/-- A number from tooth classes: weight of each tooth index whose class is 1. -/
def irigNum (cls : List Nat) (l : List (Nat × Nat)) : Nat :=
  l.foldl (fun v x => v + (if cls.getD x.1 0 = 1 then x.2 else 0)) 0

/-- Day of the year, 1 to 366, of a day count from 1970-01-01. -/
def dayOfYear (days : Nat) : Nat :=
  let z := days + 719468
  let doe := z % 146097
  let yoe := (doe - doe / 1460 + doe / 36524 - doe / 146096) / 365
  let doyM := doe - (365 * yoe + yoe / 4 - yoe / 100)
  let y := z / 146097 * 400 + yoe
  let leap := y % 4 = 0 ∧ (y % 100 ≠ 0 ∨ y % 400 = 0)
  if 306 ≤ doyM then doyM - 305 else doyM + 60 + (if leap then 1 else 0)

/-- R111: at the end of a frame without a rejected tooth the fields load; bit places follow IRIG standard 200 (log entry 12). `at0`: the
time of tooth 0, whose second is the nearest one (log entry 12). -/
def irigFrame (n : Nat) (at0 : Int) (d : Dev) : Dev :=
  let cls := (d.trkAt n).irig.reverse
  let fmt := Config.irigFormat d.fresh % 8
  let sec := irigNum cls [(1, 1), (2, 2), (3, 4), (4, 8), (6, 10), (7, 20), (8, 40)]
  let min_ := irigNum cls [(10, 1), (11, 2), (12, 4), (13, 8), (15, 10), (16, 20), (17, 40)]
  let hr := irigNum cls [(20, 1), (21, 2), (22, 4), (23, 8), (25, 10), (26, 20)]
  let day := irigNum cls [(30, 1), (31, 2), (32, 4), (33, 8), (35, 10), (36, 20), (37, 40), (38, 80), (40, 100), (41, 200)]
  let year := irigNum cls [(50, 1), (51, 2), (52, 4), (53, 8), (55, 10), (56, 20), (57, 40), (58, 80)]
  let sbs := irigNum cls ((List.range 9).map (fun i => (80 + i, 2 ^ i)) ++ (List.range 8).map (fun i => (90 + i, 2 ^ (9 + i))))
  let cfLo := irigNum cls ((List.range 9).map (fun i => (60 + i, 2 ^ i)) ++ (List.range 9).map (fun i => (70 + i, 2 ^ (9 + i))))
  let cf50 := irigNum cls ((List.range 9).map (fun i => (50 + i, 2 ^ i)))
  let hasYear := decide (4 ≤ fmt)
  let hasCf := fmt == 0 || fmt == 1 || fmt == 4 || fmt == 5
  let hasSbs := fmt == 0 || fmt == 3 || fmt == 4 || fmt == 7
  let cf := if hasYear then cfLo else cf50 + 2 ^ 9 * cfLo
  let toy := hr * 3600 + min_ * 60 + sec
  let d := d.tick1
  let d := d.set (TRK_IRIG_TIME_TOY_S n) toy
  let d := d.set (TRK_IRIG_TIME_DAY n) day
  let d := d.set (TRK_IRIG_YEAR_YEAR n) (if hasYear then year % 100 else 0)
  let d := d.setB (TRK_IRIG_YEAR_YEAR_VALID n) hasYear
  let d := d.set (TRK_IRIG_YEAR_SBS n) (if hasSbs then sbs else 0)
  let d := d.setB (TRK_IRIG_YEAR_SBS_VALID n) hasSbs
  let d := d.set (TRK_IRIG_CF_CF n) (if hasCf then cf else 0)
  let d := d.setB (TRK_IRIG_CF_CF_VALID n) hasCf
  let d := d.cause (TRK_IRQ_STAT_IRIG n)
  let value := toy + 2 ^ 17 * day + 2 ^ 26 * (d.get (TRK_IRIG_YEAR_YEAR n)) + 2 ^ 33 * b2n hasYear +
    2 ^ 34 * d.get (TRK_IRIG_YEAR_SBS n) + 2 ^ 51 * b2n hasSbs
  let d := trkSplit n (mkSplit (d.trkAt n).irigAt (0x100 + n) 0x41 0 value (d.get (TRK_IRIG_CF_CF n) + 2 ^ 27 * b2n hasCf)) d
  let utc : Int := divRound at0 65536000000000 - d.gets TB_UTC_OFFSET_OFFSET_S
  if d.on TB_STATUS_ETE_VALID ∧ (utc % 86400 ≠ toy ∨ dayOfYear (utc / 86400).toNat ≠ day) then trkViolation n d else d

/-- Keep the class of tooth `k` of the frame, stamped `stamp`; after the last tooth decode a clean frame (R110, R111). -/
def irigTooth (n k : Nat) (stamp : Int) (cls : Nat) (d : Dev) : Dev :=
  if d.wdec n = 1 then
    let t := d.trkAt n
    let t := if k = 0 then { t with irig := [cls], irigBad := false, irigAt := stamp } else { t with irig := cls :: t.irig }
    let d := d.putTrk n t
    if k + 1 = d.teeth n ∧ t.irig.length = 100 ∧ !t.irigBad then irigFrame n (t.irigAt - d.delayU n) d else d
  else d

/-! ### Teeth -/

/-- R91, R92: in the TCLK `at_` the tooth expected is replaced by a synthetic tooth at its predicted time; the second in sequence
declares LOST. `cls`: the class of a rejected pulse. Each real tooth gives one split (R121, log entry 76); the stamp of this one is the
predicted time at the ball, DELAY_PS after the wheel's: DESIGN CHOICE, log entry 76. -/
def syntheticAt (n at_ : Nat) (cls : Option Nat) (d : Dev) : Dev :=
  if d.trkEff n = 2 ∨ d.trkEff n = 3 then
    let d := trkRevs n (d.trkAt n).expRev d
    let t := d.trkAt n
    let time := d.measTime n t.expRev t.expTooth
    let d := (d.set (TRK_STATE_SYNTH n) 1).set (TRK_STATE_LAST_TOOTH n) t.expTooth
    let d := d.inc (TRK_COUNTS_B_SYNTH_CNT n)
    let d := d.cause (TRK_IRQ_STAT_SYNTH n)
    let d := toothSplit n (time + d.delayU n) (time - d.anchoredTime n t.expRev t.expTooth) t.expTooth cls t.expRev true d
    let t' := { d.trkAt n with missed := true, irigBad := true }
    let d := d.putTrk n (if t.missed then { t'.pend 4 with wasLost := true } else t')
    let d := if d.trkEff n = 2 then
      d.putTrk n { d.trkAt n with qualEnd := some (at_ + d.get (TRK_QUAL_QUAL_S n) * 1000000000) } else d
    trkAdvance n t.expRev t.expTooth d
  else d

/-- R91: the window has closed without a candidate. -/
def syntheticTooth (n : Nat) (d : Dev) : Dev := syntheticAt n d.clock.now none d

/-- R94: identify a first edge: its tooth and revolution; `none` for noise. -/
def Dev.identify (d : Dev) (n : Nat) (s : Int) (cls : Option Nat) : Option (Nat × Nat) :=
  let t := d.trkAt n
  let nearest (f : Int → Nat → Int) (rev : Int) : Option (Nat × Nat) :=
    let cands := (d.realTeeth n).flatMap fun k => [(rev - 1, k), (rev, k), (rev + 1, k)]
    match cands with
    | [] => none
    | c :: cs =>
      let best := cs.foldl (fun b x => if (f x.1 x.2 - s).natAbs < (f b.1 b.2 - s).natAbs then x else b) c
      some (best.1.toNat, best.2)
  match d.get (TRK_CFG_T0_ID n) with
  | 0 =>
    if d.get (TRK_STATE_STATE n) = 4 then
      nearest (fun r k => d.phaseOn n (d.direct n) (t.conv.getD {}) r k 0) (d.convRev n s)
    else some ((d.anchoredRev n s).toNat, 0)
  | 1 =>
    let hit := match d.wdec n with
      | 1 => cls == some 2 && t.lastMarker
      | 2 => cls.isSome
      | 3 => cls == some 3
      | _ => false
    if hit then some ((d.anchoredRev n s).toNat, 0) else none
  | _ => nearest (fun r k => d.anchoredTime n r k) (d.anchoredRev n s)

/-- R94, R98: anchor the measurement wheel at an identified edge; QUALIFYING follows at the catch. From WAITING both wheels are
anchored, with r = 1 until a second tooth gives a rate (DESIGN CHOICE, log entry 88); from LOST the conversion wheel keeps coasting, and r
stays that of the last two accepted teeth (R83). The edge is an accepted real tooth (log entry 75). -/
def acquire (n : Nat) (s : Int) (rev k : Nat) (cls : Option Nat) (d : Dev) : Dev :=
  let fromWaiting := d.get (TRK_STATE_STATE n) == 1
  let t := d.trkAt n
  let w : Wheel := { (if fromWaiting then {} else t.meas.getD {}) with at_ := s, tooth := k, rev := rev }
  let (r, x) := d.nextReal n rev k
  let resid := s - d.anchoredTime n rev k
  let d := d.putTrk n { (t.pend 2) with
    meas := some w, pendConv := if fromWaiting then some w else none, expTooth := x, expRev := r, cand := none,
    missed := false, acqRev := rev, acqTooth := k, scoreRev := rev, revViol := false, recent := [⟨s, k, rev⟩],
    wasLost := t.wasLost && !fromWaiting, irig := if k = 0 then [2] else [], irigBad := k != 0, irigAt := s + d.delayU n,
    qualEnd := some (d.clock.now + d.get (TRK_QUAL_QUAL_S n) * 1000000000) }
  let d := d.set (TRK_STATE_LAST_TOOTH n) k
  let d := d.set (TRK_STATE_SYNTH n) 0
  let d := d.setsSat (TRK_RESID_PS_RESID n) (divRound (resid * 1000) 65536)
  let d := toothSplit n (s + d.delayU n) resid k (if d.wdec n = 0 then none else cls) rev false d
  if fromWaiting then d.putTrk n { d.trkAt n with revNo := rev } else d

/-- R102: in MOORED stamps have 100 ps resolution; the nearest step is taken (log entry 89). -/
def Dev.trkStamp (d : Dev) (stamp : Int) : Int := if d.mode = 0 then divRound (divRound (stamp * 10) 65536 * 65536) 10 else stamp

/-- R88, R89, R94: an edge stamped `stamp`, with its width in ns for width decoding. One of the polarity that CFG.EDGE does not select does
not count. Edges in QUARANTINED, in which R94 identifies none, are ignored and not counted as noise: DESIGN CHOICE, log entry 90. -/
def trkEdge (n : Nat) (stamp : Int) (rising : Bool) (width : Nat) (d : Dev) : Dev :=
  if rising = d.on (TRK_CFG_EDGE n) then d else
  let stamp := d.trkStamp stamp
  let s := stamp - d.delayU n
  let st := d.trkEff n
  let cls := d.widthClass n width
  if st = 1 ∨ st = 4 then
    let d' := match d.identify n s cls with
      | some (rev, k) => acquire n s rev k cls d
      | none => d.inc (TRK_COUNTS_A_NOISE_CNT n)
    leapSeen n cls (d'.putTrk n { d'.trkAt n with lastMarker := cls == some 2 })
  else if st = 2 ∨ st = 3 then
    let t := { d.trkAt n with lastMarker := cls == some 2 }
    let d := d.putTrk n t
    let p := d.measTime n t.expRev t.expTooth
    if t.cand.isNone ∧ (s - p).natAbs ≤ (d.windowU n).natAbs then
      d.putTrk n { t with cand := some ⟨stamp, t.expTooth, t.expRev⟩ }
    else d.inc (TRK_COUNTS_A_NOISE_CNT n)
  else d

/-- An edge on the routed input line of tracker `n`, which one fed by an Ethernet port ignores (R357). -/
def trkPin (n : Nat) (stamp : Int) (rising : Bool) (width : Nat) (d : Dev) : Dev :=
  if (d.feeder n).isSome then d else trkEdge n stamp rising width d

/-- R90: the candidate's conditions. -/
def Dev.candOk (d : Dev) (n : Nat) (c : Cand) (cls : Option Nat) : Bool :=
  let wd := d.wdec n
  let wcls := bits (d.tooth n c.tooth) 49 3
  let byClass := wd == 0 || (cls.isSome &&
    (wd == 1 || bit (d.get (TRK_WCODE_ACCEPT n)) (cls.getD 0)) &&
    (decide (4 ≤ wcls) || some wcls == cls))
  let byRate := !(d.direct n) || (match (d.trkAt n).recent.head? with
    | some p =>
      let nom := ((c.rev : Int) - p.rev) * ((d.get (TRK_REV_LEN_REV_LEN n) : Int) * 65536) + d.toothPos n c.tooth - d.toothPos n p.tooth
      let dist := (c.stamp - d.delayU n) - p.stamp
      decide ((dist - nom).natAbs * 1000 ≤ nom.natAbs)
    | none => true)
  byClass && byRate

/-- R90–R92, R103, R104: the tracker decides its candidate, whose width is `width` ns. -/
def toothDecision (n : Nat) (width : Nat) (d : Dev) : Dev :=
  match (d.trkAt n).cand with
  | none => d
  | some c =>
    let cls := d.widthClass n width
    let s := c.stamp - d.delayU n
    let d := leapSeen n cls d
    if d.candOk n c cls then
      let d := trkRevs n c.rev d
      let t := d.trkAt n
      let resid := s - d.anchoredTime n c.rev c.tooth
      let recent := (⟨s, c.tooth, c.rev⟩ :: t.recent).take 17
      let w : Wheel := match t.recent.head? with
        | some p =>
          let nom := ((c.rev : Int) - p.rev) * ((d.get (TRK_REV_LEN_REV_LEN n) : Int) * 65536) + d.toothPos n c.tooth - d.toothPos n p.tooth
          { at_ := s, tooth := c.tooth, rev := c.rev, rNum := (s - p.stamp).natAbs, rDen := max 1 nom.natAbs }
        | none => { at_ := s, tooth := c.tooth, rev := c.rev }
      let violated := d.on TB_STATUS_ETE_VALID && !t.firstRevolution c.rev c.tooth && d.gateViolated n resid recent
      let coasting := t.wasLost
      let d := d.putTrk n { t with
        meas := some w, pendConv := if coasting then t.pendConv else some w, recent := recent,
        missed := false, cand := none }
      let d := d.set (TRK_STATE_SYNTH n) 0
      let d := d.set (TRK_STATE_LAST_TOOTH n) c.tooth
      let d := d.setsSat (TRK_RESID_PS_RESID n) (divRound (resid * 1000) 65536)
      let d := toothSplit n c.stamp resid c.tooth (if d.wdec n = 0 then none else cls) c.rev false d
      let d := if violated then trkViolation n d else d
      let d := irigTooth n c.tooth c.stamp (cls.getD 0) d
      trkAdvance n c.rev c.tooth d
    else
      let d := d.inc (TRK_COUNTS_A_REJECT_CNT n)
      let d := d.cause (TRK_IRQ_STAT_REJECT n)
      let t := d.trkAt n
      syntheticAt n d.clock.now cls (d.putTrk n { t with cand := none, expTooth := c.tooth, expRev := c.rev })

/-- The TCLK after which the window that is open without a candidate has closed (R88, R91). -/
def Dev.windowEnd (d : Dev) (n : Nat) : Option Nat :=
  let t := d.trkAt n
  if (d.trkEff n = 2 ∨ d.trkEff n = 3) ∧ d.hasReal n ∧ t.cand.isNone ∧ d.feeder n = none then
    some (dueOf (d.measTime n t.expRev t.expTooth + d.windowU n + d.delayU n) + 1)
  else none

/-- R90, R546: the TCLK in which the candidate is decided: 24 TCLK after its leading edge, or, when widths are decoded, after a trailing
edge `width` ns later, or after the upper limit of the widest class. -/
def Dev.decisionAt (d : Dev) (n width : Nat) : Option Nat :=
  (d.trkAt n).cand.map fun c => dueOf c.stamp + 24 + (if d.wdec n = 0 then 0 else min width (d.widest n))

/-- R90, R91: a window that has closed without a candidate gives a synthetic tooth; a candidate whose pulse has outlasted the widest class,
or whose width does not matter, is decided. -/
def windowTick (n : Nat) (d : Dev) : Dev :=
  let due (o : Option Nat) : Bool := match o with | some t => decide (t ≤ d.clock.now) | none => false
  if due (d.decisionAt n (d.widest n + 1)) && d.feeder n = none then toothDecision n (d.widest n + 1) d
  else if due (d.windowEnd n) then syntheticTooth n d
  else d

/-! ### Timers -/

/-- How far the measurement wheel lags the conversion wheel, in the revolution of the conversion wheel that has begun (R97). -/
def Dev.wheelGap (d : Dev) (n : Nat) : Int :=
  let rev := d.convRev n d.nowU
  d.measTime n rev 0 - d.phaseOn n (d.direct n) ((d.trkAt n).conv.getD {}) rev 0 0

/-- The number of revolutions by which the measurement wheel's count is moved so that the pull-in takes the shorter way round (R97). -/
def Dev.pullShift (d : Dev) (n : Nat) : Int :=
  let revLen : Int := (d.get (TRK_REV_LEN_REV_LEN n) : Int) * 65536
  (2 * d.wheelGap n + revLen) / (2 * revLen)

/-- R98: QUAL_REMAIN reaches 0; QUALIFIED follows at the catch. -/
def qualExpire (n : Nat) (d : Dev) : Dev :=
  if d.trkEff n = 2 then
    let t := d.trkAt n
    d.putTrk n { t.pend 3 with qualEnd := none }
  else d

/-- R104: the hold timer expires; LOST follows at the catch with SCORE 0. -/
def holdExpire (n : Nat) (d : Dev) : Dev :=
  if d.get (TRK_STATE_STATE n) = 5 then
    let t := d.trkAt n
    d.putTrk n { t.pend 4 with holdEnd := none, release := { t.release with soon := true } }
  else d

/-- The wheel's rate changes to `num / den` at time `t`, without a jump. -/
def Wheel.reRate (w : Wheel) (t : Int) (num den : Nat) : Wheel :=
  { w with at_ := t - divRound ((t - w.at_) * (num * w.rDen)) (den * w.rNum), rNum := num, rDen := den }

/-- R97: the conversion wheel's rate in the stroke that opens now: off the measurement wheel's by no more than SLEW_LIMIT × 10^-9, and by
what closes the gap at the end of the stroke when that is less. -/
def Dev.pullRate (d : Dev) (n : Nat) (m : Wheel) : Nat × Nat :=
  let gap := d.wheelGap n
  let span := d.period * 65536
  let slew : Nat := d.get TB_STEER_CFG_SLEW_LIMIT
  if gap.natAbs * 1000000000 ≤ slew * span then (((m.rNum : Int) * span + gap * m.rDen).toNat, m.rDen * span)
  else (((m.rNum : Int) * 1000000000 + (if gap > 0 then (slew : Int) else -(slew : Int)) * m.rDen).toNat, m.rDen * 1000000000)

/-- R97: the pull-in at a catch: it ends when the wheels agree to within 2^-16 ns, and the conversion wheel then follows the measurement
wheel. -/
def pullCatch (n : Nat) (d : Dev) : Dev :=
  let t := d.trkAt n
  match t.meas, t.conv with
  | some m, some c =>
    if (d.wheelGap n).natAbs ≤ 1 then (d.putTrk n { t with conv := some m, wasLost := false }).set (TRK_STATE_PULLING n) 0
    else let r := d.pullRate n m; d.putTrk n { t with conv := some (c.reRate d.nowU r.1 r.2) }
  | _, _ => d

/-- R93: a conversion wheel that was pulling in coasts on from where it stands at the measurement wheel's last rate. -/
def Dev.coastOn (d : Dev) (n : Nat) (t : Trk) : Option Wheel :=
  match t.meas, t.conv with
  | some m, some c => if d.on (TRK_STATE_PULLING n) then some (c.reRate d.nowU m.rNum m.rDen) else some c
  | _, c => c

/-! ### The catch -/

/-- R113: at a catch convert each enabled trigger whose next instant lies between 2 and 3 strokes ahead; a revolution is converted once. -/
def trigConvert (n : Nat) (d : Dev) : Dev :=
  if d.trkTiming n ∧ d.mode ≠ 0 then
    (List.range 4).foldl (fun d k =>
      let t := d.trkAt n
      if d.on (TRK_TRIG_CFG_EN n k) then
        let p := d.period
        let at_ (rev : Int) : Nat := ((d.convertPhase n rev (d.get (TRK_TRIG_POS_POS n k)) + 32768) / 65536).toNat
        let rev := d.convRev n (((d.clock.now + 2 * p : Nat) : Int) * 65536)
        let last : Int := ((t.trigRev.find? fun e => e.1 == k).map Prod.snd).getD (-2)
        match [rev - 1, rev, rev + 1].find? (fun r => decide (last < r) && decide (d.clock.now + 2 * p ≤ at_ r) && decide (at_ r < d.clock.now + 3 * p)) with
        | some r => d.putTrk n { t with trigAt := t.trigAt ++ [(k, at_ r)], trigRev := (k, r) :: t.trigRev.filter fun e => e.1 != k }
        | none => d
      else d.putTrk n { t with trigAt := t.trigAt.filter fun e => e.1 != k, trigRev := t.trigRev.filter fun e => e.1 != k }) d
  else d

/-- A state change takes effect (R98): the STATE cause is set. -/
def trkEnter (n s : Nat) (d : Dev) : Dev :=
  if d.get (TRK_STATE_STATE n) = s then d
  else (d.set (TRK_STATE_STATE n) s).cause (TRK_IRQ_STAT_STATE n)

/-- Both wheels are discarded (R98). -/
def trkDiscard (n : Nat) (d : Dev) : Dev :=
  let t := d.trkAt n
  let d := d.putTrk n { t with
    meas := none, conv := none, pendConv := none, pendState := none, cand := none,
    missed := false, synthInd := false, wasLost := false, recent := [], qualEnd := none, holdEnd := none, trigAt := [],
    trigRev := [], irig := [], irigBad := false, lastMarker := false, restart := {}, release := {}, structChg := false }
  let d := d.set (TRK_STATE_SYNTH n) 0
  let d := d.set (TRK_STATE_PULLING n) 0
  d.set (TRK_STATE_QUAL_REMAIN n) 0

/-- Seconds left until a time, rounded up. -/
def secsLeft (now : Nat) (t : Option Nat) : Nat := match t with | some x => divCeil (x - now) 1000000000 | none => 0

/-- R98, R85, R87: tracker `n` at a catch (or at a MOORED tick, R74). `enBefore` is ENABLE before the changes of this catch. -/
def trkCatch (n : Nat) (enBefore : Bool) (d : Dev) : Dev :=
  let en := d.on (TRK_CTRL_ENABLE n)
  let st := d.get (TRK_STATE_STATE n)
  let t := d.trkAt n
  let d :=
    if st = 0 then
      let d := d.putTrk n { t with restart := {}, release := {}, structChg := false }
      if en ∧ !enBefore then
        if d.tableValid n then
          let d := d.set (TRK_STATE_TABLE_ERR n) 0
          if d.hasReal n then trkEnter n 1 d else trkEnter n 3 d
        else (d.set (TRK_STATE_TABLE_ERR n) 1).cause (TRK_IRQ_STAT_TABLE_ERR n)
      else d
    else if !en then trkEnter n 0 (trkDiscard n d)
    else if t.restart.soon ∨ t.structChg then trkEnter n 1 (trkDiscard n d)
    else
      let t1 := if t.release.soon ∧ st = 5 then t.pend 4 else t
      let next := t1.pendState.getD st
      let t2 := { t1 with
        conv := (match t1.pendConv with | some w => some w | none => t1.conv),
        pendConv := none, pendState := none }
      let d := d.putTrk n t2
      let d := if (st = 4 ∨ st = 5) ∧ (next = 4 ∨ next = 5) then trkRevs n (d.convRev n d.nowU).toNat d else d
      let d := if next = 5 ∧ st ≠ 5 then quarantineStart n d else d
      let d := if next = 4 ∧ st = 5 then (d.putTrk n { d.trkAt n with holdEnd := none }).set (TRK_SCORE_SCORE n) 0 else d
      let d := if next = 4 ∧ st ≠ 4 ∧ st ≠ 5 then d.inc (TRK_COUNTS_B_LOST_CNT n) else d
      let d := if next = 4 ∨ next = 5 then
        (d.putTrk n { d.trkAt n with
          conv := d.coastOn n (d.trkAt n), cand := none, wasLost := true, qualEnd := none, lastMarker := false }).set (TRK_STATE_PULLING n) 0 else d
      let d := trkEnter n next d
      if next = 3 ∧ st = 2 ∧ t2.wasLost then
        if d.direct n then
          let sh := d.pullShift n
          let t := d.trkAt n
          let shift (w : Wheel) : Wheel := { w with rev := ((w.rev : Int) + sh).toNat }
          let d := d.putTrk n { t with
            meas := t.meas.map shift, expRev := ((t.expRev : Int) + sh).toNat,
            scoreRev := ((t.scoreRev : Int) + sh).toNat, acqRev := ((t.acqRev : Int) + sh).toNat,
            recent := t.recent.map fun r => { r with rev := ((r.rev : Int) + sh).toNat } }
          d.set (TRK_STATE_PULLING n) 1
        else d.putTrk n { d.trkAt n with wasLost := false }
      else d
  let d := d.putTrk n { d.trkAt n with
    restart := (d.trkAt n).restart.age
    release := (d.trkAt n).release.age }
  let d := if d.on (TRK_STATE_PULLING n) then pullCatch n d else d
  let st := d.get (TRK_STATE_STATE n)
  let d := d.putTrk n { d.trkAt n with synthInd := d.on (TRK_STATE_SYNTH n) || st == 4 || st == 5 || d.on (TRK_STATE_PULLING n) }
  let t := d.trkAt n
  let d := d.setSat (TRK_STATE_QUAL_REMAIN n) (secsLeft d.clock.now t.qualEnd)
  let d := d.setSat (TRK_SCORE_HOLD_REMAIN n) (secsLeft d.clock.now t.holdEnd)
  let d := d.sets (TRK_RATE_RATE n) (if d.direct n then
      (match t.conv with | some w => ((w.rNum : Int) - w.rDen) * 2 ^ 40 / w.rDen | none => 0) else 0)
  trigConvert n (if d.trkTiming n then d.putTrk n { d.trkAt n with revNo := (d.convRev n d.nowU).toNat } else d)

/-- R62: every tracker shifts its stored tooth times by a step. -/
def trkShift (n : Nat) (step : Int) (d : Dev) : Dev :=
  let u := step * 65536
  let t := d.trkAt n
  let sw (w : Wheel) : Wheel := { w with at_ := w.at_ + u }
  if t = {} then d else
  d.putTrk n { t with
    meas := t.meas.map sw, conv := t.conv.map sw, pendConv := t.pendConv.map sw,
    recent := t.recent.map fun r => { r with stamp := r.stamp + u },
    cand := t.cand.map fun c => { c with stamp := c.stamp + u }, irigAt := t.irigAt + u }

/-! ### Register access -/

/-- R98: RESTART at the next catch; accepted in the finish window, one catch later. -/
def trkRestart (n : Nat) (d : Dev) : Dev := d.putTrk n { d.trkAt n with restart := (d.trkAt n).restart.ask d.inFinish }

/-- R106: RELEASE, unless the gates are locked. -/
def trkRelease (n : Nat) (d : Dev) : Dev :=
  if bit d.rig.locks n then d else d.putTrk n { d.trkAt n with release := (d.trkAt n).release.ask d.inFinish }

/-- TT_ADDR.AUTOINC: INDEX increments after an access to TT_DATA_HI. -/
def ttInc (n : Nat) (d : Dev) : Dev :=
  if d.on (TRK_TT_ADDR_AUTOINC n) then d.set (TRK_TT_ADDR_INDEX n) (d.get (TRK_TT_ADDR_INDEX n) + 1) else d

/-- R79, R81: a write of TT_DATA_HI stores both halves while the tracker is OFF; bits [63:52] of an entry are reserved (R13). -/
def ttDataHiWrite (n v : Nat) (d : Dev) : Dev :=
  let i := d.get (TRK_TT_ADDR_INDEX n)
  let t := d.trkAt n
  let d := if d.get (TRK_STATE_STATE n) = 0 then
    d.putTrk n { t with table := awrite 0 i (d.get (TRK_TT_DATA_LO_LO n) + 2 ^ 32 * (v % 2 ^ 20)) t.table } else d
  ttInc n d

/-- Reads of the table data registers return the halves of the entry at INDEX (R81). -/
def ttRead (n : Nat) (hi : Bool) (d : Dev) : Nat × Dev :=
  let e := d.tooth n (d.get (TRK_TT_ADDR_INDEX n))
  if hi then (e / 2 ^ 32 % 2 ^ 32, ttInc n d) else (e % 2 ^ 32, d)

/-- The revolution number now (R95). -/
def Dev.revNow (d : Dev) (n : Nat) : Nat :=
  if d.trkTiming n then (d.convRev n d.nowU).toNat else (d.trkAt n).revNo

/-- A read of REV_NO_LO latches REV_HI. -/
def revNoLoRead (m : Master) (n : Nat) (d : Dev) : Nat × Dev :=
  (d.revNow n % 2 ^ 32, d.latchTo m (0x2008C + 0x200 * n) (d.revNow n / 2 ^ 32 % 2 ^ 32))

end Sys2Proof.Machine
end

