-- ==== Sys2Proof/Machine/Counter.lean ====
section
/-!
DEFINITION. Sys2Proof/Machine/Counter.lean: the reference counters CNT[0..31] (R114–R123).
-/
namespace Sys2Proof.Machine

/-- The counter runs: enabled, and not MOORED (R102). -/
def Dev.cntRuns (d : Dev) (n : Nat) : Bool := d.on (CNT_CTRL_ENABLE n) && d.mode != 0

/-- Push a counter split when SPLIT_EN is 1 (R121). -/
def cntSplit (n : Nat) (s : Split) (d : Dev) : Dev :=
  if d.on (CNT_CFG_SPLIT_EN n) then
    let t := d.cntAt n
    d.putCnt n { t with fifo := (t.fifo.push s).1 }
  else d

/-- R115: an edge of the input clock, stamped `stamp`. -/
def cntEdge (n : Nat) (stamp : Int) (d : Dev) : Dev :=
  if d.cntRuns n then
    let t := d.cntAt n
    let inGate := t.gateFrom.isSome
    d.putCnt n { t with
      count := (t.count + 1) % 2 ^ 48
      edgeAt := d.clock.now + 1
      fast := t.fast || (match t.lastEdge with | some s => decide ((stamp - s) * 8 < 10 * 65536) | none => false)
      lastEdge := some stamp
      edges := if inGate then t.edges + 1 else t.edges
      tFirst := if inGate && t.tFirst.isNone then some stamp else t.tFirst
      tLast := if inGate then some stamp else t.tLast }
  else d

/-- R114: the counter's input is a clock above 800 MHz: a synthesiser output whose frequency says so, or edges less than 1.25 ns apart. Its
results are free values (log entry 14). -/
def Dev.cntOver (d : Dev) (n : Nat) : Bool :=
  let s := d.get (CNT_CFG_SRC n)
  (d.cntAt n).fast || (decide (12 ≤ s) && decide (s ≤ 15) &&
    decide (800000000 * d.get (SYN_FRAC_DEN_DEN (s - 12)) * d.get (SYN_ODIV_ODIV (s - 12)) < 1000000000 * d.synNum (s - 12)))

/-- A count of the counter's input as software meets it: free when the input is too fast (R114). -/
def Dev.cntSeen (d : Dev) (n w v : Nat) : Nat := if d.cntOver n then Config.counterCount d.fresh % 2 ^ w else v

/-- R116: an index event occurs at TCLK `at_`. Tooth 0 of a tracker that gives tooth timing: the stamp of a real tooth, or the converted time
of a synthetic or virtual one; a line of the pin fabric at any time. -/
def Dev.idxLive (d : Dev) (n at_ : Nat) : Bool :=
  let k := d.get (CNT_CFG_IDX_SRC n)
  if 8 ≤ k then true
  else
    let t := d.trkAt k
    let real : Bool := (match t.cand with | some c => c.tooth == 0 && dueOf c.stamp == at_ | none => false) ||
      (match t.recent.head? with | some r => r.tooth == 0 && dueOf (r.stamp + d.delayU k) == at_ | none => false)
    let rev := d.convRev k (((at_ : Int) + 1) * 65536 - 1)
    let conv := dueOf (d.convertPhase k rev 0) == at_ && (!bit (d.tooth k 0) 48 || t.synthInd || d.on (TRK_STATE_SYNTH k))
    d.trkTiming k && (real || conv)

/-- R115: an index event in this TCLK: the count is captured and set to 0, by IDX_MODE; an edge in this TCLK counts after it. -/
def cntIndex (n : Nat) (d : Dev) : Dev :=
  let mode := d.get (CNT_CFG_IDX_MODE n)
  let now := d.clock.now
  if d.cntRuns n ∧ (d.cntAt n).idxAt ≠ now + 1 ∧ (mode = 1 ∨ (mode = 2 ∧ d.on (CNT_STATUS_ARMED n))) ∧ d.idxLive n now then
    let t := d.cntAt n
    let idx := t.idxCount + 1
    let same := b2n (t.edgeAt == now + 1)
    let d := d.putCnt n { t with count := same, idxCount := idx, idxAt := now + 1 }
    let d := if mode = 2 then d.set (CNT_STATUS_ARMED n) 0 else d
    let d := d.cause (CNT_IRQ_STAT_INDEX n)
    (cntSplit n (mkSplit ((now : Int) * 65536) (0x200 + n) 0x51 0 (d.cntSeen n 48 ((t.count + 2 ^ 48 - same) % 2 ^ 48)) idx) d).tick1
  else d

/-- R116: tooth 0 comes round on a wheel that coasts, or whose tooth 0 is virtual: its converted time alone gives the index. -/
def cntIdxTick (n : Nat) (d : Dev) : Dev :=
  let k := d.get (CNT_CFG_IDX_SRC n)
  if d.on (CNT_CTRL_ENABLE n) ∧ d.get (CNT_CFG_IDX_MODE n) ≠ 0 ∧ k < 8 ∧ (!bit (d.tooth k 0) 48 ∨ 4 ≤ d.get (TRK_STATE_STATE k)) then cntIndex n d
  else d

/-- R118: the FFO of a gate of `len` TCLK with `e` edges, in 2^-40 units, rounded to nearest (log entry 14). -/
def Dev.cntFfo (d : Dev) (n len e : Nat) (t : Cnt) : Option Int :=
  let nom := d.get (CNT_NOM_HZ_NOM n)
  let frac := d.on (CNT_CFG_FRAC n) && d.mode != 1 && d.mode != 4
  if d.cntOver n then some (Config.counterOver d.fresh)
  else if frac then
    match t.tFirst, t.tLast with
    | some a, some b =>
      if e < 2 ∨ b ≤ a then none
      else some (divRound (((e - 1 : Nat) : Int) * 65536 * 1000000000 * 2 ^ 40) ((b - a).toNat * nom) - 2 ^ 40)
    | _, _ => none
  else some (divRound ((e : Int) * 1000000000 * 2 ^ 40) (len * nom) - 2 ^ 40)

/-- R120: a change of QUALIFIED sets the QUAL cause. -/
def cntQualify (n : Nat) (q : Bool) (d : Dev) : Dev :=
  if d.on (CNT_STATUS_QUALIFIED n) = q then d
  else (d.setB (CNT_STATUS_QUALIFIED n) q).cause (CNT_IRQ_STAT_QUAL n)

/-- R118–R121: the open gate closes at this catch. A gate without edges gives −1, saturated (R118). DESIGN CHOICE, log entry 92: a FRAC gate
with fewer than 2 edges keeps FFO and VALID and still gives its split, with the FFO of the gate before, and the GATE cause; QUALIFIED is set
at a gate's close only; a gate without edges is not among the 16 results. -/
def cntGateClose (n : Nat) (d : Dev) : Dev :=
  let t := d.cntAt n
  match t.gateFrom with
  | none => d
  | some _ =>
    let restart := some (d.clock.now + d.get (CNT_QCFG_QUAL_S n) * 1000000000)
    let edges := d.cntSeen n 48 t.edges
    let d0 := d.putCnt n { t with gateFrom := none, edges := 0, tFirst := none, tLast := none, gateBad := false }
    if t.gateBad then d0
    else if t.edges = 0 then
      let d := (d0.set (CNT_STATUS_NO_SIGNAL n) 1).set (CNT_STATUS_VALID n) 0
      let d := (d.cause (CNT_IRQ_STAT_NO_SIGNAL n)).cause (CNT_IRQ_STAT_GATE n)
      let d := cntQualify n false (d.putCnt n { d.cntAt n with qualEnd := if t.results.length = 16 then restart else none })
      let d := if d.on (CNT_CFG_FRAC n) ∧ d.mode ≠ 1 ∧ d.mode ≠ 4 then d else d.sets (CNT_FFO_FFO n) (satS 32 (-(2 ^ 40)))
      cntSplit n (mkSplit d.nowU (0x200 + n) 0x50 0 0 (d.get (CNT_FFO_FFO n))) d
    else
      let len := d.clock.now - t.gateAt
      match d.cntFfo n len t.edges t with
      | none => cntSplit n (mkSplit d.nowU (0x200 + n) 0x50 0 edges (d.get (CNT_FFO_FFO n))) (d0.cause (CNT_IRQ_STAT_GATE n))
      | some raw =>
        let f := satS 32 raw
        let d := d0.sets (CNT_FFO_FFO n) f
        let d := ((d.set (CNT_STATUS_VALID n) 1).set (CNT_STATUS_NO_SIGNAL n) 0).cause (CNT_IRQ_STAT_GATE n)
        let prev := t.results
        let sum := prev.foldl (· + ·) 0
        let judged := decide (prev.length = 16)
        let out := judged && decide ((raw * 16 - sum).natAbs * 1000000000 > d.get (CNT_QCFG_FREQ_GATE_PPB n) * 16 * 2 ^ 40)
        let qualEnd := if !judged then none else if out then restart else some (t.qualEnd.getD (restart.getD 0))
        let d := d.putCnt n { d.cntAt n with results := (raw :: prev).take 16, qualEnd := qualEnd }
        let d := if out then cntQualify n false d
          else match qualEnd with
            | some q => if q ≤ d.clock.now then cntQualify n true d else d
            | none => d
        (cntSplit n (mkSplit d.nowU (0x200 + n) 0x50 0 edges (ofSigned 32 f)) d).tick1

/-- G strokes, 0 standing for 2^32 (R117). -/
def Dev.gateLen (d : Dev) (n : Nat) : Nat := let g := d.get (CNT_GATE_G n); if g = 0 then 2 ^ 32 else g

/-- R117: at a catch whose stroke number is a multiple of G a gate closes and the next opens; a change of GATE moves the end of the gate that
is open to the next multiple of the new G: DESIGN CHOICE, log entry 92. A gate that ends or opens at a catch contains it (R119). `enBefore` is ENABLE before this
catch; `bad` tells a step or a period change at this catch (R119). -/
def cntCatch (n : Nat) (enBefore bad : Bool) (d : Dev) : Dev :=
  let t := d.cntAt n
  if !d.on (CNT_CTRL_ENABLE n) ∨ d.mode = 0 then
    if t.gateFrom.isSome then d.putCnt n { t with gateFrom := none, edges := 0, tFirst := none, tLast := none, gateBad := false } else d
  else
    let d := if enBefore then d else cntQualify n false (d.putCnt n { t with idxCount := 0, results := [], qualEnd := none, fast := false, lastEdge := none })
    let d := if bad then d.putCnt n { d.cntAt n with gateBad := true } else d
    let d := if d.clock.strokeNo % d.gateLen n = 0 then
        (let d := cntGateClose n d
         d.putCnt n { d.cntAt n with gateFrom := some d.clock.strokeNo, gateAt := d.clock.now, gateBad := bad })
      else d
    d.setSat (CNT_STATUS_QUAL_REMAIN n) (secsLeft d.clock.now (d.cntAt n).qualEnd)

/-- R115: CTRL.ARM. -/
def cntArm (n : Nat) (d : Dev) : Dev := d.set (CNT_STATUS_ARMED n) 1

/-- A read of COUNT_LO latches COUNT_HI. -/
def countLoRead (m : Master) (n : Nat) (d : Dev) : Nat × Dev :=
  let c := d.cntSeen n 48 (d.cntAt n).count
  let d := d.latchTo m (0x22018 + 0x80 * n) (c / 2 ^ 32)
  (c % 2 ^ 32, if d.cntOver n then d.tick1 else d)

end Sys2Proof.Machine
end

