-- ==== Sys2Proof/Machine/Gates.lean ====
section
/-!
DEFINITION. Sys2Proof/Machine/Gates.lean: good standing (R487), the transmit gates (R200–R206) and `Dev.settle`, which
makes every consequence that the spec places in the same cycle as its cause.
-/
namespace Sys2Proof.Machine

/-- The active slot: 0 = A, 1 = B, if any slot is ACTIVE (R304). -/
def Dev.activeSlot (d : Dev) : Option Nat :=
  if d.get RIG_STATUS_STATE_A = 4 then some 0 else if d.get RIG_STATUS_STATE_B = 4 then some 1 else none

/-- The image a slot keeps. -/
def Dev.slotImage (d : Dev) (s : Nat) : Option Image := if s = 0 then d.rig.imgA else d.rig.imgB

/-- R487: the conditions of good standing. -/
def Dev.goodStanding (d : Dev) : Bool :=
  (d.lc == 1 || d.lc == 2) &&
  (List.range 6).all (fun i => !(bit (d.get TRUST_TAMP_STAT_LATCH) i && decide (1 ≤ d.get (TRUST_TAMP_CFG_RESPONSE i)))) &&
  !d.on TRUST_STATUS_KS_ERR && !d.on TRUST_STATUS_LC_REPAIR &&
  (match d.activeSlot with
   | some s => (match d.slotImage s with | some im => d.get (TRUST_KEYSLOT_STATE im.keySlot) == 1 | none => false)
   | none => false)

/-- The four kinds of qualification of R200. -/
def Dev.tbOk (d : Dev) : Bool := d.get TB_STATUS_STATE == 2 || d.get TB_STATUS_STATE == 3
def Dev.synOk (d : Dev) (k : Nat) : Bool := d.get (SYN_STATUS_STATE k) == 4
def Dev.rigOk (d : Dev) : Bool := d.activeSlot.isSome
def Dev.trustOk (d : Dev) : Bool := d.on TRUST_STATUS_GOOD

/-- R200, R201: every qualification that gate `n`'s configuration selects holds; in FIELD Q_TB, Q_RIG and Q_TRUST are 1. -/
def Dev.gateQual (d : Dev) (n : Nat) : Bool :=
  let forced := d.lc == 2
  (!(d.on (TXG_CFG_Q_TB n) || forced) || d.tbOk) &&
  (List.range 4).all (fun k => !(bit (d.get (TXG_CFG_Q_SYN n)) k) || d.synOk k) &&
  (!(d.on (TXG_CFG_Q_RIG n) || forced) || d.rigOk) &&
  (!(d.on (TXG_CFG_Q_TRUST n) || forced) || d.trustOk)

/-- R576: the instruction register holds EXTEST, HIGHZ, CLAMP, EXTEST_PULSE or EXTEST_TRAIN (R575). -/
def Dev.tapTest (d : Dev) : Bool := d.tap == 0x00 || d.tap == 0x08 || d.tap == 0x09 || d.tap == 0x0A || d.tap == 0x0B

/-- R205, R576: TXINH_N is driven low while a selected gate is not OPEN, and while the TAP holds a test instruction. -/
def Dev.txinh (d : Dev) : Bool :=
  d.tapTest || (List.range 8).any fun n => bit (d.get TXG_INH_CFG_INH_MASK) n && d.get (TXG_STATUS_STATE n) != 2

/-- R201: in FIELD the three qualifications are set. -/
def gateForce (n : Nat) (d : Dev) : Dev :=
  if d.lc = 2 then ((d.set (TXG_CFG_Q_TB n) 1).set (TXG_CFG_Q_RIG n) 1).set (TXG_CFG_Q_TRUST n) 1 else d

/-- The qualification bits of gate `n` (R200). -/
def gateShow (n : Nat) (d : Dev) : Dev :=
  (((d.setB (TXG_STATUS_TB_OK n) d.tbOk).setB (TXG_STATUS_RIG_OK n) d.rigOk).setB (TXG_STATUS_TRUST_OK n) d.trustOk).set
    (TXG_STATUS_SYN_OK n) (b2n (d.synOk 0) + 2 * b2n (d.synOk 1) + 4 * b2n (d.synOk 2) + 8 * b2n (d.synOk 3))

/-- R202: an open request that a CLOSED gate has taken in this TCLK is judged after the requests of the TCLK. R203: an OPEN gate whose
qualification has fallen closes and counts. -/
def gateDrop (n : Nat) (d : Dev) : Dev :=
  if (d.gateAt n).askAt = d.clock.now + 1 ∧ d.get (TXG_STATUS_STATE n) ≠ 0 then d.set (TXG_STATUS_STATE n) (if d.gateQual n then 2 else 1)
  else if d.get (TXG_STATUS_STATE n) = 2 ∧ !d.gateQual n then
    ((d.set (TXG_STATUS_STATE n) 0).inc (TXG_COUNTS_DISQ_CNT n)).causeBit TXG_IRQ_STAT_DISQ n
  else d

/-- One gate: its configuration in FIELD, its qualification bits, and the loss of its qualification. -/
def settleGate (n : Nat) (d : Dev) : Dev := gateDrop n (gateShow n (gateForce n d))

/-- One bit per gate in a state. -/
def Dev.gateMask (d : Dev) (s : Nat) : Nat :=
  (List.range 8).foldl (fun m n => m + b2n (d.get (TXG_STATUS_STATE n) == s) * 2 ^ n) 0

/-- TXG.STATUS shows the gates and TXINH_N (R205). -/
def txgShow (d : Dev) : Dev :=
  let d := d.set TXG_ALL_STATUS_OPEN (d.gateMask 2)
  let d := d.set TXG_ALL_STATUS_PENDING (d.gateMask 1)
  d.setB TXG_ALL_STATUS_TXINH d.txinh

/-- The consequences of the state in the same cycle: GOOD (R487), the gates (R203) and TXINH_N (R205). -/
def Dev.settle (d : Dev) : Dev := txgShow (forUpTo 8 settleGate (d.setB TRUST_STATUS_GOOD d.goodStanding))

/-- R204: in MOORED and BOATHOUSE every open request is rejected in its own cycle. -/
def gateReject (n : Nat) (d : Dev) : Dev :=
  ((d.cause (TXG_STATUS_LAST_REJECT n)).inc (TXG_COUNTS_REJECT_CNT n)).causeBit TXG_IRQ_STAT_REJECT n

/-- R203: an open request in the TCLK `at_`. -/
def gateOpenReq (n at_ : Nat) (d : Dev) : Dev :=
  if d.mode = 0 ∨ d.mode = 5 then gateReject n d
  else if d.get (TXG_STATUS_STATE n) = 0 then
    (d.set (TXG_STATUS_STATE n) (if d.gateQual n then 2 else 1)).putGate n { d.gateAt n with reqAt := at_, askAt := at_ + 1 }
  else d

/-- R203: a close request. -/
def gateCloseReq (n : Nat) (d : Dev) : Dev := d.set (TXG_STATUS_STATE n) 0

/-- R202: CTRL.OPEN and CTRL.CLOSE request at the catch at which the write applies; both bits together act as CLOSE, and of two writes for
one catch the later decides. -/
def txgCtrlOpen (n : Nat) (d : Dev) : Dev :=
  let g := d.gateAt n
  d.putGate n { g with openReq := g.openReq.ask d.inFinish, closeReq := g.closeReq.drop d.inFinish }
def txgCtrlClose (n : Nat) (d : Dev) : Dev :=
  let g := d.gateAt n
  d.putGate n { g with closeReq := g.closeReq.ask d.inFinish, openReq := g.openReq.drop d.inFinish }

/-- Hand over the CTRL request due at this catch; one accepted in the finish window waits one catch more (R24). -/
def gateHostReq (n : Nat) (d : Dev) : Dev :=
  let g := d.gateAt n
  if g.openReq = {} ∧ g.closeReq = {} then d
  else
    let d := d.putGate n { g with openReq := g.openReq.age, closeReq := g.closeReq.age }
    if g.openReq.soon then gateOpenReq n d.clock.now d else if g.closeReq.soon then gateCloseReq n d else d

/-- R203: a PENDING gate at a catch opens when qualified, and is rejected once TIMEOUT_MS has passed since its request. -/
def gatePending (n : Nat) (d : Dev) : Dev :=
  if d.get (TXG_STATUS_STATE n) = 1 then
    if d.gateQual n then d.set (TXG_STATUS_STATE n) 2
    else if (d.gateAt n).reqAt + d.get (TXG_CFG_TIMEOUT_MS n) * 1000000 ≤ d.clock.now then
      gateReject n (d.set (TXG_STATUS_STATE n) 0)
    else d
  else d

/-- R203: entry to MOORED or BOATHOUSE, and a warm reset with WARM_HOLD = 0, close the gate and cancel a request. -/
def gateForceClose (n : Nat) (d : Dev) : Dev :=
  (d.set (TXG_STATUS_STATE n) 0).putGate n { d.gateAt n with openReq := {}, closeReq := {} }

def gateWarm (n : Nat) (d : Dev) : Dev := if d.on (TXG_CFG_WARM_HOLD n) then d else gateForceClose n d

end Sys2Proof.Machine
end

