-- ==== Sys2Proof/Machine/Syn.lean ====
section
/-!
DEFINITION. Sys2Proof/Machine/Syn.lean: the output synthesisers SYN[0..3] (R190–R197).
-/
namespace Sys2Proof.Machine

/-- R195: synthesiser `n` is present in a mode. -/
def synPresent (mode n : Nat) : Bool :=
  mode == 2 || mode == 3 || mode == 5 || ((mode == 1 || mode == 4) && decide (n < 2))

/-- A state change sets the STATE cause (R194). -/
def synEnter (n s : Nat) (d : Dev) : Dev := (d.set (SYN_STATUS_STATE n) s).cause (SYN_IRQ_STAT_STATE n)

/-- R192: the output frequency times PERIOD_S is a whole number. -/
def Dev.synWhole (d : Dev) (n : Nat) : Bool :=
  (1000000000 * d.synNum n * d.get (SYN_ALIGN_PERIOD_S n)) % (d.get (SYN_FRAC_DEN_DEN n) * d.get (SYN_ODIV_ODIV n)) == 0

/-- R192: NO_ALIGN shows a synthesiser held in LOCKED_UNALIGNED because its frequency does not fit the grid. -/
def synNoAlign (n : Nat) (d : Dev) : Dev :=
  d.setB (SYN_STATUS_NO_ALIGN n) (d.get (SYN_STATUS_STATE n) == 3 && d.on (SYN_ALIGN_ALIGN_EN n) && !d.synWhole n)

/-- Enter CALIBRATING: the calibration starts from its beginning, and no round runs (R194, R197). -/
def synCalibrate (n : Nat) (d : Dev) : Dev :=
  synNoAlign n (synEnter n 1 (d.putSyn n { d.synAt n with
    since := d.clock.now, recal := {}, roundAt := none, nextRound := none, slices := 0, out := false }))

/-- R194: the full calibration completes. R197: the first round starts INTERVAL_S later (log entry 91). -/
def synCalDone (n : Nat) (d : Dev) : Dev :=
  if d.get (SYN_STATUS_STATE n) = 1 then
    synEnter n 2 (d.putSyn n { d.synAt n with
      since := d.clock.now, nextRound := some (d.clock.now + d.get (SYN_CAL_CFG_INTERVAL_S n) * 1000000000) })
  else d

/-- R194: phase lock is detected: not before 100 µs after the entry to SETTLING. The output is enabled; it stays so when lock is lost. -/
def synLock (n : Nat) (d : Dev) : Dev :=
  if d.get (SYN_STATUS_STATE n) = 2 ∧ (d.synAt n).since + 100000 ≤ d.clock.now then
    synNoAlign n (synEnter n 3 (d.putSyn n { d.synAt n with out := true }))
  else d

/-- R194: lock is lost. -/
def synLockLost (n : Nat) (d : Dev) : Dev :=
  if d.get (SYN_STATUS_STATE n) = 3 ∨ d.get (SYN_STATUS_STATE n) = 4 then
    let d := (d.inc (SYN_COUNTS_LOCK_LOSS_CNT n)).cause (SYN_IRQ_STAT_LOCK_LOST n)
    synNoAlign n (synEnter n 2 (d.putSyn n { d.synAt n with since := d.clock.now }))
  else d

/-- R194, R192: the output phase reaches the grid. -/
def synAligned (n : Nat) (d : Dev) : Dev :=
  if d.get (SYN_STATUS_STATE n) = 3 ∧ d.on (SYN_ALIGN_ALIGN_EN n) ∧ d.synWhole n then synEnter n 4 d else d

/-- R194: RECAL forces CALIBRATING at the next catch; accepted in the finish window, one catch later (R24). -/
def synRecal (n : Nat) (d : Dev) : Dev := d.putSyn n { d.synAt n with recal := (d.synAt n).recal.ask d.inFinish }

/-- The guard tracker gives tooth timing and guard periods are declared (R197). -/
def Dev.guardLive (d : Dev) (n : Nat) : Bool := d.on (SYN_GUARD_EN n) && d.trkTiming (d.get (SYN_GUARD_TRK n))

/-- Slices of the current round that have run by device time in the open guard period (R196): each takes 1,500 ns and runs only if it ends
before the period does. One under way when guard periods end is lost (R197). -/
def synSlices (n : Nat) (d : Dev) : Dev :=
  let s := d.synAt n
  let k := (min d.clock.now s.guardEnd - s.sliceEnd) / 1500
  if s.roundAt.isNone ∨ s.guardEnd ≤ s.sliceEnd then d
  else if !d.guardLive n then d.putSyn n { s with guardEnd := 0 }
  else if k = 0 then d
  else
    let total := min 64 (s.slices + k)
    let s := { s with slices := total, sliceEnd := s.sliceEnd + 1500 * k }
    if total = 64 then (d.putSyn n { s with roundAt := none, slices := 0 }).set (SYN_STATUS_CAL_OVERDUE n) 0 else d.putSyn n s

/-- R196: the guard period whose time has been converted opens. -/
def guardPeriod (n : Nat) (d : Dev) : Dev :=
  match (d.synAt n).guardAt.head? with
  | some t =>
    if d.guardLive n ∧ d.get (SYN_STATUS_STATE n) ≠ 0 then
      let d := synSlices n d
      d.putSyn n { d.synAt n with guardAt := (d.synAt n).guardAt.tail, guardEnd := t + d.get (SYN_GUARD_LEN_NS n), sliceEnd := t }
    else d.putSyn n { d.synAt n with guardAt := (d.synAt n).guardAt.tail }
  | none => d

/-- R197: a round starts, and the next one is due INTERVAL_S later; one still running goes on. -/
def calRound (n : Nat) (d : Dev) : Dev :=
  let s := d.synAt n
  if 2 ≤ d.get (SYN_STATUS_STATE n) then
    let d := d.putSyn n { s with nextRound := some (d.clock.now + d.get (SYN_CAL_CFG_INTERVAL_S n) * 1000000000) }
    if s.roundAt.isSome then d
    else d.putSyn n { d.synAt n with roundAt := some d.clock.now, slices := 0, sliceEnd := max s.sliceEnd d.clock.now }
  else d

/-- The current round becomes overdue (R197). -/
def Dev.calLimit (d : Dev) (n : Nat) : Option Nat :=
  if d.on (SYN_STATUS_CAL_OVERDUE n) then none
  else (d.synAt n).roundAt.map fun t => t + 4 * d.get (SYN_CAL_CFG_INTERVAL_S n) * 1000000000

/-- R197: a round not completed within 4 × INTERVAL_S sets CAL_OVERDUE. -/
def calOverdue (n : Nat) (d : Dev) : Dev :=
  let d := synSlices n d
  if (d.synAt n).roundAt.isSome then (d.set (SYN_STATUS_CAL_OVERDUE n) 1).cause (SYN_IRQ_STAT_CAL_OVERDUE n) else d

/-- R196, R113: at a catch convert the next guard period when it lies between 2 and 3 strokes ahead; a revolution is converted once. -/
def guardConvert (n : Nat) (d : Dev) : Dev :=
  if d.guardLive n then
    let t := d.get (SYN_GUARD_TRK n)
    let p := d.period
    let at_ (rev : Int) : Nat := ((d.convertPhase t rev (d.get (SYN_GUARD_POS_POS n)) + 32768) / 65536).toNat
    let rev := d.convRev t (((d.clock.now + 2 * p : Nat) : Int) * 65536)
    let s := d.synAt n
    match [rev - 1, rev, rev + 1].find? (fun r => decide (s.guardRev.getD (-2) < r) && decide (d.clock.now + 2 * p ≤ at_ r) &&
        decide (at_ r < d.clock.now + 3 * p)) with
    | some r => d.putSyn n { s with guardAt := s.guardAt ++ [at_ r], guardRev := some r }
    | none => d
  else if (d.synAt n).guardRev.isSome then d.putSyn n { d.synAt n with guardRev := none }
  else d

/-- R191: the frequency words in force after a catch are checked: ODIV moves to the nearest divider that keeps the output in
range, and PHASE_PS stays below one output period (R580). -/
def odivCheck (n : Nat) (d : Dev) : Dev := (d.reclamp (SYN_ODIV_ODIV n)).reclamp (SYN_PHASE_PS_PHASE n)

/-- R194, R195: synthesiser `n` at a catch. `freqChg`: N, NUM, DEN or ODIV changed; `gridChg`: PHASE_PS or ALIGN changed, or the
time stepped (R193). -/
def synCatch (n : Nat) (freqChg gridChg : Bool) (d : Dev) : Dev :=
  let d := synSlices n d
  let st := d.get (SYN_STATUS_STATE n)
  let s := d.synAt n
  let run := d.on (SYN_CTRL_ENABLE n) && synPresent d.mode n
  let recal := s.recal.soon
  let d := if s.recal = {} then d else d.putSyn n { s with recal := s.recal.age }
  let d :=
    if !run then
      (if st = 0 then d else synNoAlign n (synEnter n 0 (d.putSyn n {})))
    else if st = 0 ∨ freqChg ∨ recal then synCalibrate n d
    else if st = 4 ∧ gridChg then synNoAlign n (synEnter n 3 d)
    else synNoAlign n d
  guardConvert n d

end Sys2Proof.Machine
end

