-- ==== Sys2Proof/Machine/Monitor.lean ====
section
/-!
DEFINITION. Sys2Proof/Machine/Monitor.lean: the monitor converter, die temperature, supplies and alarms (R526–R532), and the
events that channels and trackers hand to other units: converter triggers, DMA events (R421), engine signals (R215).
-/
namespace Sys2Proof.Machine

/-- R528: the input is occupied by a held sample that waits or is being converted. -/
def Dev.ainBusy (d : Dev) (i : Nat) : Bool :=
  d.mon.held.any (fun h => h.ain == i) || (match d.mon.conv with | some c => c.trig && c.ain == i | none => false)

/-- R526, R528: a trigger in TCLK `t` names input `i`: it holds at t + 8, or is lost. -/
def adcHold (t i : Nat) (d : Dev) : Dev :=
  let same := d.mon.held.any (fun h => h.ain == i && h.at_ == t + 8)
  if same then d
  else if d.ainBusy i then d.inc MON_COUNTS_TRIG_OVR_CNT
  else { d with mon := { d.mon with held := d.mon.held ++ [⟨i, t + 8⟩] } }

/-- R526: a trigger in TCLK `t` names the inputs of `mask`; triggers stop in MOORED (R529). -/
def adcTrigger (t mask : Nat) (d : Dev) : Dev :=
  if d.mode = 0 then d else (List.range 16).foldl (fun d i => if bit mask i then adcHold t i d else d) d

/-- The inputs of a scan round: those with SCAN set and those that an enabled oscillator's THERM names (R527). -/
def Dev.scanSet (d : Dev) : List Nat :=
  (List.range 16).filter fun i => d.on (MON_AIN_CFG_SCAN i) ||
    (List.range 4).any (fun n => d.on (TB_OSC_CFG_ENABLE n) && d.get (TB_OSC_CFG_THERM n) == i)

/-- The held sample that comes first: in order of hold instant, then of index (R527). -/
def firstHeld : List Held → Option Held
  | [] => none
  | h :: r =>
    match firstHeld r with
    | some b => if b.at_ < h.at_ ∨ (b.at_ = h.at_ ∧ b.ain < h.ain) then some b else some h
    | none => some h

/-- The next input of the scan round. -/
def Dev.scanPick (d : Dev) : Option Nat :=
  if d.mode = 0 then d.mon.moored.head?
  else if d.on MON_CTRL_SCAN_EN then
    match d.scanSet.find? (fun i => decide (d.mon.scanNext ≤ i)) with
    | some i => some i
    | none => d.scanSet.head?
  else none

/-- Start a scan conversion of input `i`. -/
def scanStart (i : Nat) (d : Dev) : Dev :=
  { d with mon := { d.mon with
      conv := some ⟨i, d.clock.now, false, d.clock.now⟩, scanNext := i + 1, trigRun := 0, moored := d.mon.moored.tail } }

/-- Start the conversion of a held sample. -/
def heldStart (h : Held) (d : Dev) : Dev :=
  { d with mon := { d.mon with
      held := d.mon.held.filter (· ≠ h), conv := some ⟨h.ain, d.clock.now, true, h.at_⟩, trigRun := d.mon.trigRun + 1 } }

/-- R527: the converter, when free, starts the next conversion: of a held sample, or of the scan when that is due after 1,000 others. -/
def adcPump (d : Dev) : Dev :=
  if d.mon.conv.isSome then d
  else
    let held := (firstHeld d.mon.held).filter fun h => decide (h.at_ ≤ d.clock.now)
    match d.scanPick, held with
    | some i, some h => if d.mon.trigRun < 1000 then heldStart h d else scanStart i d
    | some i, none => scanStart i d
    | none, some h => heldStart h d
    | none, none => d

/-- One alarm's run counters (R532): `idx` is its bit in ALARM, `need` the results that enter or leave it. -/
def alarmStep (idx need : Nat) (enabled inside : Bool) (d : Dev) : Dev :=
  let out := if inside then 0 else aget 0 idx d.mon.outRun + 1
  let inn := if inside then aget 0 idx d.mon.inRun + 1 else 0
  let d := { d with mon := { d.mon with outRun := awrite 0 idx out d.mon.outRun, inRun := awrite 0 idx inn d.mon.inRun } }
  let f := if idx < 16 then MON_ALARM_AIN else MON_ALARM_SUP
  let b := idx % 16
  let inAlarm := bit (d.get f) b
  if !inAlarm && enabled && decide (need ≤ out) then (d.setBit f b).causeBit MON_IRQ_STAT_ONSET idx
  else if inAlarm && decide (need ≤ inn) then d.clrBit f b
  else d

/-- The code of an input voltage in µV: round(V / 1.2 V × 65,536), clamped to 65,535 (R573). -/
def adcCode (microvolts : Nat) : Nat := min 65535 ((2 * microvolts * 65536 + 1200000) / (2 * 1200000))

/-- R526: the conversion in progress ends 1,000 TCLK after its start; its result is written, its alarm is judged, and the next
conversion starts. -/
def adcEnd (microvolts : Nat) (d : Dev) : Dev :=
  match d.mon.conv with
  | none => d
  | some c =>
    let d := if d.mode = 0 then d else d.to (c.start + 1000)
    let code := adcCode microvolts
    let d := (d.set (MON_AIN_RESULT_CODE c.ain) code).set (MON_AIN_RESULT_VALID c.ain) 1
    let d := d.setB (MON_AIN_RESULT_TRIG c.ain) c.trig
    let d := d.set (MON_AIN_STAMP_PT c.ain) (c.stampAt % 2 ^ 32)
    let d := { d with mon := { d.mon with conv := none } }
    let inside := decide (d.get (MON_AIN_LIMIT_LO c.ain) ≤ code) && decide (code ≤ d.get (MON_AIN_LIMIT_HI c.ain))
    adcPump (alarmStep c.ain (d.get (MON_AIN_CFG_DEBOUNCE c.ain)) (d.on (MON_AIN_CFG_ALARM_EN c.ain)) inside d)

/-- ALARM_N is driven low (R532). -/
def Dev.alarmN (d : Dev) : Bool :=
  (List.range 32).any fun i => bit (d.get MON_ALARM_MASK_MASK) i &&
    bit (d.get (if i < 16 then MON_ALARM_AIN else MON_ALARM_SUP)) (i % 16)

/-- R531: supply `k` is measured in this mode. -/
def Dev.supMeasured (d : Dev) (k : Nat) : Bool := d.mode != 0 || k == 4 || k == 5

/-- R531, R532: one measurement of every supply, in mV by index. -/
def supplySample (mv : List Nat) (d : Dev) : Dev :=
  (List.range 16).foldl (fun d k =>
    match mv[k]? with
    | some v =>
      if d.supMeasured k then
        let d := d.setSat (MON_SUP_VALUE_MV k) v
        let v := d.get (MON_SUP_VALUE_MV k)
        alarmStep (16 + k) 4 true (decide (d.get (MON_SUP_WIN_LO_MV k) ≤ v) && decide (v ≤ d.get (MON_SUP_WIN_HI_MV k))) d
      else d
    | none => d) d

/-- R531: a supply lies within its test range: ±3 % of nominal, ±5 % of the nearest class for a VDDIO bank. -/
def Dev.supInTest (d : Dev) (k : Nat) : Bool :=
  let v := d.get (MON_SUP_VALUE_MV k)
  if k < 8 then decide (supNominal k * 97 ≤ v * 100) && decide (v * 100 ≤ supNominal k * 103)
  else
    let c := if 2 * v ≤ 1800 + 2500 then 1800 else if 2 * v ≤ 2500 + 3300 then 2500 else 3300
    decide (c * 95 ≤ v * 100) && decide (v * 100 ≤ c * 105)

/-- R530: sensor `k` reads `t` in 1/16 °C, or gives no VALID reading. -/
def tempRead (k : Nat) (t : Option Int) (d : Dev) : Dev :=
  match t with
  | some t => (d.sets (MON_TEMP_TEMP k) t).set (MON_TEMP_VALID k) 1
  | none => d.set (MON_TEMP_VALID k) 0

/-- R70: the temperature range seen in a holdover takes in a die temperature of `x`, in 1/16 °C. -/
def tempSeen (x : Int) (d : Dev) : Dev :=
  if d.tb.holdFrom.isSome then { d with tb := { d.tb with tempLo := min d.tb.tempLo x, tempHi := max d.tb.tempHi x } } else d

/-- R530: the die temperature: the highest VALID reading, rounded down to a whole degree. PWR.STATUS.TEMP shows it; what that field shows
of a temperature outside its range is free (log entry 32). -/
def dieTemp (d : Dev) : Dev :=
  match (((List.range 4).filter fun k => d.on (MON_TEMP_VALID k)).map fun k => d.gets (MON_TEMP_TEMP k)) with
  | [] => d
  | t :: r =>
    let x := r.foldl max t
    let d := tempSeen x { d with pwr := { d.pwr with deg16 := x } }
    let v := x / 16
    if -128 ≤ v ∧ v < 128 then d.sets PWR_STATUS_TEMP v else (d.set PWR_STATUS_TEMP (Config.tempField d.fresh)).tick1

/-- R541: at the start of a warm reset held samples are discarded. -/
def monWarm (d : Dev) : Dev := { d with mon := { d.mon with held := [] } }

/-! ### Events handed to other units -/

/-- R421: an event reaches DMA channel `c`. At 255 it is lost, unless a consumption of the same TCLK makes place for it. -/
def dmaEvent (c : Nat) (d : Dev) : Dev :=
  if d.get (DMA_STATUS_STATE c) = 0 then d
  else if d.get (DMA_STATUS_EV_COUNT c) = 255 then { d with cyc := { d.cyc with evLost := c :: d.cyc.evLost } }
  else d.inc (DMA_STATUS_EV_COUNT c)

/-- R159, R421: TRIG_DMA names channel `c`; it counts when EV_CH is 1. -/
def trigDma (c : Nat) (d : Dev) : Dev := if d.on (DMA_CFG_EV_CH c) then dmaEvent c d else d

/-- R159, R215: SIGNAL_CE sets bit `b` of engine `n`'s signal word. The sets of the last 4 TCLK are kept: a clearing write of the same
engine cycle leaves them 1. -/
def signalCe (n b : Nat) (d : Dev) : Dev :=
  let c : Ce := aget {} n d.ce
  let recent := (d.clock.now, b) :: c.sigSet.filter fun e => decide (d.clock.now ≤ e.1 + 4)
  { d.setBit (CE_SPEC_VALUE n 4) b with ce := awrite {} n { c with sigSet := recent } d.ce }

/-- R112: an enabled phase trigger fires at its converted time. -/
def phaseTrigger (n k : Nat) (d : Dev) : Dev :=
  match (d.trkAt n).trigAt.find? fun e => e.1 == k with
  | none => d
  | some (i, t) =>
    let d := d.putTrk n { d.trkAt n with trigAt := (d.trkAt n).trigAt.erase (i, t) }
    if d.on (TRK_TRIG_CFG_EN n k) ∧ d.trkTiming n ∧ d.mode ≠ 0 then
      let d := adcTrigger t (d.get (TRK_TRIG_CFG_AIN_MASK n k)) (d.to t)
      if d.on (TRK_TRIG_CFG_XOUT n k) then d.putTrk n { d.trkAt n with trigLine := t + 4 } else d
    else d

end Sys2Proof.Machine
end

