-- ==== Sys2Proof/Machine/Channel.lean ====
section
/-!
DEFINITION. Sys2Proof/Machine/Channel.lean: the timer channels CH[0..255] (R151–R189, R581). Times are in units of 2^-16 ns of
device TAI; the TCLK of a time is the nanosecond that contains it.
-/
namespace Sys2Proof.Machine

/-! ### Presence and output -/

/-- R151: channel `n` is present in a mode. -/
def chPresent (mode n : Nat) : Bool :=
  mode == 2 || mode == 3 || mode == 5 || ((mode == 1 || mode == 4) && decide (n < 64))

/-- The output does not follow level actions: in fallback (R183), and in BOATHOUSE (R151). -/
def Dev.chHeld (d : Dev) (n : Nat) : Bool := d.on (CH_STATUS_FALLBACK n) || d.mode == 5

/-- The level that level actions act on. -/
def Dev.chLevel (d : Dev) (n : Nat) : Bool := if d.chHeld n then (d.chAt n).tracked else d.on (CH_STATUS_LEVEL n)

/-- R152: the time at which a transition is placed; in PADDLE and FORERUNNER the start of the due TCLK. -/
def Dev.placed (d : Dev) (n : Nat) (t : Int) : Int :=
  if d.mode = 1 ∨ d.mode = 4 then (dueOf t : Int) * 65536
  else divRound (t + d.gets (CH_SKEW_OUT_SKEW n) * 64) 64 * 64

/-- R162: the transitions kept once the output, at level `old`, takes the level `v` in TCLK `now`, placed at `p`: one TCLK has at most one,
and none when its last level is that of its start. -/
def outStep (now : Nat) (old v : Bool) (p : Int) : List OutChg → List OutChg
  | [] => if old = v then [] else [⟨now, old, p⟩]
  | e :: r =>
    if e.at_ = now then (if e.was = v then r else ⟨now, e.was, p⟩ :: r)
    else if old = v then e :: r
    else ⟨now, old, p⟩ :: e :: r.filter fun x => decide (now ≤ x.at_ + 4)

/-- The output of channel `n` takes the level `v` by a change at time `t` (R152, R162). -/
def setOut (n : Nat) (v : Bool) (t : Int) (d : Dev) : Dev :=
  let c := d.chAt n
  (d.putCh n { c with outs := outStep d.clock.now (d.on (CH_STATUS_LEVEL n)) v (d.placed n t) c.outs }).setB (CH_STATUS_LEVEL n) v

/-- The driver of channel `n` is enabled or released by a change at time `t` (R180, R181). -/
def setDrive (n : Nat) (v : Bool) (t : Int) (d : Dev) : Dev :=
  if d.on (CH_STATUS_DRIVEN n) = v then d
  else (d.putCh n { d.chAt n with drvAt := d.placed n t }).setB (CH_STATUS_DRIVEN n) v

/-- Set the level that level actions act on. -/
def setLevel (n : Nat) (v : Bool) (t : Int) (d : Dev) : Dev :=
  if d.chHeld n then d.putCh n { d.chAt n with tracked := v } else setOut n v t d

/-- Show the queue, the FIFO, the train and the gate in STATUS. -/
def chShow (n : Nat) (d : Dev) : Dev :=
  let c := d.chAt n
  let d := d.set (CH_STATUS_QDEPTH n) c.queue.length
  let d := d.set (CH_STATUS_FIFO_DEPTH n) c.fifo.items.length
  let d := d.setB (CH_STATUS_TRAIN_RUN n) c.train.isSome
  let d := d.set (CH_STATUS_GEN n) c.fifo.gen
  d.setB (CH_STATUS_CAP_OPEN n)
    (if d.on (CH_CAP_CFG_ALWAYS n) then d.get (CH_CAP_CFG_MEAS n) != 0 else c.armedAt.isSome && c.disarmAt.isNone)

/-- R180: the level in which a starvation action leaves a line that was at `v`. -/
def actionLevel (action : Nat) (v : Bool) : Bool := match action with | 1 => false | 2 => true | _ => v

/-- R180: apply a starvation action to the output, in this TCLK. -/
def starveOutput (n action : Nat) (d : Dev) : Dev :=
  if action = 0 then d
  else setDrive n (action != 3) d.nowU (setOut n (actionLevel action (d.on (CH_STATUS_LEVEL n))) d.nowU d)

/-- R181: a level action at time `t` ends starvation and re-enables a released driver. -/
def starveEnd (n : Nat) (t : Int) (d : Dev) : Dev :=
  let d := d.set (CH_STATUS_STARVED n) 0
  if d.chHeld n then d else setDrive n true t d

/-! ### Splits -/

/-- R173–R177: a split of channel `n`; `flags` without STALE, which fallback adds (R175). -/
def chSplit (n : Nat) (stamp : Int) (kind flags value secondary : Nat) (d : Dev) : Dev :=
  let flags := flags + b2n (d.on (CH_STATUS_FALLBACK n))
  let c := d.chAt n
  let (f, stored) := c.fifo.push (mkSplit stamp n kind flags value secondary)
  let d := d.putCh n { c with fifo := f }
  if stored then d.cause (CH_IRQ_STAT_SPLIT n)
  else (d.inc (CH_COUNTS_A_OVERFLOW_CNT n)).cause (CH_IRQ_STAT_OVERFLOW n)

/-- R143, R157: a DROPPED split with the LATE flag; `full` tells a full queue (R142). -/
def droppedSplit (n : Nat) (time : Int) (word : Nat) (synth full : Bool) (d : Dev) : Dev :=
  chShow n (chSplit n time 0x03 (4 + 2 * b2n synth) word (b2n full) (d.cause (CH_IRQ_STAT_DROP n)))

/-- R177: FIFO_CLEAR. -/
def fifoClear (n : Nat) (d : Dev) : Dev :=
  let c := d.chAt n
  chShow n (d.putCh n { c with fifo := { c.fifo with items := [], ovf := false } })

/-- COUNT_CLEAR. -/
def chCountClear (n : Nat) (d : Dev) : Dev :=
  let d := (d.set (CH_COUNT_LIVE_COUNT n) 0).set (CH_COUNTS_A_OVERFLOW_CNT n) 0
  ((d.set (CH_COUNTS_A_REFUSED_CNT n) 0).set (CH_COUNTS_B_STARVE_CNT n) 0).set (CH_COUNTS_B_FLUSH_CNT n) 0

/-! ### Internally generated edges -/

/-- The time of the earliest TRAIN_STOP in the queue. -/
def stopTime (q : List ChEvent) : Option Int :=
  q.foldl (fun m e => if e.action = 6 then (match m with | some t => some (min t e.time) | none => some e.time) else m) none

/-- R163, R164: the train advances over every edge before time `lim`. -/
def trainTo (n : Nat) (lim : Int) (d : Dev) : Dev :=
  let c := d.chAt n
  match c.train with
  | none => d
  | some tr =>
    let per : Int := tr.period
    let byTime : Int := if tr.start < lim then (lim - 1 - tr.start) / per + 1 else 0
    let byStop : Int := match stopTime c.queue with
      | some s => if s - tr.high - tr.start < 0 then 0 else (s - tr.high - tr.start) / per + 1
      | none => byTime
    let byCount : Int := if tr.count = 0 then byTime else tr.count
    let k := max tr.k (min (min byTime byStop) byCount).toNat
    let idle := d.on (CH_CFG_IDLE n)
    let started := tr.start + ((k : Int) - 1) * per
    let upEnd := if k = tr.k then tr.upEnd else started + tr.high
    let wasUp := tr.up || decide (tr.k < k)
    let up := wasUp && decide (lim ≤ upEnd)
    let d := if wasUp then setLevel n (if up then !idle else idle) (if up then started else upEnd) d else d
    let ended := decide (tr.count ≠ 0) && decide (tr.count ≤ k) && !up
    d.putCh n { d.chAt n with train := if ended then none else some { tr with k := k, up := up, upEnd := upEnd } }

/-- R161: the pending return takes place when its time lies before `lim`. -/
def pulseReturnTo (n : Nat) (lim : Int) (d : Dev) : Dev :=
  match (d.chAt n).ret with
  | some t =>
    if t < lim then
      let d := setLevel n (d.on (CH_CFG_IDLE n)) t d
      d.putCh n { d.chAt n with ret := none }
    else d
  | none => d

/-- Internally generated edges due in TCLK `t` or earlier (R162). -/
def chInternal (n t : Nat) (d : Dev) : Dev :=
  let lim := ((t : Int) + 1) * 65536
  trainTo n lim (pulseReturnTo n lim d)

/-- The command PULSE_RETURN: the pending return takes place at its time. -/
def pulseReturn (n : Nat) (d : Dev) : Dev :=
  match (d.chAt n).ret with
  | some t => chShow n (pulseReturnTo n (t + 1) (d.to (dueOf t)))
  | none => d

/-- The next edge of a running train, if it has one. -/
def Dev.trainNext (d : Dev) (n : Nat) : Option Int :=
  match (d.chAt n).train with
  | none => none
  | some tr =>
    if tr.up then some tr.upEnd
    else
      let s := tr.start + (tr.k : Int) * tr.period
      let allowed := decide (tr.count = 0 ∨ tr.k < tr.count) &&
        (match stopTime (d.chAt n).queue with | some x => decide (s + tr.high ≤ x) | none => true)
      if allowed then some s else none

/-- The command TRAIN_PULSE: the train's next edge takes place at its time. -/
def trainPulse (n : Nat) (d : Dev) : Dev :=
  match d.trainNext n with
  | some t => chShow n (trainTo n (t + 1) (d.to (dueOf t)))
  | none => d

/-- R161, R163: end the train and the pending return as a TRAIN_STOP at time `t` does. -/
def stopTrain (n : Nat) (cut : Bool) (t : Int) (d : Dev) : Dev :=
  let c := d.chAt n
  let idle := d.on (CH_CFG_IDLE n)
  match c.train with
  | some tr =>
    let d := d.putCh n { c with train := none, ret := if tr.up && !cut then some tr.upEnd else none }
    if tr.up && cut then setLevel n idle t d else d
  | none => if cut then d.putCh n { c with ret := none } else d

/-! ### Actions -/

/-- The capture unit has a gate event before an edge of the same stamp (R166). -/
def CapItem.rank (x : CapItem) : Nat := match x.kind with | .arm _ => 0 | .disarm _ => 0 | _ => 1

/-- Insert into what the capture unit has to take, in order of stamp; behind equals. -/
def insertCap (x : CapItem) : List CapItem → List CapItem
  | [] => [x]
  | y :: r => if y.stamp < x.stamp ∨ (y.stamp = x.stamp ∧ y.rank ≤ x.rank) then y :: insertCap x r else x :: y :: r

/-- R166: a CAPTURE_ARM or CAPTURE_DISARM at time `t` goes to the capture unit, which takes it among the edges in order of stamp. -/
def captureGate (n : Nat) (t : Int) (k : CapKind) (d : Dev) : Dev := d.putCh n { d.chAt n with cap := insertCap ⟨t, k⟩ (d.chAt n).cap }

/-- R163: TRAIN_STOP. -/
def actTrainStop (n : Nat) (t : Int) (param : Nat) (d : Dev) : Dev :=
  let cut := bit param 0
  let c := d.chAt n
  let d := starveEnd n t d
  if c.train.isSome then stopTrain n cut t d
  else if c.ret.isSome && !cut then d
  else setLevel n (d.on (CH_CFG_IDLE n)) t (stopTrain n true t d)

/-- R159, R165: TRAIN_START. -/
def actTrainStart (n : Nat) (t : Int) (param : Nat) (d : Dev) : Dev :=
  let d := setLevel n (d.on (CH_CFG_IDLE n)) t (stopTrain n true t (starveEnd n t d))
  let tr : Train := { start := t, period := d.trainPer n, high := d.get (CH_TRAIN_HIGH_HIGH n) * 64, count := param, k := 0, up := false, upEnd := t }
  trainTo n (t + 1) (d.putCh n { d.chAt n with train := some tr })

/-- R159: PULSE of `width` in 2^-16 ns. -/
def actPulse (n : Nat) (t : Int) (width : Nat) (d : Dev) : Dev :=
  let d := setLevel n (!d.on (CH_CFG_IDLE n)) t (stopTrain n true t (starveEnd n t d))
  d.putCh n { d.chAt n with ret := some (t + width) }

/-- R159, R161: SET_HIGH, SET_LOW and TOGGLE. -/
def actLevel (n action : Nat) (t : Int) (d : Dev) : Dev :=
  let d := stopTrain n true t (starveEnd n t d)
  setLevel n (match action with | 1 => true | 2 => false | _ => !d.chLevel n) t d

/-- R159: the effect of an action, without its flags. -/
def chAct (n : Nat) (e : ChEvent) (d : Dev) : Dev :=
  match e.action with
  | 1 => actLevel n 1 e.time d
  | 2 => actLevel n 2 e.time d
  | 3 => actLevel n 3 e.time d
  | 4 => actPulse n e.time (if e.param = 0 then d.get (CH_PULSE_WIDTH_WIDTH n) * 64 else e.param * 65536) d
  | 5 => actTrainStart n e.time e.param d
  | 6 => actTrainStop n e.time e.param d
  | 7 => captureGate n e.time (.arm e.param) d
  | 8 => captureGate n e.time (.disarm (2 * b2n e.synth)) d
  | 9 => adcTrigger (dueOf e.time) e.param d
  | 10 => trigDma (e.param % 16) d
  | 11 => signalCe (e.param % 8) (e.param / 16 % 16) d
  | 12 => d.cause (CH_IRQ_STAT_RAISE n)
  | 13 => gateOpenReq (e.param % 8) (dueOf e.time) d
  | 14 => gateCloseReq (e.param % 8) d
  | _ => d

/-- Level actions: codes 1 to 6 (R159). -/
def isLevel (action : Nat) : Bool := decide (1 ≤ action) && decide (action ≤ 6)

/-! ### Keep-alive -/

/-- The enabled entries of REP_EV in offset order, entries with equal offsets in index order (R186): (offset, action). -/
def Dev.repEvents (d : Dev) (n : Nat) : List (Nat × Nat) :=
  let ins (l : List (Nat × Nat)) (x : Nat × Nat) : List (Nat × Nat) :=
    l.takeWhile (fun y => decide (y.1 ≤ x.1)) ++ x :: l.dropWhile (fun y => decide (y.1 ≤ x.1))
  (List.range 8).foldl (fun l i =>
    let a := d.get (CH_REP_EV_ACT n i)
    if a = 0 then l else ins l (d.get (CH_REP_EV_OFFSET_NS n i), a)) []

/-- R187: keep-alive ends; on the time-out the channel applies STARVE.ACTION when LIMIT is nonzero. -/
def kaStop (n : Nat) (timeout : Bool) (d : Dev) : Dev :=
  let d := (d.set (CH_STATUS_KA_RUN n) 0).cause (CH_IRQ_STAT_KA_END n)
  if timeout ∧ d.get (CH_STARVE_LIMIT n) ≠ 0 then starveOutput n (d.get (CH_STARVE_ACTION n)) d else d

/-- Keep-alive has ended by TCLK `t`: at the due TCLK of the first event inserted, or 64 ms after the warm reset began. -/
def kaCheck (n t : Nat) (d : Dev) : Dev :=
  if d.on (CH_STATUS_KA_RUN n) then
    match (d.chAt n).kaEnd with
    | some e => if e ≤ t then kaStop n false d else d
    | none => if (d.chAt n).kaFrom + 64000000 ≤ t then kaStop n true d else d
  else d

/-- R187: the command KA_END. -/
def kaEndEvent (n : Nat) (d : Dev) : Dev :=
  if d.on (CH_STATUS_KA_RUN n) then
    let t := (d.chAt n).kaEnd.getD ((d.chAt n).kaFrom + 64000000)
    let d := d.to t
    kaCheck n d.clock.now d
  else d

/-- The due time in ns of the next pattern event, with its action (R186). -/
def Dev.kaNext (d : Dev) (n : Nat) : Option (Nat × Nat) :=
  let c := d.chAt n
  if d.on (CH_STATUS_KA_RUN n) then
    match (d.repEvents n)[c.kaIdx]? with
    | some (o, a) => some (c.kaPer + o, a)
    | none => match (d.repEvents n).head? with
      | some (o, a) => some (c.kaPer + d.get (CH_REP_PERIOD_PERIOD_NS n) + o, a)
      | none => none
  else none

/-- R186: the next pattern event fires, unless keep-alive ends at or before its time. Pattern events produce no splits. -/
def kaPattern (n : Nat) (d : Dev) : Dev :=
  match d.kaNext n with
  | none => d
  | some (t, a) =>
    let d := kaCheck n t (d.to t)
    if d.on (CH_STATUS_KA_RUN n) then
      let c := d.chAt n
      let wrap := decide ((d.repEvents n).length ≤ c.kaIdx)
      let d := d.putCh n { c with
        kaPer := if wrap then c.kaPer + d.get (CH_REP_PERIOD_PERIOD_NS n) else c.kaPer, kaIdx := if wrap then 1 else c.kaIdx + 1 }
      let d := chInternal n t d
      chShow n (chAct n ⟨(t : Int) * 65536, a, 0, 0, false, 0⟩ d)
    else d

/-! ### The event queue -/

/-- R157, R160, R162: the head of the queue fires in its due TCLK, after the internal edges due then. -/
def fireHead (n : Nat) (d : Dev) : Dev :=
  match (d.chAt n).queue with
  | [] => d
  | e :: rest =>
    let t := dueOf e.time
    let d := chInternal n t (kaCheck n t (d.to t))
    let c := d.chAt n
    let d := d.putCh n { c with queue := rest, firedAt := t, fired := if c.firedAt = t then c.fired + 1 else 1 }
    let d := chAct n e d
    let same := rest.filter fun x => decide (dueOf x.time = t)
    let after := same.foldl (fun d x => chAct n x d) d
    let level := after.get (CH_STATUS_LEVEL n)
    let synth := 2 * b2n e.synth
    let d := if e.action = 15 then chSplit n e.time 0x02 synth e.word 0 d
      else if bit e.flags 0 then
        chSplit n (if isLevel e.action then d.placed n e.time else e.time) 0x01 synth e.word (rest.length + 256 * level) d
      else d
    chShow n (if bit e.flags 1 then d.cause (CH_IRQ_STAT_FIRE n) else d)

/-- A command that names the action of the event that fires: the head of the queue, when it has that action. No event fires before the
first catch (R31). -/
def fireAction (n action : Nat) (d : Dev) : Dev :=
  match (d.chAt n).queue with
  | e :: _ => if e.action = action ∧ d.clock.phase ≠ .waitFirst then fireHead n d else d
  | [] => d

/-- Fire every event of channel `n` due before TCLK `t`, at most `fuel`, and the internal edges due before it. -/
def fireBefore (n t : Nat) : Nat → Dev → Dev
  | 0, d => d
  | fuel + 1, d =>
    match (d.chAt n).queue with
    | e :: _ => if dueOf e.time < t then fireBefore n t fuel (fireHead n d) else d
    | [] => d

/-- The earliest due TCLK before `t` over the channels, with the lowest channel that has it. -/
def Dev.nextDue (d : Dev) (t : Nat) : Option (Nat × Nat) :=
  d.ch.foldl (fun m e => match e.2.queue with
    | [] => m
    | x :: _ =>
      let due := dueOf x.time
      if due < t then (match m with | some (b, c) => if due < b then some (due, e.1) else some (b, c) | none => some (due, e.1)) else m) none

/-- Fire, in due order and then channel order (R202), every event due before TCLK `t`, at most `fuel`. -/
def fireAll (t : Nat) : Nat → Dev → Dev
  | 0, d => d
  | fuel + 1, d =>
    match d.nextDue t with
    | some (_, n) => fireAll t fuel (fireHead n d)
    | none => d

/-- Events queued in all channels. -/
def Dev.queued (d : Dev) : Nat := d.ch.foldl (fun s e => s + e.2.queue.length) 0

/-- Pattern events of channel `n` in keep-alive due in TCLK `t` or earlier, at most `fuel` (R186). -/
def kaRun (n t : Nat) : Nat → Dev → Dev
  | 0, d => d
  | fuel + 1, d =>
    match d.kaNext n with
    | some (x, _) => if x ≤ t then kaRun n t fuel (kaPattern n d) else d
    | none => d

/-- More pattern events than channel `n` can have due by TCLK `t`. -/
def Dev.kaMost (d : Dev) (n t : Nat) : Nat :=
  ((t + 1 - (d.chAt n).kaPer) / d.get (CH_REP_PERIOD_PERIOD_NS n) + 2) * 8

/-- What channel `n` does in TCLK `t` beside its queue: pattern events, the end of keep-alive and internal edges. -/
def chTimed (n t : Nat) (d : Dev) : Dev :=
  let d := if d.on (CH_STATUS_KA_RUN n) then kaCheck n t (kaRun n t (d.kaMost n t) d) else d
  if (d.chAt n).train.isSome ∨ (d.chAt n).ret.isSome then chShow n (chInternal n t d) else d

/-- Every channel event and internal edge due before TCLK `t` takes place; none does before the first catch (R31). -/
def runTo (t : Nat) (d : Dev) : Dev :=
  if d.clock.phase = .waitFirst then d
  else
    let d := fireAll t d.queued d
    d.ch.foldl (fun d e => chTimed e.1 (t - 1) d) d

/-- Insert after every event of the same or an earlier due TCLK (R156). -/
def insertEvent (e : ChEvent) : List ChEvent → List ChEvent
  | [] => [e]
  | x :: r => if dueOf x.time ≤ dueOf e.time then x :: insertEvent e r else e :: x :: r

/-- The result of an insertion (R154). -/
inductive InsResult where
  | done | late | full | absent
deriving DecidableEq, Repr

/-- R154, R155: what an insertion into channel `n` in TCLK `now` answers. While the first catch has not come, an event due before it is
late (R31, log entry 45). -/
def Dev.insCheck (d : Dev) (n : Nat) (e : ChEvent) (now : Nat) : InsResult :=
  let c := d.chAt n
  let depth := c.queue.length + (if c.firedAt = now then c.fired else 0)
  if !chPresent d.mode n then .absent
  else if dueOf e.time < now + 16 ∨ e.time < 0 ∨ (d.clock.phase = .waitFirst ∧ dueOf e.time < d.clock.endAt) then .late
  else if 16 ≤ depth then .full
  else .done

/-- The event enters the queue; the starvation count returns to 0 (R179), and the first one in keep-alive sets its end (R187). -/
def enqueue (n : Nat) (e : ChEvent) (d : Dev) : Dev :=
  let c := d.chAt n
  chShow n (d.putCh n { c with
    queue := insertEvent e c.queue, starve := 0,
    kaEnd := if d.on (CH_STATUS_KA_RUN n) && c.kaEnd.isNone then some (dueOf e.time) else c.kaEnd })

/-- R154: an insertion by an engine or the host; a refusal is counted. -/
def insertReq (n : Nat) (e : ChEvent) (d : Dev) : InsResult × Dev :=
  match d.insCheck n e d.clock.now with
  | .done => (.done, enqueue n e d)
  | .absent => (.absent, d)
  | r => (r, (d.inc (CH_COUNTS_A_REFUSED_CNT n)).cause (CH_IRQ_STAT_DROP n))

/-- R174: the event word of an event that an engine or the host inserts. -/
def ownWord (n action flags param : Nat) : Nat :=
  0xFFFFFFFF + 2 ^ 32 * (param % 65536) + 2 ^ 48 * (flags % 16) + 2 ^ 52 * (action % 16) + 2 ^ 56 * n

/-- R154: HEV_CTRL.GO with the event time `time` in 2^-16 ns. -/
def hostInsert (n : Nat) (time : Int) (action flags param : Nat) (d : Dev) : Dev :=
  let (r, d) := insertReq n ⟨time, action, flags, param, false, ownWord n action flags param⟩ d
  let d := d.setB (CH_HEV_CTRL_DONE n) (r == .done)
  let d := d.setB (CH_HEV_CTRL_LATE n) (r == .late)
  d.setB (CH_HEV_CTRL_FULL n) (r == .full)

/-- The time in the HEV registers, in 2^-16 ns (R7). -/
def Dev.hevTime (d : Dev) (n : Nat) : Nat :=
  ((d.get (CH_HEV_SEC_LO_SEC_LO n) + 2 ^ 32 * d.get (CH_HEV_SEC_HI_SEC_HI n)) * 1000000000 + d.get (CH_HEV_NS_NS n)) * 65536
    + d.get (CH_HEV_SEC_HI_FRAC n)

def hevGo (n : Nat) (d : Dev) : Dev :=
  hostInsert n (d.hevTime n) (d.get (CH_HEV_WORD_ACTION n)) (d.get (CH_HEV_WORD_FLAGS n)) (d.get (CH_HEV_WORD_PARAM n)) d

/-- R158: discard the queue, counting each event; a running train stops with CUT. -/
def flushQueue (n : Nat) (d : Dev) : Dev :=
  let k := (d.chAt n).queue.length
  let d := d.addSat (CH_COUNTS_B_FLUSH_CNT n) k
  let d := d.putCh n { d.chAt n with queue := [] }
  chShow n (if (d.chAt n).train.isSome then stopTrain n true d.nowU d else d)

/-- R158: CTRL.FLUSH; accepted in the finish window, one catch later (R24). -/
def flushReq (n : Nat) (d : Dev) : Dev := d.putCh n { d.chAt n with flush := (d.chAt n).flush.ask d.inFinish }

/-- R63, R157: a forward step over `[old, new)` drops the events due in it. -/
def stepDrop (n old new : Nat) (d : Dev) : Dev :=
  let c := d.chAt n
  let hit (e : ChEvent) : Bool := decide (old ≤ dueOf e.time) && decide (dueOf e.time < new)
  let d := d.putCh n { c with queue := c.queue.filter fun e => !hit e }
  chShow n ((c.queue.filter hit).foldl (fun d e =>
    let d := (d.inc COX_DROPS_LATE).cause COX_IRQ_STAT_LATE
    let d := ((d.set COX_LAST_DROP_CHANNEL n).set COX_LAST_DROP_ACTION e.action).set COX_LAST_DROP_QFULL 0
    droppedSplit n e.time e.word e.synth false d) d)

/-- R581: at a forward step over `[old, new)`, in ns, a train starts no pulse in the skipped interval; those pulses count. -/
def trainSkip (n old new : Nat) (d : Dev) : Dev :=
  let d := trainTo n ((old : Int) * 65536) d
  match (d.chAt n).train with
  | none => d
  | some tr =>
    let byTime := if tr.start < (new : Int) * 65536 then (((new : Int) * 65536 - 1 - tr.start) / tr.period + 1).toNat else 0
    let k := max tr.k (if tr.count = 0 then byTime else min byTime tr.count)
    trainTo n ((new : Int) * 65536) (d.putCh n { d.chAt n with train := some { tr with k := k } })

/-! ### Capture -/

/-- The source line routed to a consumer of the pin fabric (R297). -/
def Dev.route (d : Dev) (consumer : Nat) : Option Nat :=
  match aget 0 consumer d.rig.routes with
  | 0 => none
  | l + 1 => some l

/-- The line is a GTIO or CLKIN ball (R296). -/
def isTdcBall (l : Nat) : Bool := decide (l < 128) || (decide (144 ≤ l) && decide (l < 152))

/-- The balls that hold a TDC in STEADY or BOATHOUSE. -/
def Dev.tdcBalls (d : Dev) : List Nat :=
  (List.range 256).foldl (fun balls n =>
    match d.route n with
    | some l =>
      if isTdcBall l && d.get (CH_CAP_CFG_MEAS n) != 0 && d.on (CH_CAP_CFG_TDC_REQ n) && !balls.contains l && decide (balls.length < 64)
      then l :: balls else balls
    | none => balls) []

/-- TDC_ACTIVE of every channel under the allocation; channels that share a ball share its TDC (R171). -/
def tdcShow (d : Dev) : Dev :=
  let balls := d.tdcBalls
  forUpTo 256 (fun n d => d.setB (CH_STATUS_TDC_ACTIVE n) (match d.route n with
    | some l => isTdcBall l && (d.mode == 3 || ((d.mode == 2 || d.mode == 5) && balls.contains l))
    | none => false)) d

/-- R153: the stamp of an edge that crossed at `t`; without a TDC the start of its TCLK. -/
def Dev.edgeStamp (d : Dev) (n : Nat) (t : Int) : Int :=
  if d.on (CH_STATUS_TDC_ACTIVE n) then t - d.gets (CH_SKEW_IN_SKEW n) * 64 else (t / 65536) * 65536

/-- R166: an edge stamped `t` belongs to the capture gate of channel `n`. -/
def Dev.inGate (d : Dev) (n : Nat) (t : Int) : Bool :=
  if d.on (CH_CAP_CFG_ALWAYS n) then d.get (CH_CAP_CFG_MEAS n) != 0
  else match (d.chAt n).armedAt with
    | some a => decide (a ≤ t) && (match (d.chAt n).disarmAt with | some b => decide (t < b) | none => true)
    | none => false

/-- R168: the edge counts under EDGE of channel `n`. -/
def Dev.edgeCounts (d : Dev) (n : Nat) (rising : Bool) : Bool :=
  match d.get (CH_CAP_CFG_EDGE n) with
  | 0 => rising
  | 1 => !rising
  | _ => true

/-- R166, R167: CAPTURE_ARM at time `t`. -/
def captureArm (n : Nat) (t : Int) (limit : Nat) (d : Dev) : Dev :=
  if d.on (CH_CAP_CFG_ALWAYS n) then d.putCh n { d.chAt n with pend := none, prevEdge := none }
  else
    (d.putCh n { d.chAt n with
      armedAt := some t, disarmAt := none, splitsLeft := limit, edgeCount := 0, prevEdge := none, pend := none }).set (CH_COUNT_LIVE_COUNT n) 0

/-- R166, R168: CAPTURE_DISARM at time `t`; in COUNT it produces the split of the edges counted, with the flags of its event (R175). -/
def captureDisarm (n : Nat) (t : Int) (flags : Nat) (d : Dev) : Dev :=
  if d.on (CH_CAP_CFG_ALWAYS n) then d
  else
    let c := d.chAt n
    let d := d.putCh n { c with disarmAt := if c.armedAt.isSome && c.disarmAt.isNone then some t else c.disarmAt, edgeCount := 0 }
    if d.get (CH_CAP_CFG_MEAS n) = 6 then chSplit n t 0x15 flags c.edgeCount 0 d else d

/-- A measurement split; the gate closes itself after the number that CAPTURE_ARM gave (R166), and no measurement starts at the edge
that completed the last one (log entry 45). -/
def measSplit (n : Nat) (stamp : Int) (kind flags value secondary : Nat) (d : Dev) : Dev :=
  let d := chSplit n stamp kind flags value secondary d
  let c := d.chAt n
  if c.splitsLeft = 0 ∨ d.on (CH_CAP_CFG_ALWAYS n) then d
  else if c.splitsLeft = 1 then d.putCh n { c with splitsLeft := 0, armedAt := none, disarmAt := none, prevEdge := none }
  else d.putCh n { c with splitsLeft := c.splitsLeft - 1 }

/-- 2^32 ns in stamp units (R167). -/
def measLimit : Int := 2 ^ 48

/-- R167: discard a pending measurement whose first edge lies more than 2^32 ns before `t`. -/
def dropOld (n : Nat) (t : Int) (d : Dev) : Dev :=
  let c := d.chAt n
  let c := match c.pend with | some p => if p.stamp + measLimit < t then { c with pend := none } else c | none => c
  let c := match c.prevEdge with | some p => if p + measLimit < t then { c with prevEdge := none } else c | none => c
  d.putCh n c

/-- R167: the command MEAS_TIMEOUT: the pending measurement is discarded 2^32 ns after its first edge. -/
def measTimeout (n : Nat) (d : Dev) : Dev :=
  let c := d.chAt n
  match c.pend, c.prevEdge with
  | some p, _ => (d.to (dueOf (p.stamp + measLimit))).putCh n { c with pend := none }
  | none, some p => (d.to (dueOf (p + measLimit))).putCh n { c with prevEdge := none }
  | none, none => d

/-- R168, R170: PHASE: the revolution whose converted time lies nearest to the stamp. -/
def Dev.nearestPhase (d : Dev) (t pos : Nat) (s : Int) : Int × Int :=
  let rev := d.convRev t s
  let at_ (r : Int) : Int := d.convertPhase t r pos
  let best := [rev - 1, rev + 1].foldl (fun b r => if (at_ r - s).natAbs < (at_ b - s).natAbs then r else b) rev
  (at_ best, best)

/-- R168–R170: an edge of channel `n`'s own input, stamped `s`. -/
def ownEdge (n : Nat) (s : Int) (rising : Bool) (d : Dev) : Dev :=
  let d := dropOld n s d
  let c := d.chAt n
  let inG := d.inGate n s
  let counts := d.edgeCounts n rising
  let pol := b2n rising
  match d.get (CH_CAP_CFG_MEAS n) with
  | 1 =>
    if inG && counts then
      measSplit n s 0x10 0 (c.edgeCount + 1) pol (d.putCh n { c with edgeCount := c.edgeCount + 1 })
    else d
  | 2 =>
    if counts then
      let d' := d.putCh n { c with prevEdge := if inG then some s else none, edgeCount := if inG then c.edgeCount + 1 else c.edgeCount }
      match c.prevEdge with
      | some p => measSplit n s 0x11 0 (ofSigned 64 (s - p)) pol d'
      | none => d'
    else d
  | 3 =>
    let lead := if d.get (CH_CAP_CFG_EDGE n) = 1 then !rising else rising
    if lead then
      if inG then d.putCh n { c with pend := some ⟨s, rising⟩, edgeCount := c.edgeCount + 1 } else d
    else match c.pend with
      | some p => measSplit n p.stamp 0x12 0 (ofSigned 64 (s - p.stamp)) (b2n p.rising) (d.putCh n { c with pend := none })
      | none => d
  | 4 =>
    if inG && counts then d.putCh n { c with pend := some ⟨s, rising⟩, edgeCount := c.edgeCount + 1 } else d
  | 5 =>
    if inG && counts then
      let d := d.putCh n { c with edgeCount := c.edgeCount + 1 }
      match d.chTracker n with
      | some t =>
        if d.trkTiming t then
          let (x, rev) := d.nearestPhase t (d.get (CH_PHASE_REF_POS n)) s
          measSplit n s 0x14 (2 * b2n (d.trkAt t).synthInd) (ofSigned 64 (s - x)) (ofSigned 32 rev) d
        else d
      | none => d
    else d
  | 6 =>
    if inG && counts then
      (d.putCh n { c with edgeCount := c.edgeCount + 1 }).set (CH_COUNT_LIVE_COUNT n) (d.get (CH_COUNT_LIVE_COUNT n) + 1)
    else d
  | _ => d

/-- R168, R169: the partner's edge, stamped `s`, stops an interval of channel `n`. -/
def stopEdge (n m : Nat) (s : Int) (rising : Bool) (d : Dev) : Dev :=
  if d.get (CH_CAP_CFG_MEAS n) = 4 ∧ d.get (CH_CAP_CFG_PARTNER n) = m ∧ d.edgeCounts n rising then
    let d := dropOld n s d
    match (d.chAt n).pend with
    | some p => measSplit n p.stamp 0x13 0 (ofSigned 64 (s - p.stamp)) m (d.putCh n { d.chAt n with pend := none })
    | none => d
  else d

/-- The capture unit of channel `n` takes an edge or a gate event. -/
def capTake (n : Nat) (x : CapItem) (d : Dev) : Dev :=
  match x.kind with
  | .arm limit => captureArm n x.stamp limit d
  | .disarm flags => captureDisarm n x.stamp flags d
  | .own rising => ownEdge n x.stamp rising d
  | .stop m rising => stopEdge n m x.stamp rising d

/-- The last TCLK in which an edge can cross whose stamp lies before a gate event at time `t` (R153, R166). -/
def Dev.capEnd (d : Dev) (n : Nat) (t : Int) : Nat := dueOf (t + max 0 (d.gets (CH_SKEW_IN_SKEW n) * 64))

/-- The capture unit of channel `n` takes what it has, in order of stamp, at most `fuel`: edges and gate events up to the stamp `s`, and
those of which no earlier one can follow. -/
def capRun (n : Nat) (s : Int) : Nat → Dev → Dev
  | 0, d => d
  | fuel + 1, d =>
    match (d.chAt n).cap with
    | [] => d
    | x :: r =>
      let due := match x.kind with
        | .own _ => dueOf x.stamp
        | .stop _ _ => dueOf x.stamp
        | _ => d.capEnd n x.stamp
      if x.stamp ≤ s ∨ due ≤ d.clock.now then capRun n s fuel (capTake n x (d.putCh n { d.chAt n with cap := r })) else d

/-- An edge stamped `s` reaches the capture unit of channel `n`; one stamped ahead of this TCLK waits for the gate events before it. -/
def capEdge (n : Nat) (x : CapItem) (d : Dev) : Dev :=
  let l := insertCap x (d.chAt n).cap
  let d := d.putCh n { d.chAt n with cap := l }
  if d.clock.now < dueOf x.stamp then d else chShow n (capRun n x.stamp l.length d)

/-- The gate events and edges of which no earlier one can follow any more are taken at the end of the TCLK. -/
def capSettle (n : Nat) (d : Dev) : Dev :=
  match (d.chAt n).cap with
  | [] => d
  | x :: l => chShow n (capRun n (x.stamp - 1) (l.length + 1) d)

/-- The stop edge of channel `m`'s input matters to an interval of channel `n` (R169). -/
def Dev.stopsAt (d : Dev) (n m : Nat) : Bool :=
  chPresent d.mode n && d.get (CH_CAP_CFG_MEAS n) == 4 && d.get (CH_CAP_CFG_PARTNER n) == m

/-- R168: an edge that crosses the input of channel `m` at `t`. -/
def captureEdge (m : Nat) (t : Int) (rising : Bool) (d : Dev) : Dev :=
  let s := d.edgeStamp m t
  let d := forUpTo 256 (fun n d => if d.stopsAt n m then capEdge n ⟨s, .stop m rising⟩ d else d) d
  if chPresent d.mode m then capEdge m ⟨s, .own rising⟩ d else d

/-! ### Catch, warm reset, calibration -/

/-- R172: new calibration coefficients of channel `n` are ready; they apply at a catch. -/
def calibrate (n : Nat) (d : Dev) : Dev :=
  if d.mode = 2 ∨ d.mode = 3 ∨ d.mode = 5 then d.putCh n { d.chAt n with calDue := true } else d

/-- R179, R180: starvation begins. While the output is held, the action acts on the level that the events would have set (R181). -/
def starveBegin (n : Nat) (d : Dev) : Dev :=
  let a := d.get (CH_STARVE_ACTION n)
  let d := if d.chHeld n then d.putCh n { d.chAt n with tracked := actionLevel a (d.chAt n).tracked } else starveOutput n a d
  let d := ((d.set (CH_STATUS_STARVED n) 1).cause (CH_IRQ_STAT_STARVE n)).inc (CH_COUNTS_B_STARVE_CNT n)
  chSplit n d.nowU 0x04 0 (d.chAt n).starve a d

/-- R179: the channel has nothing to do. -/
def Dev.chIdle (d : Dev) (n : Nat) : Bool :=
  let c := d.chAt n
  c.queue.isEmpty && c.train.isNone && c.ret.isNone && !d.on (CH_STATUS_KA_RUN n)

/-- R179: the starvation count at a catch; it reaches LIMIT, or has passed it when LIMIT is lowered or set. -/
def starveCatch (n : Nat) (d : Dev) : Dev :=
  if d.chIdle n then
    let c := d.chAt n
    let limit := d.get (CH_STARVE_LIMIT n)
    let k := c.starve + 1
    let d := d.putCh n { c with starve := k }
    if limit ≠ 0 ∧ (k = limit ∨ (limit < k ∧ !d.on (CH_STATUS_STARVED n))) then chShow n (starveBegin n d) else d
  else d

/-- The stale bit of a crew ID (R338). -/
def Dev.stale (d : Dev) (id : Nat) : Bool := bit (d.get (CREW_SD_STALE_STALE (id / 32))) (id % 32)

/-- R183: fallback follows the stroke data of STALE_MEMBER at a catch. `level`: the level of the cycle before it, which HOLD holds. -/
def fallbackCatch (n : Nat) (level : Bool) (d : Dev) : Dev :=
  let want := d.on (CH_CFG_STALE_EN n) && d.stale (d.get (CH_CFG_STALE_MEMBER n))
  let in_ := d.on (CH_STATUS_FALLBACK n)
  let a := d.get (CH_STARVE_ACTION n)
  if want && !in_ then
    let d := d.putCh n { d.chAt n with tracked := d.chLevel n }
    let d := (d.set (CH_STATUS_FALLBACK n) 1).cause (CH_IRQ_STAT_FALLBACK n)
    starveOutput n a (if a = 0 then setOut n level d.nowU d else d)
  else if want then starveOutput n a d
  else if in_ then
    let d := (d.set (CH_STATUS_FALLBACK n) 0).cause (CH_IRQ_STAT_FALLBACK n)
    if d.mode = 5 then d
    else setDrive n (!(d.on (CH_STATUS_STARVED n) && a == 3)) d.nowU (setOut n (d.chAt n).tracked d.nowU d)
  else d

/-- R151: the output of a channel that is absent, or held in BOATHOUSE, stays at its starvation action. -/
def heldCatch (n : Nat) (d : Dev) : Dev := starveOutput n (d.get (CH_STARVE_ACTION n)) d

/-- R151, R158, R167, R176, R179, R183, R188: channel `n` in step 1 of a catch. `was`: present before the changes of this catch;
`modeBefore`; `cfgChg`: CFG or CAP_CFG changed; `capChg`: CAP_CFG changed; `opened`: that opened a gate that is always open; `swap`: a
rig swap applied; `cut`: its policy is CUT; `level`: the level of the cycle before. -/
def chCatch (n modeBefore : Nat) (cfgChg capChg opened swap cut level : Bool) (d : Dev) : Dev :=
  let was := chPresent modeBefore n
  let now := chPresent d.mode n
  let c := d.chAt n
  let flush := c.flush.soon || (swap && cut)
  let d := if c.flush = {} then d else d.putCh n { c with flush := c.flush.age }
  let d := if flush then flushQueue n d else d
  let d := if cfgChg || swap then
      d.putCh n { d.chAt n with fifo := { (d.chAt n).fifo with gen := ((d.chAt n).fifo.gen + 1) % 16, seq := 0 } } else d
  let d := if capChg then d.putCh n { d.chAt n with
      pend := none, prevEdge := none, edgeCount := if opened then 0 else (d.chAt n).edgeCount } else d
  let d := if was && !now then
      let d := flushQueue n d
      d.putCh n { d.chAt n with train := none, ret := none, starve := 0, cap := [], tracked := d.on (CH_STATUS_LEVEL n) }
    else if d.mode = 5 ∧ modeBefore ≠ 5 then d.putCh n { d.chAt n with tracked := d.chLevel n }
    else d
  let d := if modeBefore ≠ d.mode ∧ (d.chAt n).calOk then d.putCh n { d.chAt n with calOk := false } else d
  let d := if (d.chAt n).calDue then d.putCh n { d.chAt n with calDue := false, calOk := true } else d
  if now then
    let d := fallbackCatch n level (kaCheck n d.clock.now d)
    chShow n (if d.mode = 5 then heldCatch n d else d)
  else chShow n (heldCatch n d)

/-- R185, R186: channel `n` at the start of a warm reset. One that is absent has nothing to fire and stays as it is (R151). -/
def chWarm (n : Nat) (d : Dev) : Dev :=
  if !chPresent d.mode n then d
  else if d.on (CH_CFG_KEEP_ALIVE n) then
    let c := d.chAt n
    let last : Int := match c.queue.getLast? with | some e => e.time | none => d.nowU
    let per := d.get (CH_REP_PERIOD_PERIOD_NS n)
    let ph := d.get (CH_REP_PHASE_PHASE_NS n)
    let start := (((last - (ph : Int) * 65536) / ((per : Int) * 65536) + 1) * per + ph).toNat
    (d.putCh n { c with kaFrom := d.clock.now, kaPer := start, kaIdx := 0, kaEnd := none }).set (CH_STATUS_KA_RUN n) 1
  else
    let d := flushQueue n d
    let d := d.putCh n { d.chAt n with train := none, ret := none }
    chShow n (if d.chHeld n then d else starveOutput n (d.get (CH_STARVE_ACTION n)) d)

end Sys2Proof.Machine
end

