-- ==== Sys2Proof/Machine/Cox.lean ====
section
/-!
DEFINITION. Sys2Proof/Machine/Cox.lean: the Cox and the timeline (R124–R150, R582, R583).
-/
namespace Sys2Proof.Machine

/-! ### Lists -/

/-- One bit per list in a state, and the summary of CACHE_ERR (R150). -/
def coxShow (d : Dev) : Dev :=
  let run := (List.range 8).foldl (fun m k => m + b2n (d.get (COX_LIST_STATUS_STATE k) == 3) * 2 ^ k) 0
  let d := d.set COX_STATUS_LIST_RUN run
  d.setB COX_STATUS_CACHE_ERR ((List.range 8).any fun k => d.on (COX_LIST_STATUS_CACHE_ERR k))

/-- R144: a state change raises the STATE cause. -/
def listEnter (k s : Nat) (d : Dev) : Dev :=
  if d.get (COX_LIST_STATUS_STATE k) = s then d
  else (d.set (COX_LIST_STATUS_STATE k) s).cause COX_IRQ_STAT_STATE

/-- Discard the cursor and the ring contents (R144, R583). -/
def listDiscard (k : Nat) (d : Dev) : Dev :=
  let l := d.listAt k
  d.putList k { l with
    ring := [], head := none, refInit := false, refLeft := 0, bursts := [], waiting := false, refWr := 0 }

/-- R130: the ring of enabled list `k` ends within the bank. -/
def Dev.ringFits (d : Dev) (k : Nat) : Bool :=
  decide ((List.range (k + 1)).foldl (fun s i => if d.on (COX_LIST_CFG_ENABLE i) then s + d.get (COX_LIST_CACHE_KIB_KIB i) else s) 0 ≤ 4096)

/-- R130, R144: the ring of list `k` is allocated: the enabled lists' rings lie one behind the other in bank 8, in ascending order. The
ring stays where it is while the list is enabled (log entry 86). -/
def ringAlloc (k : Nat) (d : Dev) : Dev :=
  let base := (List.range k).foldl (fun a i => if d.on (COX_LIST_CFG_ENABLE i) then a + 1024 * d.get (COX_LIST_CACHE_KIB_KIB i) else a) 0x1800000
  d.putList k { d.listAt k with base := base, size := d.get (COX_LIST_CACHE_KIB_KIB k) * 128 }

/-- Refill writes entries to the ring of list `k` through port 0 of bank 8 (R131, R434). -/
def ringWrite (k : Nat) (es : List RingEntry) (d : Dev) : Dev :=
  es.foldl (fun d e =>
    let l := d.listAt k
    let d := d.putList k { l with refWr := l.refWr + 1 }
    bankWriteBytes 0 0 8 (l.base + 8 * (l.refWr % (max 1 l.size))) e.entry 8 d) d

/-- R126: the cycle revolution of tracker revolution `rev`. -/
def Dev.cycleRev (d : Dev) (k rev : Nat) : Nat := (rev + d.get (COX_LIST_REV_OFS_OFS k)) % d.get (COX_LIST_REVS_REVS k)

/-- R127: the index entry of cycle revolution `c` of list `k`: the first entry and the number of entries, and whether its format is
broken; a broken one has none. The table is the one that refill uses from its next read on (R134). -/
def Dev.indexEntry (d : Dev) (k c : Nat) : Nat × Nat × Bool :=
  let base := if d.get (COX_LIST_CFG_IDX_SEL k) = 0 then d.get (COX_LIST_IDX_BASE_A_BASE k) else d.get (COX_LIST_IDX_BASE_B_BASE k)
  let e := d.mem.read (base + 8 * c) 8
  let start := bits e 0 25
  let count := bits e 32 26
  let bad := decide (bits e 25 7 ≠ 0) || decide (bits e 58 6 ≠ 0) || decide (33554432 < start + count)
  (start, if bad then 0 else count, bad)

/-- The first entry that refill has still to read: its index and cycle revolution; empty revolutions are crossed (R146). -/
def Dev.refillPlace (d : Dev) (k : Nat) : Option (Nat × Nat) :=
  let l := d.listAt k
  let revs := d.get (COX_LIST_REVS_REVS k)
  if l.refInit ∧ 0 < l.refLeft then some (l.refIdx, l.refC)
  else (List.range revs).findSome? fun i =>
    let c := (l.refC + b2n l.refInit + i) % revs
    let e := d.indexEntry k c
    if e.2.1 = 0 then none else some (e.1, c)

/-- Show the cursor: the next entry to convert (R145, R146, R150). A converted head that has not been armed is that entry: it is
converted again unless it is armed in this stroke (R137). -/
def cursorShow (k : Nat) (d : Dev) : Dev :=
  let l := d.listAt k
  let place := match l.head.toList.map (fun h => h.item) ++ l.ring ++ l.bursts.flatten with
    | e :: _ => some (e.idx, e.c)
    | [] => d.refillPlace k
  match place with
  | some (i, c) => (d.set (COX_LIST_CURSOR_INDEX k) i).set (COX_LIST_STATUS_CUR_REV k) c
  | none => d

/-- The cursor passes an entry of list `k`. -/
def cursorPast (k : Nat) (e : RingEntry) (d : Dev) : Dev := cursorShow k (d.set (COX_LIST_CURSOR_INDEX k) (e.idx + 1))

/-- Entries of a ring that are not consumed: a converted head is one until it is armed. -/
def CoxList.held (l : CoxList) : Nat := l.ring.length + b2n l.head.isSome

/-- The catch that opens stroke s + j, for j ≥ 1. -/
def Dev.catchAhead (d : Dev) (j : Nat) : Int := ((d.clock.endAt + (j - 1) * d.period : Nat) : Int) * 65536

/-- R145: positioning starts at the tracker revolution that contains the catch L strokes ahead. -/
def positionStart (k : Nat) (d : Dev) : Dev :=
  let rev := (d.convRev (d.get (COX_LIST_CFG_TRK k)) (d.catchAhead (d.get COX_CTRL_LEAD))).toNat
  let c := d.cycleRev k rev
  let d := (listDiscard k d).putList k { (listDiscard k d).listAt k with rev := rev, refC := c, refRev := rev }
  listEnter k 2 (cursorShow k (d.set (COX_LIST_STATUS_CUR_REV k) c))

/-! ### Refill (R131–R135) -/

/-- R127, R134: the refill engine reads the index entry of the revolution it has reached. -/
def readIndex (k : Nat) (d : Dev) : Dev :=
  let l := d.listAt k
  let sel := d.get (COX_LIST_CFG_IDX_SEL k)
  let d := if sel = l.selAct then d else
    (((d.putList k { l with selAct := sel }).set (COX_LIST_STATUS_SEL_ACTIVE k) sel).set (COX_LIST_SEL_REV_REV k) l.refC).cause COX_IRQ_STAT_SEL
  let e := d.indexEntry k l.refC
  let d := if e.2.2 then (d.inc COX_ERRS_FORMAT).cause COX_IRQ_STAT_FORMAT else d
  d.putList k { d.listAt k with refInit := true, refIdx := e.1, refLeft := e.2.1 }

/-- Move refill to the next revolution (R146). -/
def nextRev (k : Nat) (d : Dev) : Dev :=
  let l := d.listAt k
  d.putList k { l with refC := (l.refC + 1) % d.get (COX_LIST_REVS_REVS k), refRev := l.refRev + 1, refInit := false }

/-- Bring refill to a revolution with an entry left to read, crossing at most `fuel` revolutions. -/
def seekEntry (k : Nat) : Nat → Dev → Dev
  | 0, d => d
  | fuel + 1, d =>
    let d := if (d.listAt k).refInit then d else readIndex k d
    if (d.listAt k).refLeft = 0 then seekEntry k fuel (nextRev k d) else d

/-- Entries that refill has read and that are not consumed, with those of bursts under way. -/
def CoxList.read (l : CoxList) : Nat := l.held + l.bursts.flatten.length

/-- Ring `k` needs a refill: it has room for a burst, and the list has entries (R131). -/
def Dev.needsRefill (d : Dev) (k : Nat) : Bool :=
  let l := d.listAt k
  decide (2 ≤ d.get (COX_LIST_STATUS_STATE k)) && decide (l.read + 8 ≤ l.size) && (d.refillPlace k).isSome

/-- R131: the ring that holds the fewest unconsumed entries in proportion to its size, ties to the lower list. -/
def Dev.refillPick (d : Dev) : Option Nat :=
  ((List.range 8).filter d.needsRefill).foldl (fun m k => match m with
    | some b => if (d.listAt k).held * (d.listAt b).size < (d.listAt b).held * (d.listAt k).size then some k else some b
    | none => some k) none

/-- R131: the refill engine issues a burst of up to 8 entries of the revolution it has reached. -/
def refillBurst (d : Dev) : Dev :=
  if !d.on COX_CTRL_ENABLE then d else
  match d.refillPick with
  | none => d
  | some k =>
    let d := seekEntry k 1024 d
    let l := d.listAt k
    let n := min 8 l.refLeft
    if n = 0 then d else
    let base := d.get (COX_LIST_ENT_BASE_BASE k)
    let es : List RingEntry := (List.range n).map fun i =>
      ⟨d.mem.read (base + 8 * (l.refIdx + i)) 8, l.refIdx + i, l.refC, l.refRev⟩
    d.putList k { l with bursts := l.bursts ++ [es], refIdx := l.refIdx + n, refLeft := l.refLeft - n }

/-- The address of the entry at the head of list `k`'s ring. -/
def CoxList.headAddr (l : CoxList) : Nat := l.base + 8 * ((l.refWr - l.ring.length) % max 1 l.size)

/-- R135, R438: entries lost to an uncorrectable error count as late drops. -/
def entriesLost (k n : Nat) (d : Dev) : Dev :=
  let d := (d.addSat COX_DROPS_LATE n).addSat (COX_LIST_COUNTS_LATE k) n
  ((d.cause COX_STATUS_DRAM_ERR).cause COX_IRQ_STAT_DRAM_ERR).cause COX_IRQ_STAT_LATE

/-- R131, R135: list `k`'s oldest burst returns; `bad` tells an uncorrectable error. -/
def refillReturn (k : Nat) (bad : Bool) (d : Dev) : Dev :=
  let l := d.listAt k
  match l.bursts with
  | [] => d
  | es :: rest =>
    if bad then entriesLost k es.length (cursorShow k (d.putList k { l with bursts := rest }))
    else ringWrite k es (cursorShow k (d.putList k { l with bursts := rest, ring := l.ring ++ es, waiting := false }))

/-! ### Conversion and arming (R136–R143) -/

/-- R10, R124: fields of an entry. -/
def entCh (e : Nat) : Nat := bits e 56 8
def entAction (e : Nat) : Nat := bits e 52 4
def entFlags (e : Nat) : Nat := bits e 48 4
def entParam (e : Nat) : Nat := bits e 32 16
def entPhase (e : Nat) : Nat := bits e 0 32

/-- R140: why an entry is passed over: 1 for a channel of another tracker, 2 for the cases counted in SKIP, 0 for none. -/
def Dev.passOver (d : Dev) (k e : Nat) : Nat :=
  let t := d.get (COX_LIST_CFG_TRK k)
  let st := d.get (TRK_STATE_STATE t)
  if d.chTracker (entCh e) ≠ some t then 1
  else if !chPresent d.mode (entCh e) then 2
  else if bit (entFlags e) 2 && (d.trkAt t).synthInd then 2
  else if d.on (COX_LIST_CFG_ON_LOST k) && (st == 4 || st == 5) then 2
  else 0

/-- Convert the next entry of list `k` (R138, R140, R145), unless its words in bank 8 hold an uncorrectable error (R438). -/
def convertNext (k : Nat) (d : Dev) : Dev :=
  let l := d.listAt k
  match l.ring with
  | [] => d
  | it :: rest =>
    if d.badIn l.headAddr 8 then
      entriesLost k 1 (cursorPast k it ((bankReadWords l.headAddr 0 0 4 d).2.putList k { l with ring := rest, rev := it.rev }))
    else
    let t := d.get (COX_LIST_CFG_TRK k)
    let synth := (d.trkAt t).synthInd
    let d := d.setB (COX_LIST_STATUS_SYNTH k) synth
    let time := d.convertPhase t it.rev (entPhase it.entry)
    let d := d.putList k { l with ring := rest, rev := it.rev }
    match d.passOver k it.entry with
    | 1 => cursorPast k it ((d.inc COX_ERRS_MISMATCH).cause COX_IRQ_STAT_MISMATCH)
    | 2 => cursorPast k it (d.inc (COX_LIST_COUNTS_SKIP k))
    | _ =>
      if d.get (COX_LIST_STATUS_STATE k) = 2 ∧ time < d.catchAhead (d.get COX_CTRL_LEAD) then
        cursorPast k it (d.inc (COX_LIST_COUNTS_SKIP k))
      else listEnter k 3 (cursorShow k (d.putList k { d.listAt k with head := some ⟨it, time, synth⟩ }))

/-- R141, R142: record a dropped entry. -/
def recordDrop (k : Nat) (h : Head) (full : Bool) (d : Dev) : Dev :=
  let e := h.item.entry
  let d := (d.set COX_LAST_DROP_CHANNEL (entCh e)).set COX_LAST_DROP_ACTION (entAction e)
  let d := ((d.set COX_LAST_DROP_LIST k).setB COX_LAST_DROP_QFULL full).set COX_LAST_DROP_REV h.item.c
  if d.on (COX_LIST_CFG_LATE_SPLIT k) then droppedSplit (entCh e) h.time e h.synth full d else d

/-- Arm a head of list `k` in the current TCLK (R125, R141–R143, R149, R150). -/
def armHead (k : Nat) (h : Head) (d : Dev) : Dev :=
  let e := h.item.entry
  if entAction e = 0 then d
  else
    let ev : ChEvent := ⟨h.time, entAction e, entFlags e, entParam e, h.synth, e⟩
    match d.insCheck (entCh e) ev d.clock.now with
    | .done =>
      let d := enqueue (entCh e) ev d
      let n := d.cox.thisStroke + 1
      let armed := (d.cox.armed + 1) % 2 ^ 64
      let d := { d with cox := { d.cox with thisStroke := n, armed := armed } }
      let d := (d.set COX_ARMED_LO_LO (armed % 2 ^ 32)).set COX_ARMED_HI_HI (armed / 2 ^ 32)
      let d := d.set (COX_LIST_ARMED_COUNT k) (d.get (COX_LIST_ARMED_COUNT k) + 1)
      let d := if d.get COX_PERF_PEAK_ARM < n then d.setSat COX_PERF_PEAK_ARM n else d
      let slack := dueOf h.time - d.clock.now - 16
      if slack < d.get COX_PERF_MIN_SLACK then d.set COX_PERF_MIN_SLACK slack else d
    | .late =>
      let d := ((d.inc COX_DROPS_LATE).inc (COX_LIST_COUNTS_LATE k)).cause COX_IRQ_STAT_LATE
      recordDrop k h false d
    | .full => recordDrop k h true ((d.inc COX_DROPS_QFULL).cause COX_IRQ_STAT_QFULL)
    | .absent => d.inc (COX_LIST_COUNTS_SKIP k)

/-- R137: the earliest converted head over the RUNNING lists, ties to the lower list. -/
def Dev.earliest (d : Dev) : Option (Nat × Head) :=
  (List.range 8).foldl (fun m k =>
    match (d.listAt k).head with
    | some h => (match m with | some (b, g) => if h.time < g.time then some (k, h) else some (b, g) | none => some (k, h))
    | none => m) none

/-- R132: a RUNNING list whose next entry is not in its ring leaves the merge. -/
def leaveMerge (k : Nat) (d : Dev) : Dev :=
  ((d.putList k { d.listAt k with waiting := true }).inc COX_REFILL_STALL_CNT).cause COX_IRQ_STAT_STALL

/-- R137: select and arm heads until a list needs a conversion or every head lies at or after the horizon. -/
def selectArm : Nat → Dev → Dev
  | 0, d => d
  | fuel + 1, d =>
    let lacking := (List.range 8).filter fun k => d.get (COX_LIST_STATUS_STATE k) == 3 && (d.listAt k).head.isNone && !(d.listAt k).waiting
    match lacking.find? (fun k => (d.listAt k).ring.isEmpty) with
    | some k => selectArm fuel (leaveMerge k d)
    | none =>
      if !lacking.isEmpty then d
      else match d.earliest with
        | some (k, h) =>
          if h.time < d.catchAhead (d.get COX_CTRL_LEAD + 1) then
            selectArm fuel (cursorPast k h.item (armHead k h (d.putList k { d.listAt k with head := none })))
          else d
        | none => d

/-- The list whose entry the next conversion slot converts: a RUNNING list that lacks its head, else a POSITIONING list. -/
def Dev.convPick (d : Dev) : Option Nat :=
  let want (s : Nat) : Option Nat := (List.range 8).find? fun k =>
    d.get (COX_LIST_STATUS_STATE k) == s && (d.listAt k).head.isNone && !(d.listAt k).ring.isEmpty
  match want 3 with
  | some k => some k
  | none => want 2

/-- R136: the cycle in which the next conversion can insert: two after an odd cycle of the stroke whose slot is unused. -/
def Dev.convInsert (d : Dev) : Nat :=
  let c := d.clock.now - d.clock.openAt
  max (3 + 2 * d.cox.conv) (c + 1 - c % 2)

/-- COX_CONVERSION: the device time at which the next entry's event enters its queue, in this stroke. -/
def Dev.convAt (d : Dev) : Option Nat :=
  let t := d.clock.openAt + d.convInsert
  if d.on COX_CTRL_ENABLE ∧ d.convPick.isSome ∧ t < d.clock.endAt then some t else none

/-- R136, R137: in the cycle after a conversion slot the merge goes on with the entry converted in it. -/
def coxTurn (d : Dev) : Dev :=
  let c := d.convInsert
  if !d.on COX_CTRL_ENABLE ∨ d.clock.openAt + c ≠ d.clock.now ∨ d.clock.phase ≠ .run then d
  else match d.convPick with
    | none => coxShow (selectArm 16 d)
    | some k => coxShow (selectArm 16 (convertNext k { d with cox := { d.cox with conv := (c - 3) / 2 + 1 } }))

/-! ### Catch and warm reset -/

/-- The Cox is held in this mode (R144). -/
def coxHeld (mode : Nat) : Bool := mode == 0 || mode == 4 || mode == 5

/-- R137: an unarmed head is discarded and converted again in the next stroke. -/
def unconvert (k : Nat) (d : Dev) : Dev :=
  let l := d.listAt k
  match l.head with
  | some h => cursorShow k (d.putList k { l with head := none, ring := h.item :: l.ring })
  | none => d

/-- R144, R147, R582: list `k` at a catch. `chg`: TRK, REVS, REV_OFS, ENT_BASE or the active index base changed; `restart`:
COX.CTRL.ENABLE applies again. -/
def listCatch (k : Nat) (chg restart : Bool) (d : Dev) : Dev :=
  let st := d.get (COX_LIST_STATUS_STATE k)
  let en := d.on (COX_LIST_CFG_ENABLE k)
  let was := (d.listAt k).enWas
  let timing := d.trkTiming (d.get (COX_LIST_CFG_TRK k))
  let d := if en = was then d else d.putList k { d.listAt k with enWas := en }
  if st = 0 then
    if en ∧ !was then
      if d.ringFits k then ringAlloc k ((listEnter k 1 (listDiscard k d)).set (COX_LIST_STATUS_CACHE_ERR k) 0)
      else d.set (COX_LIST_STATUS_CACHE_ERR k) 1
    else if !en ∧ was then d.set (COX_LIST_STATUS_CACHE_ERR k) 0
    else d
  else if !en then listEnter k 0 (listDiscard k d)
  else if coxHeld d.mode ∨ chg ∨ (2 ≤ st ∧ (restart ∨ !timing)) then listEnter k 1 (listDiscard k d)
  else if st = 1 then (if d.on COX_CTRL_ENABLE ∧ timing ∧ !d.on SYS_RST_STATUS_WARM_BUSY then positionStart k d else d)
  else
    let d := unconvert k d
    if st = 3 ∧ (d.listAt k).waiting ∧ d.on COX_CTRL_ENABLE then (d.inc COX_REFILL_STALL_CNT).cause COX_IRQ_STAT_STALL else d

/-- The Cox at a catch; `chg` has bit k set for a list whose governing registers changed. -/
def coxCatch (chg : Nat) (d : Dev) : Dev :=
  let on := d.on COX_CTRL_ENABLE
  let restart := on && !d.cox.enWas
  let d := { d with cox := { d.cox with thisStroke := 0, conv := 0, enWas := on } }
  coxShow (forUpTo 8 (fun k d => listCatch k (bit chg k) restart d) d)

/-- R144, R583: a warm reset sends every list but an IDLE one to WAIT_TIMING. -/
def coxWarm (d : Dev) : Dev :=
  coxShow (forUpTo 8 (fun k d => if d.get (COX_LIST_STATUS_STATE k) = 0 then d else listEnter k 1 (listDiscard k d)) d)

/-- A read of ARMED_LO returns the low armed count and latches ARMED_HI. -/
def armedLoRead (m : Master) (d : Dev) : Nat × Dev :=
  (d.cox.armed % 2 ^ 32, d.latchTo m COX_ARMED_HI_HI.addr (d.cox.armed / 2 ^ 32))

/-- PERF.CLEAR. -/
def perfClear (d : Dev) : Dev := (d.set COX_PERF_PEAK_ARM 0).set COX_PERF_MIN_SLACK 32767

end Sys2Proof.Machine
end

