-- ==== Sys2Proof/Machine/Ce.lean ====
section
/-!
DEFINITION. Sys2Proof/Machine/Ce.lean: the machine of the control engines CE[0..7] (R207–R238): registers, window, special
registers, conditions, segments, landing of results, traps, stages, start and stop. The operations of the syllables are in
Prigo.lean; issue is in CeRun.lean.
-/
namespace Sys2Proof.Machine

def Dev.ceAt (d : Dev) (n : Nat) : Ce := aget {} n d.ce
def Dev.putCe (d : Dev) (n : Nat) (t : Ce) : Dev := { d with ce := awrite {} n t d.ce }

/-- R207: engine `n` is present in a mode. -/
def cePresent (mode n : Nat) : Bool := mode == 2 || mode == 3 || (mode == 1 && decide (n < 2))

/-- R207: TCLK per engine cycle. -/
def ceCycle (mode : Nat) : Nat := match mode with | 1 => 4 | 2 => 2 | _ => 1

/-! ### Registers -/

def Dev.spec (d : Dev) (n j : Nat) : Nat := d.get (CE_SPEC_VALUE n j)
def setSpec (n j v : Nat) (d : Dev) : Dev := d.set (CE_SPEC_VALUE n j) v

/-- FLAGS, bit by bit (R215). -/
def Dev.flag (d : Dev) (n i : Nat) : Bool := bit (d.spec n 0) i

/-- R211: window base, oldest resident frame and depth, from WIN. -/
def Dev.depth (d : Dev) (n : Nat) : Nat := bits (d.spec n 3) 0 5
def Dev.wb (d : Dev) (n : Nat) : Nat := bits (d.spec n 3) 5 5 * 8
def Dev.filled (d : Dev) (n : Nat) : Nat := bits (d.spec n 3) 10 5 * 8

/-- Set WIN and its copy. -/
def setWin (n depth wb filled : Nat) (d : Dev) : Dev :=
  let v := depth % 32 + 32 * (wb / 8) + 1024 * (filled / 8)
  (setSpec n 3 v d).set (CE_WIN_WIN n) v

/-- R211: the physical register that xk names. -/
def Dev.phys (d : Dev) (n k : Nat) : Nat := if 24 ≤ k then 224 + k else (d.wb n + k) % 248

/-- The value of xk. -/
def Dev.xr (d : Dev) (n k : Nat) : Half := BitVec.ofNat 16 (d.get (CE_XREG_VALUE n (d.phys n k)))

/-- The device time base of the stroke (R260). -/
def Dev.strokeBase (d : Dev) : Nat := d.clock.openAt

/-- R215: ECYC, engine cycles since the last catch. -/
def Dev.ecyc (d : Dev) (t : Nat) : Nat := min 65535 ((t - d.strokeBase) / ceCycle d.mode)

/-- Read special register `j` in the issue cycle at `t`. -/
def Dev.readSpec (d : Dev) (n j t : Nat) : Nat := if j = 16 then d.ecyc t else d.spec n j

/-- R223: a selector as it is stored: SRC 16–31 become 15, reserved bits 0. -/
def storeSel (v : Nat) : Nat := (if 16 ≤ v % 32 then 15 else v % 32) + 32 * bits v 5 1 + 256 * bits v 8 8

/-- R215: the first TCLK of the engine cycle that contains `t`; engine cycles count from the catch. -/
def Dev.cycleFrom (d : Dev) (t : Nat) : Nat :=
  d.clock.openAt + (t - d.clock.openAt) / ceCycle d.mode * ceCycle d.mode

/-- R548: the start of the first engine cycle at or after `t`. -/
def Dev.cycleUp (d : Dev) (t : Nat) : Nat :=
  d.clock.openAt + divCeil (t - d.clock.openAt) (ceCycle d.mode) * ceCycle d.mode

/-- R215: a write of `v` clears bits of SIG; one that SIGNAL_CE sets in the same engine cycle, which began at `cyc`, stays 1. -/
def sigClear (n cyc v : Nat) (d : Dev) : Dev :=
  let keep := ((d.ceAt n).sigSet.filter fun e => decide (cyc ≤ e.1)).foldl (fun m e => m ||| 2 ^ e.2) 0
  let old := d.spec n 4
  setSpec n 4 ((old - (old &&& v)) ||| (old &&& keep)) d

/-- R215: write `v` to special register `j` under its access rules, in the engine cycle that began at `cyc`. -/
def writeSpec (n j v cyc : Nat) (d : Dev) : Dev :=
  match j with
  | 0 =>
    let old := d.spec n 0
    let wk := b2n (bit old 6 && !bit v 6)
    setSpec n 0 (v % 32 + 32 * bits old 5 1 + 64 * wk + 128 * bits v 7 1) d
  | 3 => d
  | 4 => sigClear n cyc v d
  | 5 => d
  | 10 => d
  | 11 => d
  | 12 => d
  | 15 => d
  | 16 => d
  | _ => if 17 ≤ j ∧ j ≤ 31 then (setSpec n j (storeSel v) d).set (CE_CSEL_SEL n (j - 16)) (storeSel v) else setSpec n j v d

/-- Show IE and TS in STATUS. -/
def ceShow (n : Nat) (d : Dev) : Dev :=
  let c := d.ceAt n
  let d := d.setB (CE_STATUS_IE n) (d.flag n 4)
  let d := d.setB (CE_STATUS_TS n) (d.flag n 5)
  let d := d.set (CE_STAGE_DEPTH n) c.stage.length
  d.setB (CE_STAGE_OVF n) c.ovf

/-! ### Landing (R244, R245) -/

/-- Order of landing: by time, and of writes that land together the later unit last. -/
def insertLand (l : Land) : List Land → List Land
  | [] => [l]
  | x :: r => if x.at_ < l.at_ ∨ (x.at_ = l.at_ ∧ x.unit ≤ l.unit) then x :: insertLand l r else l :: x :: r

/-- One write lands at the end of its engine cycle. -/
def applyEff (n : Nat) (l : Land) (d : Dev) : Dev :=
  match l.eff with
  | .reg p v => d.set (CE_XREG_VALUE n p) v
  | .spec j v => writeSpec n j v (l.at_ - ceCycle d.mode) d
  | .flags m v => setSpec n 0 ((d.spec n 0 - (d.spec n 0 &&& m)) + (v &&& m)) d
  | .mem w v => { d with mem := d.mem.write (2 * w) v 2 }

/-- Every write of engine `n` that is visible at device time `t` lands. -/
def landTo (n t : Nat) (d : Dev) : Dev :=
  let c := d.ceAt n
  let due := c.lands.filter fun l => decide (l.at_ ≤ t)
  if due.isEmpty then d
  else due.foldl (fun d l => applyEff n l d) (d.putCe n { c with lands := c.lands.filter fun l => !decide (l.at_ ≤ t) })

/-- Issue a write of `unit` that becomes visible at `at_`. -/
def land (n at_ unit : Nat) (e : Eff) (d : Dev) : Dev :=
  let c := d.ceAt n
  d.putCe n { c with lands := insertLand ⟨at_, unit, e⟩ c.lands }

/-- The value of a register with the writes of the MAC unit still in flight (R265). -/
def Dev.macReg (d : Dev) (n k : Nat) : Nat :=
  let p := d.phys n k
  (d.ceAt n).lands.foldl (fun v l => match l.eff with | .reg q w => if l.unit = 6 ∧ q = p then w else v | _ => v)
    (d.get (CE_XREG_VALUE n p))

/-! ### Conditions (R222, R223) -/

/-- R235, R237: an interrupt is pending for engine `n`'s target T(2 + n): a pending source is eligible there (R398). -/
def Dev.ceIrq (d : Dev) (n : Nat) : Bool := d.mode != 4 && d.pendList.any fun k => d.eligible (2 + n) k

/-- R223: CH[n].STATUS.LEVEL as it stood in the TCLK `t`, at most 4 TCLK ago. -/
def Dev.levelAt (d : Dev) (n t : Nat) : Bool :=
  ((d.chAt n).outs.takeWhile fun e => decide (t < e.at_)).foldl (fun _ e => e.was) (d.on (CH_STATUS_LEVEL n))

/-- R223: a condition selector's value in the issue cycle at `t`. -/
def Dev.selector (d : Dev) (n v t : Nat) : Bool :=
  let z := d.flag n 0
  let s := d.flag n 1
  let c := d.flag n 2
  let o := d.flag n 3
  let oper := bits v 8 8
  let src := match v % 32 with
    | 0 => z
    | 1 => s != o
    | 2 => z || (s != o)
    | 3 => !c
    | 4 => !c || z
    | 5 => s
    | 6 => o
    | 7 => c
    | 8 => bit (d.spec n 4) (oper % 16)
    | 9 => bit (d.xr n (24 + bits oper 4 3)).toNat (oper % 16)
    | 10 => d.spec n 13 != 0
    | 11 => decide (d.clock.endAt ≤ t + 64)
    | 12 => d.tbOk
    | 13 => d.ceIrq n
    | 14 => d.levelAt oper (t - 4)
    | _ => false
  src != bit v 5

/-- R222: the condition field `c`. -/
def Dev.cond (d : Dev) (n c t : Nat) : Bool := if c = 0 then true else d.selector n (d.spec n (16 + c)) t

/-! ### Segments (R216, R217) -/

/-- The path that a word address selects. -/
inductive Path where
  | own | wheel | none
deriving DecidableEq, Repr

def wordPath (n w : Nat) : Path :=
  if 0x800000 + n * 0x80000 ≤ w ∧ w < 0x800000 + (n + 1) * 0x80000 then .own
  else if w ≤ 0x0B7FFF ∨ (0xE80000 ≤ w ∧ w ≤ 0xFFFFFF) then .wheel
  else .none

/-- One data access: segment, offset, one word or a pair, load or store; `own` for MOVW and SCANW (R258). -/
structure MemAcc where
  k : Nat
  off : Nat
  pair : Bool
  store : Bool
  ownOnly : Bool
deriving DecidableEq, Repr

/-- The word address SEG[k].BASE + offset (R216). -/
def Dev.accWord (d : Dev) (n : Nat) (a : MemAcc) : Nat := d.get (CE_SEG_BASE_BASE n a.k) + a.off

/-- R216: the index of the trap that the first failing check raises, or none. -/
def Dev.accTrap (d : Dev) (n : Nat) (a : MemAcc) : Option Nat :=
  let w := d.accWord n a
  let last := if a.pair then w + 1 else w
  let limit := d.get (CE_SEG_LIMIT_LIMIT n a.k)
  let reach (w : Nat) : Bool := match wordPath n w with | .own => true | .wheel => !a.ownOnly | .none => false
  if !(if a.store then d.on (CE_SEG_BASE_W n a.k) else d.on (CE_SEG_BASE_R n a.k)) then some 4
  else if limit ≤ a.off ∨ (a.pair ∧ limit ≤ a.off + 1) then some 4
  else if 0xFFFFFF < last then some 5
  else if !reach w || !reach last then some 5
  else if a.pair ∧ w % 2 = 1 then some 5
  else none

/-- A 16-bit word of the own bank. -/
def Dev.word (d : Dev) (w : Nat) : Nat := d.mem.read (2 * w) 2

/-! ### Traps (R231–R234) -/

/-- Trap entry: TFL takes FLAGS, TPC and TCAUSE are set, then TS is 1 and IE 0; the handler's first bundle issues at `issue`. -/
def trapEnter (n cause tpc issue : Nat) (d : Dev) : Dev :=
  let fl := d.spec n 0
  let d := setSpec n 9 fl (setSpec n 8 tpc (setSpec n 10 cause d))
  let d := setSpec n 0 (fl % 16 + 32 + 64 * bits fl 6 2) d
  let d := (d.inc (CE_COUNTS_TRAP_CNT n)).cause (CE_IRQ_STAT_TRAP n)
  let d := (d.set (CE_TRAPINFO_CAUSE n) cause).set (CE_TRAPINFO_PC n) tpc
  let d := d.set (CE_STATUS_PC n) (d.get (CE_VEC_BASE n) + 8 * cause)
  ceShow n (d.putCe n { d.ceAt n with issueAt := issue })

/-- R234: a synchronous trap; with TS set it stops the engine in FAULTED. `fault`: word address and segment of a memory fault. -/
def syncTrap (n cause tpc t : Nat) (fault : Option (Nat × Nat)) (d : Dev) : Dev :=
  if d.flag n 5 then
    ((d.set (CE_STATUS_RUN n) 5).set (CE_TRAPINFO_DOUBLE n) 1).cause (CE_IRQ_STAT_FAULT n)
  else
    let d := match fault with
      | some (w, k) => setSpec n 12 (bits w 16 8 + 256 + 512 * k) (setSpec n 11 (w % 65536) d)
      | none => d
    trapEnter n cause tpc (t + 3 * ceCycle d.mode) d

/-! ### Stages (R226–R230) -/

/-- R24, R228: the stages that wait for their catch, from the one on that was open at device time `t`. -/
def Ce.closedFrom (c : Ce) (t : Nat) : List Closed := c.closed.dropWhile fun k => decide (k.at_ < t)

/-- R24, R228: a write whose bundle retired before the yield that ended stage `k` enters that stage; `l`: the stages that ended later. -/
def stageInto (n : Nat) (w : Staged) (k : Closed) (l : List Closed) (d : Dev) : Dev :=
  let c := d.ceAt n
  let put (k : Closed) : Dev := d.putCe n { c with closed := c.closed.take (c.closed.length - l.length - 1) ++ k :: l }
  if k.drop then d
  else if 256 ≤ k.writes.length then ((put { k with ovf := true }).inc (CE_STAGE_OVF_CNT n)).cause (CE_IRQ_STAT_STAGE_OVF n)
  else put { k with writes := k.writes ++ [w] }

/-- R226, R227, R230: a write of an RW/T register enters the stage that was open when its bundle retired (R24). -/
def stageWrite (n : Nat) (w : Staged) (d : Dev) : Dev :=
  let c := d.ceAt n
  match d.clock.accept.map c.closedFrom with
  | some (k :: l) => stageInto n w k l d
  | _ =>
  if d.on (CE_STATUS_OVERRUN n) ∧ d.get (CE_CFG_OVR_POLICY n) = 0 then d
  else if 256 ≤ c.stage.length then
    ceShow n (((d.putCe n { c with ovf := true }).inc (CE_STAGE_OVF_CNT n)).cause (CE_IRQ_STAT_STAGE_OVF n))
  else ceShow n (d.putCe n { c with stage := c.stage ++ [w] })

/-- R225, R228, R239: a YIELD retires at `t`: the stage closes, a new one opens, and the overrun ends. -/
def ceYield (n t : Nat) (d : Dev) : Dev :=
  let c := d.ceAt n
  let drop := d.on (CE_STATUS_OVERRUN n) && d.get (CE_CFG_OVR_POLICY n) == 0
  let cl : List Closed := if c.stage.isEmpty && !c.ovf && c.wheel.isEmpty then []
    else [⟨c.stage, c.ovf, decide (d.clock.endAt ≤ t + 64), t, drop⟩]
  let d := d.putCe n { c with stage := [], ovf := false, closed := c.closed ++ cl, yielded := true }
  let e := d.ecyc t
  let d := if d.get (CE_RUNMAX_MAXYIELD n) < e then d.set (CE_RUNMAX_MAXYIELD n) e else d
  ceShow n ((d.set (CE_STATUS_OVERRUN n) 0).set (CE_STATUS_RUN n) 2)

/-- R229, R230: the finish window opens: an engine that has not yielded, or is WAITING or HALTED, is in overrun. -/
def ceOverrun (n : Nat) (d : Dev) : Dev :=
  let run := d.get (CE_STATUS_RUN n)
  if (run = 1 ∧ !(d.ceAt n).yielded) ∨ run = 3 ∨ run = 4 then
    let d := ((d.set (CE_STATUS_OVERRUN n) 1).inc (CE_COUNTS_OVERRUN_CNT n)).cause (CE_IRQ_STAT_OVERRUN n)
    let d := if d.get (CE_CFG_OVR_POLICY n) = 0 then ceShow n (d.putCe n { d.ceAt n with stage := [], ovf := false }) else d
    if d.on (CE_CFG_OVR_TRAP n) ∧ !d.flag n 5 then
      let d := trapEnter n 8 (d.get (CE_STATUS_PC n)) (d.cycleUp (max d.clock.now (d.ceAt n).issueAt) + 3 * ceCycle d.mode) d
      if run = 3 then d.set (CE_STATUS_RUN n) 1 else if run = 4 then d.putCe n { d.ceAt n with haltRun := 1 } else d
    else d
  else d

/-! ### Start, stop, catch -/

/-- R208: engine `n` starts: registers and special registers at reset, its selectors `cs` (CS1–CS15) from the rig image, and
its first bundle in engine cycle 4 after the catch. -/
def ceBegin (n : Nat) (cs : List Nat) (d : Dev) : Dev :=
  let d := forUpTo 256 (fun i d => d.set (CE_XREG_VALUE n i) 0) d
  let d := forUpTo 32 (fun j d => d.set (CE_SPEC_VALUE n j) (CE_SPEC_VALUE n j).reset) d
  let d := d.set (CE_WIN_WIN n) 0
  let d := forUpTo 15 (fun i d =>
    let v := storeSel (cs.getD i 15)
    (setSpec n (17 + i) v d).set (CE_CSEL_SEL n (i + 1)) v) d
  let c := d.ceAt n
  let d := d.putCe n { issueAt := d.clock.openAt + 4 * ceCycle d.mode, closed := c.closed, wheel := c.wheel.filter fun o => o.store }
  let d := (d.set (CE_STATUS_RUN n) 1).set (CE_STATUS_OVERRUN n) 0
  ceShow n ((d.set (CE_STATUS_PC n) (d.get (CE_VEC_BASE n))).set (CE_TRAPINFO_DOUBLE n) 0)

/-- R209: the engine stops with RUN `run` (STOPPED or ABSENT); what it has issued completes; its open stage is discarded. -/
def ceHalt (n run : Nat) (d : Dev) : Dev :=
  let c := d.ceAt n
  ceShow n ((d.putCe n { c with stage := [], ovf := false, yielded := false, step := false }).set (CE_STATUS_RUN n) run)

/-- R225, R236: at a catch an engine that has yielded is released; a handler that runs has IFL.YLD cleared. -/
def ceRelease (n : Nat) (d : Dev) : Dev :=
  let c := d.ceAt n
  if c.yielded then
    let d := d.putCe n { c with yielded := false }
    let d := setSpec n 7 (d.spec n 7 - (d.spec n 7 &&& 128)) d
    if d.get (CE_STATUS_RUN n) = 2 then
      (d.putCe n { d.ceAt n with issueAt := d.clock.openAt + 4 * ceCycle d.mode }).set (CE_STATUS_RUN n) 1
    else if d.get (CE_STATUS_RUN n) = 4 ∧ c.haltRun = 2 then
      d.putCe n { d.ceAt n with haltRun := 1, issueAt := d.clock.openAt + 4 * ceCycle d.mode }
    else d
  else d

/-! ### Debug access (R238) -/

/-- CTRL.HALT. -/
def ceDoHalt (n : Nat) (d : Dev) : Dev :=
  let run := d.get (CE_STATUS_RUN n)
  if 1 ≤ run ∧ run ≤ 3 then (d.putCe n { d.ceAt n with haltRun := run, step := false }).set (CE_STATUS_RUN n) 4 else d

/-- CTRL.RESUME: execution continues from where it stands. -/
def ceResume (n : Nat) (d : Dev) : Dev :=
  if d.get (CE_STATUS_RUN n) = 4 then
    let c := d.ceAt n
    (d.putCe n { c with issueAt := max c.issueAt d.clock.now, haltRun := 0, step := false }).set (CE_STATUS_RUN n) c.haltRun
  else d

/-- R238: STEP: a halted engine issues one bundle in its next issue cycle and halts again. One that has yielded or waits stays halted. -/
def ceStep (n : Nat) (d : Dev) : Dev :=
  let c := d.ceAt n
  if d.get (CE_STATUS_RUN n) = 4 ∧ c.haltRun = 1 then (d.putCe n { c with step := true }).set (CE_STATUS_RUN n) 1 else d

/-- The host may write XREG and SPEC while the engine is STOPPED, HALTED or FAULTED. -/
def Dev.ceDebug (d : Dev) (n : Nat) : Bool :=
  let run := d.get (CE_STATUS_RUN n)
  run == 0 || run == 4 || run == 5

def xregWrite (n i v : Nat) (d : Dev) : Dev := if d.ceDebug n then d.set (CE_XREG_VALUE n i) v else d

def specWrite (n j v : Nat) (d : Dev) : Dev := if d.ceDebug n then ceShow n (writeSpec n j (v % 65536) (d.cycleFrom d.clock.now) d) else d

/-- RUNMAX.CLEAR. -/
def runmaxClear (n : Nat) (d : Dev) : Dev := d.set (CE_RUNMAX_MAXYIELD n) 0

/-! ### TIM results (R261, R262) -/

/-- An insertion reaches its channel (R261). -/
def timInsert (op : TimOp) (d : Dev) : TimOp × Dev :=
  match op.ev with
  | none => ({ op with result := some 5 }, d)
  | some e =>
    let r := insertReq op.ch e d
    ({ op with result := some (match r.1 with | .done => 1 | .absent => 4 | .late => 2 | .full => 3) }, r.2)

/-- The insertions of engine `n` that reach their channels in this TCLK take place, in issue order. -/
def timInserts (n : Nat) (d : Dev) : Dev :=
  if (d.ceAt n).tim.any fun op => op.result.isNone && decide (op.insAt ≤ d.clock.now) then
    let r := (d.ceAt n).tim.foldl (fun (acc : List TimOp × Dev) op =>
      if op.result.isNone ∧ op.insAt ≤ d.clock.now then let r := timInsert op acc.2; (acc.1 ++ [r.1], r.2) else (acc.1 ++ [op], acc.2)) ([], d)
    r.2.putCe n { r.2.ceAt n with tim := r.1 }
  else d

/-- R262: a result is posted: it clears [5:1] and sets its bit, and counts when refused. -/
def timPost (n : Nat) (r : Nat) (d : Dev) : Dev :=
  let v := d.spec n 15
  let refused := if r = 1 then bits v 8 8 else min 255 (bits v 8 8 + 1)
  setSpec n 15 (v % 2 + 2 ^ r + 256 * refused) d

/-- Post the results of engine `n` due by `t`, in issue order. -/
def timPosts (n t : Nat) : List TimOp → Dev → List TimOp × Dev
  | [], d => ([], d)
  | op :: r, d =>
    match op.result with
    | some b => if op.postAt ≤ t then timPosts n t r (timPost n b d) else (op :: r, d)
    | none => (op :: r, d)

/-- The results that engine `n` can read from this TCLK on are posted; PENDING follows (R262). -/
def timRun (n : Nat) (d : Dev) : Dev :=
  let c := d.ceAt n
  if c.tim.isEmpty then d
  else
    let (ops, d) := timPosts n d.clock.now c.tim d
    let d := d.putCe n { d.ceAt n with tim := ops }
    let v := d.spec n 15
    setSpec n 15 (v - v % 2 + b2n (!ops.isEmpty)) d

end Sys2Proof.Machine
end

