-- ==== Sys2Proof/Machine/Prigo.lean ====
section
/-!
DEFINITION. Sys2Proof/Machine/Prigo.lean: the operations of the Prigo-16 syllables (R240–R265), one definition per operation,
and the issue of one bundle.
-/
namespace Sys2Proof.Machine

/-! ### ALU operations (R254, R255) -/

/-- A result with the flags it writes: bits of FLAGS, [0] Z, [1] N, [2] C, [3] V. -/
structure AluOut where
  r : Half
  write : Bool := true
  mask : Nat := 3
  fl : Nat := 0
deriving DecidableEq, Repr

/-- Z and N of a 16-bit result. -/
def zn (r : Half) : Nat := b2n (r == 0) + 2 * b2n r.msb

/-- Sum with carry in: C is the carry out of bit 15, V signed overflow. -/
def addFlags (a b : Half) (cin : Nat) : AluOut :=
  let s := a.toNat + b.toNat + cin
  let r : Half := BitVec.ofNat 16 s
  let v := a.toInt + b.toInt + cin != r.toInt
  { r := r, mask := 15, fl := zn r + 4 * b2n (decide (65536 ≤ s)) + 8 * b2n v }

/-- Difference with borrow in: C is 1 for no borrow, V signed overflow. -/
def subFlags (a b : Half) (bin : Nat) : AluOut :=
  let r : Half := a - b - BitVec.ofNat 16 bin
  let v := a.toInt - b.toInt - bin != r.toInt
  { r := r, mask := 15, fl := zn r + 4 * b2n (decide (b.toNat + bin ≤ a.toNat)) + 8 * b2n v }

/-- A result of Z and N only. -/
def plain (r : Half) : AluOut := { r := r, fl := zn r }

/-- A shift result: C is the last bit shifted out, unchanged for an amount of 0. -/
def shiftOut (r : Half) (n : Nat) (c : Bool) : AluOut :=
  if n = 0 then plain r else { r := r, mask := 7, fl := zn r + 4 * b2n c }

/-- A signed value saturated to 16 bits: V tells whether it was. -/
def saturate16 (i : Int) : AluOut :=
  let s := if i < -32768 then -32768 else if 32767 < i then 32767 else i
  let r : Half := BitVec.ofInt 16 s
  { r := r, mask := 11, fl := zn r + 8 * b2n (s != i) }

def opAdd (a b : Half) (_ : Bool) : AluOut := addFlags a b 0
def opAdc (a b : Half) (c : Bool) : AluOut := addFlags a b (b2n c)
def opSub (a b : Half) (_ : Bool) : AluOut := subFlags a b 0
def opSbc (a b : Half) (c : Bool) : AluOut := subFlags a b (1 - b2n c)
def opAnd (a b : Half) (_ : Bool) : AluOut := plain (a &&& b)
def opOr (a b : Half) (_ : Bool) : AluOut := plain (a ||| b)
def opXor (a b : Half) (_ : Bool) : AluOut := plain (a ^^^ b)
def opAndn (a b : Half) (_ : Bool) : AluOut := plain (a &&& ~~~b)
def opShl (a b : Half) (_ : Bool) : AluOut :=
  let n := b.toNat % 16
  shiftOut (a <<< n) n (bit a.toNat (16 - n))
def opShr (a b : Half) (_ : Bool) : AluOut :=
  let n := b.toNat % 16
  shiftOut (a >>> n) n (bit a.toNat (n - 1))
def opSar (a b : Half) (_ : Bool) : AluOut :=
  let n := b.toNat % 16
  shiftOut (a.sshiftRight n) n (bit a.toNat (n - 1))
def opRol (a b : Half) (_ : Bool) : AluOut :=
  let n := b.toNat % 16
  let r := (a <<< n) ||| (a >>> (16 - n))
  shiftOut r n (bit r.toNat 0)
def opMin (a b : Half) (_ : Bool) : AluOut := plain (if a.toInt ≤ b.toInt then a else b)
def opMax (a b : Half) (_ : Bool) : AluOut := plain (if a.toInt ≤ b.toInt then b else a)
def opMinu (a b : Half) (_ : Bool) : AluOut := plain (if a.toNat ≤ b.toNat then a else b)
def opMaxu (a b : Half) (_ : Bool) : AluOut := plain (if a.toNat ≤ b.toNat then b else a)
def opCmp (a b : Half) (_ : Bool) : AluOut := { subFlags a b 0 with write := false }
def opTst (a b : Half) (_ : Bool) : AluOut := { plain (a &&& b) with write := false }
def opMov (a _ : Half) (_ : Bool) : AluOut := plain a
def opNeg (a _ : Half) (_ : Bool) : AluOut := subFlags 0 a 0
def opNot (a _ : Half) (_ : Bool) : AluOut := plain (~~~a)
def opAbs (a _ : Half) (_ : Bool) : AluOut :=
  let r := if a.msb then 0 - a else a
  { r := r, mask := 11, fl := zn r + 8 * b2n (a == 0x8000) }
def opSext8 (a _ : Half) (_ : Bool) : AluOut := plain ((a.setWidth 8).signExtend 16)
def opSwapb (a _ : Half) (_ : Bool) : AluOut := plain ((a <<< 8) ||| (a >>> 8))
def opAdds (a b : Half) (_ : Bool) : AluOut := saturate16 (a.toInt + b.toInt)
def opSubs (a b : Half) (_ : Bool) : AluOut := saturate16 (a.toInt - b.toInt)

/-- The R-format ALU operation of a code. -/
def aluOp (op : Nat) : Option (Half → Half → Bool → AluOut) :=
  match op with
  | 0x00 => some opAdd | 0x01 => some opAdc | 0x02 => some opSub | 0x03 => some opSbc
  | 0x04 => some opAnd | 0x05 => some opOr | 0x06 => some opXor | 0x07 => some opAndn
  | 0x08 => some opShl | 0x09 => some opShr | 0x0A => some opSar | 0x0B => some opRol
  | 0x0C => some opMin | 0x0D => some opMax | 0x0E => some opMinu | 0x0F => some opMaxu
  | 0x10 => some opCmp | 0x11 => some opTst | 0x12 => some opMov | 0x13 => some opNeg
  | 0x14 => some opNot | 0x15 => some opAbs | 0x16 => some opSext8 | 0x17 => some opSwapb
  | 0x18 => some opAdds | 0x19 => some opSubs
  | _ => none

/-- The operation of an I-format code; its second operand is the immediate. -/
def aluImmOp (op : Nat) : Option (Half → Half → Bool → AluOut) :=
  match op with
  | 0x20 => some opAdd | 0x21 => some opAnd | 0x22 => some opOr | 0x23 => some opXor
  | 0x24 => some opShl | 0x25 => some opShr | 0x26 => some opSar | 0x27 => some opRol
  | 0x28 => some opCmp
  | _ => none

/-- sext(imm7), or the shift amount. -/
def aluImm (op o : Nat) : Half :=
  if 0x24 ≤ op ∧ op ≤ 0x27 then BitVec.ofNat 16 (bits o 0 4) else (BitVec.ofNat 7 o).signExtend 16

/-! ### BIT operations (R263, R264) -/

/-- Bits [p + q : p] of a word; bits beyond bit 15 read as 0. -/
def bitField (a p q : Nat) : Nat := (a % 65536) / 2 ^ p % 2 ^ (q + 1)

def opBset (a p : Nat) : Nat := a ||| 2 ^ p
def opBclr (a p : Nat) : Nat := a - (a &&& 2 ^ p)
def opBtgl (a p : Nat) : Nat := a ^^^ 2 ^ p
def opBext (a p q : Nat) : Nat := bitField a p q
/-- BINS: xd with [p + q : p] replaced by xa[q:0]; bits beyond bit 15 are not written. -/
def opBins (x a p q : Nat) : Nat :=
  let m := ((2 ^ (q + 1) - 1) * 2 ^ p) % 65536
  (x - (x &&& m)) + ((a * 2 ^ p) &&& m)
/-- Number of 1 bits of the low `n` bits. -/
def popBits (a : Nat) : Nat → Nat
  | 0 => 0
  | n + 1 => popBits a n + b2n (bit a n)
/-- Leading zeros of a 16-bit word. -/
def opClz (a : Nat) : Nat := ((List.range 16).find? fun i => bit a (15 - i)).getD 16
def opPopc (a : Nat) : Nat := popBits a 16
def opPar (a p q : Nat) : Nat := popBits (bitField a p q) 16 % 2
/-- The low `n` bits reversed. -/
def revBits (a : Nat) : Nat → Nat
  | 0 => 0
  | n + 1 => 2 * revBits a n + b2n (bit a n)
def opBrev (a : Nat) : Nat := revBits a 16
def opBrev8 (a : Nat) : Nat := revBits (a % 256) 8 + 256 * revBits (a / 256) 8
/-- A CRC step over `k` bytes of a word, low byte first; `v` is the running value. -/
def opCrc (code v a k : Nat) : Nat := (leBytes a k).foldl (crcStep code) v

/-! ### MAC operations (R265) -/

/-- A MAC result: a 32-bit pair (or a 16-bit value for MULQ) and its V. -/
structure MacOut where
  r : Nat
  w : Nat
  v : Bool
deriving DecidableEq, Repr

/-- A 32-bit result modulo 2^32 of an exact signed value. -/
def wrap32 (i : Int) : MacOut :=
  let r := ofSigned 32 i
  ⟨r, 32, toSigned 32 r != i⟩

def opMul (a b : Half) (_ : Nat) : MacOut := ⟨ofSigned 32 (a.toInt * b.toInt), 32, false⟩
def opMulu (a b : Half) (_ : Nat) : MacOut := ⟨a.toNat * b.toNat, 32, false⟩
def opMac (a b : Half) (p : Nat) : MacOut := wrap32 (toSigned 32 p + a.toInt * b.toInt)
def opMacs (a b : Half) (p : Nat) : MacOut :=
  let i := toSigned 32 p + a.toInt * b.toInt
  let s := if i < -2147483648 then -2147483648 else if 2147483647 < i then 2147483647 else i
  ⟨ofSigned 32 s, 32, s != i⟩
def opMsu (a b : Half) (p : Nat) : MacOut := wrap32 (toSigned 32 p - a.toInt * b.toInt)
def opMacu (a b : Half) (p : Nat) : MacOut :=
  let s := p + a.toNat * b.toNat
  ⟨s % 2 ^ 32, 32, decide (2 ^ 32 ≤ s)⟩
def opMulq (a b : Half) (_ : Nat) : MacOut :=
  let i := (a.toInt * b.toInt + 0x4000) / 32768
  let s := if i < -32768 then -32768 else if 32767 < i then 32767 else i
  ⟨ofSigned 16 s, 16, s != i⟩

def macOp (op : Nat) : Option (Half → Half → Nat → MacOut) :=
  match op with
  | 0 => some opMul | 1 => some opMulu | 2 => some opMac | 3 => some opMacs
  | 4 => some opMsu | 5 => some opMacu | 6 => some opMulq
  | _ => none

/-! ### Operand fields (R241) and undefined syllables (R243) -/

def Syl.d (s : Syl) : Nat := bits s.o 13 5
def Syl.a (s : Syl) : Nat := bits s.o 8 5
def Syl.b (s : Syl) : Nat := bits s.o 3 5
def Syl.f (s : Syl) : Nat := bits s.o 2 1
def Syl.x (s : Syl) : Nat := bits s.o 0 2
/-- SUB of format J. -/
def Syl.sub (s : Syl) : Nat := s.op - 0x38
def Syl.sh (s : Syl) : Nat := bits s.o 16 2

/-- A SEQ syllable is defined. -/
def seqOk (s : Syl) : Bool :=
  match s.op with
  | 0x01 => s.d == 0 && bits s.o 0 8 == 0
  | 0x02 => s.d == 0 && bits s.o 2 6 == 0 && decide (s.x < 3)
  | 0x03 => bits s.o 2 16 == 0 && decide (s.x < 3)
  | 0x0B => s.d == 0 && s.b == 0 && s.x == 0
  | 0x0C => bits s.o 15 2 == 0
  | 0x0D => bits s.o 0 8 == 0
  | 0x0E => bits s.o 0 8 == 0
  | 0x38 => s.sh == 0
  | 0x39 => decide (s.sh < 3)
  | op => decide (op ≤ 0x10) && s.o == 0

/-- An ALU syllable is defined. -/
def aluOk (s : Syl) : Bool :=
  if 0x38 ≤ s.op then decide (s.op ≤ 0x3F)
  else if s.op ≤ 0x19 then
    s.x == 0 && (s.op != 0x10 && s.op != 0x11 || s.d == 0) && (!(decide (0x12 ≤ s.op) && decide (s.op ≤ 0x17)) || s.b == 0)
  else if 0x20 ≤ s.op ∧ s.op ≤ 0x28 then
    (!(decide (0x24 ≤ s.op) && decide (s.op ≤ 0x27)) || bits s.o 4 3 == 0) && (s.op != 0x28 || s.d == 0)
  else false

/-- A MEM syllable is defined. -/
def memOk (s : Syl) : Bool :=
  let even := s.d % 2 == 0
  match s.op with
  | 0x00 => true
  | 0x01 => even
  | 0x02 => true
  | 0x03 => even
  | 0x04 => bits s.o 0 5 == 0
  | 0x05 => bits s.o 0 5 == 0 && even
  | 0x06 => bits s.o 0 5 == 0
  | 0x07 => bits s.o 0 5 == 0 && even
  | 0x08 => true
  | 0x09 => true
  | 0x0A => even
  | 0x0B => even
  | 0x0C => bits s.o 0 2 == 0
  | 0x0D => bits s.o 0 5 == 0
  | _ => false

/-- A TIM syllable is defined. -/
def timOk (s : Syl) : Bool :=
  match s.op with
  | 0x00 => s.d % 4 == 0 && bits s.o 0 5 == 0
  | 0x01 => s.d % 4 == 0 && bits s.o 0 9 == 0
  | 0x02 => s.d % 4 == 0 && bits s.o 0 13 == 0
  | 0x03 => s.d % 4 == 0 && bits s.o 0 13 == 0
  | 0x04 => s.o == 0
  | _ => false

/-- A BIT syllable is defined. Fields p and q of format B are bits [7:4] and [3:0]. -/
def bitOk (s : Syl) : Bool :=
  let q0 := bits s.o 0 4 == 0
  let pq0 := bits s.o 0 8 == 0
  match s.op with
  | 0x00 => q0
  | 0x01 => q0
  | 0x02 => q0
  | 0x03 => q0 && s.d == 0
  | 0x04 => true
  | 0x05 => true
  | 0x06 => pq0
  | 0x07 => pq0
  | 0x08 => true
  | 0x09 => pq0
  | 0x0A => pq0
  | 0x0B => s.b == 0 && s.f == 0 && (decide (2 ≤ s.x) || s.d % 2 == 0)
  | 0x0C => s.b == 0 && s.f == 0 && (decide (2 ≤ s.x) || s.d % 2 == 0)
  | _ => false

/-- A MAC syllable is defined. -/
def macOk (s : Syl) : Bool := s.x == 0 && (if s.op = 6 then true else decide (s.op < 6) && s.d % 2 == 0)

/-- R243: the syllable is defined, taken alone. -/
def sylOk (s : Syl) : Bool :=
  match s.unit with
  | 0 => seqOk s
  | 1 => aluOk s
  | 2 => aluOk s
  | 3 => memOk s
  | 4 => timOk s
  | 5 => bitOk s
  | 6 => macOk s
  | _ => false

/-- R242: the units of a bundle rise. -/
def unitsRise : List Syl → Bool
  | [] => true
  | [_] => true
  | a :: b :: r => decide (a.unit < b.unit) && unitsRise (b :: r)

/-- R231, R243: the bundle is defined; a bundle that a block repeat repeats holds no SEQ syllable. -/
def bundleOk (repeated : Bool) (b : List Syl) : Bool :=
  b.all sylOk && unitsRise b && decide (b.length ≤ 7) && !(repeated && b.any (fun s => s.unit == 0))

/-! ### MEM accesses (R256–R258) -/

/-- The accesses of a MEM syllable, in the order in which they are checked. -/
def Dev.memAccs (d : Dev) (n : Nat) (s : Syl) : List MemAcc :=
  let xa := (d.xr n (bits s.o 5 5)).toNat
  let k := bits s.o 10 3
  let disp := bits s.o 0 5
  let m (off : Nat) (pair store : Bool) : List MemAcc := [⟨k, off % 65536, pair, store, false⟩]
  match s.op with
  | 0x00 => m (xa + disp) false false
  | 0x01 => m (xa + disp) true false
  | 0x02 => m (xa + disp) false true
  | 0x03 => m (xa + disp) true true
  | 0x04 => m xa false false
  | 0x05 => m xa true false
  | 0x06 => m xa false true
  | 0x07 => m xa true true
  | 0x08 => m (bits s.o 0 10) false false
  | 0x09 => m (bits s.o 0 10) false true
  | 0x0A => m (bits s.o 0 10) true false
  | 0x0B => m (bits s.o 0 10) true true
  | 0x0C => [⟨bits s.o 15 3, (d.xr n (bits s.o 7 5)).toNat, false, false, true⟩,
             ⟨bits s.o 12 3, (d.xr n (bits s.o 2 5)).toNat, false, true, true⟩]
  | 0x0D => [⟨k, xa, false, false, true⟩]
  | _ => []

/-- R44: the syllable's word address lies in a region reached through the time wheel. -/
def Dev.onWheel (d : Dev) (n : Nat) (s : Syl) : Bool :=
  s.unit == 3 && (d.memAccs n s).any (fun a => wordPath n (d.accWord n a) == .wheel)

/-- The first access of a bundle's MEM syllable that fails, with its trap, word address and segment. -/
def Dev.memTrap (d : Dev) (n : Nat) (s : Syl) : Option (Nat × Nat × Nat) :=
  (d.memAccs n s).findSome? fun a => (d.accTrap n a).map fun t => (t, d.accWord n a, a.k)

/-- A read of the own bank through port 0 (R217, R435); `dest`: 1 + the physical register that it fills. -/
def ownRead (n w dest : Nat) (d : Dev) : Nat × Dev := bankReadWord (2 * w) (ownPort n) 0 dest d

/-- A store to the own bank through port 0, which lands at `at_` (R217, R435). -/
def ownStore (n at_ unit w v : Nat) (d : Dev) : Dev :=
  let (_, drop, d) := bankTouch ⟨2 * w, ownPort n, true, 0, 0⟩ d
  if drop then d else land n at_ unit (.mem w v) (badHeal (2 * w) d)

/-- A load from the own bank into physical register `p`, which lands at `at_`. -/
def ownLoad (n at_ w p : Nat) (d : Dev) : Dev :=
  let (v, d) := ownRead n w (p + 1) d
  land n at_ 3 (.reg p v) d

/-- R42: the first slot of engine `n` after its issue cycle at `t`: the wheel stands at slot 0 in the cycle of the catch (log entry 47). -/
def Dev.wheelSlot (d : Dev) (n t : Nat) : Nat :=
  let i := (t - d.clock.openAt) / ceCycle d.mode
  d.clock.openAt + (i + 1 + (n + 7 - i % 8) % 8) * ceCycle d.mode

/-- Issue a load or store (R217–R219, R224): own-bank loads land at the end of i + 2, stores at the end of i; a wheel access
completes after 10 engine cycles. -/
def memAccess (n t : Nat) (s : Syl) (a : MemAcc) (d : Dev) : Dev :=
  let c := ceCycle d.mode
  let w := d.accWord n a
  let r := s.d
  let p1 := d.phys n r
  let p2 := d.phys n (r + 1)
  let v1 := (d.xr n r).toNat
  let v2 := (d.xr n (r + 1)).toNat
  match wordPath n w with
  | .own =>
    if a.store then
      let d := ownStore n (t + c) 3 w v1 d
      if a.pair then ownStore n (t + c) 3 (w + 1) v2 d else d
    else
      let d := ownLoad n (t + 3 * c) w p1 d
      if a.pair then ownLoad n (t + 3 * c) (w + 1) p2 d else d
  | _ =>
    let e := d.ceAt n
    let reach := if a.store then t + 10 * c else d.wheelSlot n t
    d.putCe n { e with
      wheel := e.wheel ++ [⟨t, reach, t + 10 * c, a.store, w, a.pair, v1 + (if a.pair then 65536 * v2 else 0), p1, p2⟩], wheelAt := some t }

/-- The effects of a MEM syllable that passed its checks. -/
def memEffect (n t : Nat) (s : Syl) (d : Dev) : Dev :=
  let c := ceCycle d.mode
  let a := bits s.o 5 5
  let inc (a k : Nat) (d : Dev) : Dev := land n (t + c) 3 (.reg (d.phys n a) (((d.xr n a).toNat + k) % 65536)) d
  let accs := d.memAccs n s
  match s.op, accs with
  | 0x0C, [x, y] =>
    let (v, d) := ownRead n (d.accWord n x) 0 d
    let d := land n (t + 3 * c) 3 (.mem (d.accWord n y) v) d
    inc (bits s.o 2 5) 1 (inc (bits s.o 7 5) 1 d)
  | 0x0D, [x] =>
    let (v, d) := ownRead n (d.accWord n x) 0 d
    let eq := v == (d.xr n s.d).toNat
    inc a 1 (land n (t + 3 * c) 3 (.flags 1 (b2n eq)) d)
  | op, [x] =>
    let d := memAccess n t s x d
    if op = 0x04 ∨ op = 0x06 then inc a 1 d else if op = 0x05 ∨ op = 0x07 then inc a 2 d else d
  | _, _ => d

/-! ### ALU, BIT, MAC and TIM effects -/

def aluEffect (n t : Nat) (s : Syl) (d : Dev) : Dev :=
  let at_ := t + ceCycle d.mode
  let put (f : Half → Half → Bool → AluOut) (b : Half) (wr : Bool) (dst : Nat) (d : Dev) : Dev :=
    let o := f (d.xr n s.a) b (d.flag n 2)
    let d := if o.write then land n at_ s.unit (.reg (d.phys n dst) o.r.toNat) d else d
    if wr || !o.write then land n at_ s.unit (.flags o.mask o.fl) d else d
  if 0x38 ≤ s.op then
    land n at_ s.unit (.reg (d.phys n (4 * (s.op - 0x38) + bits s.o 16 2)) (bits s.o 0 16)) d
  else match aluOp s.op with
    | some f => put f (d.xr n s.b) (s.f == 1) s.d d
    | none => match aluImmOp s.op with
      | some f => put f (aluImm s.op s.o) (bit s.o 7) s.d d
      | none => d

def bitEffect (n t : Nat) (s : Syl) (d : Dev) : Dev :=
  let at_ := t + ceCycle d.mode
  let a := (d.xr n s.a).toNat
  let x := (d.xr n s.d).toNat
  let p := bits s.o 4 4
  let q := bits s.o 0 4
  let out (v : Nat) (d : Dev) : Dev := land n at_ 5 (.reg (d.phys n s.d) (v % 65536)) d
  let crc (k : Nat) (d : Dev) : Dev :=
    match s.x with
    | 2 => out (opCrc 2 x a k) d
    | 3 => out (opCrc 3 (x % 256) a k % 256) d
    | code =>
      let v := opCrc code (x + 65536 * (d.xr n (s.d + 1)).toNat) a k
      land n at_ 5 (.reg (d.phys n (s.d + 1)) (v / 65536 % 65536)) (out v d)
  match s.op with
  | 0x00 => out (opBset a p) d
  | 0x01 => out (opBclr a p) d
  | 0x02 => out (opBtgl a p) d
  | 0x03 => land n at_ 5 (.flags 1 (b2n (!bit a p))) d
  | 0x04 => out (opBext a p q) d
  | 0x05 => out (opBins x a p q) d
  | 0x06 => out (opClz a) d
  | 0x07 => out (opPopc a) d
  | 0x08 => out (opPar a p q) d
  | 0x09 => out (opBrev a) d
  | 0x0A => out (opBrev8 a) d
  | 0x0B => crc 1 d
  | 0x0C => crc 2 d
  | _ => d

def macEffect (n t : Nat) (s : Syl) (d : Dev) : Dev :=
  match macOp s.op with
  | none => d
  | some f =>
    let at_ := t + 2 * ceCycle d.mode
    let o := f (d.xr n s.a) (d.xr n s.b) (d.macReg n s.d + 65536 * d.macReg n (s.d + 1))
    let fl := b2n (o.r == 0) + 2 * b2n (bit o.r (o.w - 1)) + 8 * b2n o.v
    let p1 := d.phys n s.d
    let p2 := d.phys n (s.d + 1)
    let d := land n at_ 6 (.reg p1 (o.r % 65536)) d
    let d := if o.w = 32 then land n at_ 6 (.reg p2 (o.r / 65536)) d else d
    if s.f = 1 then land n at_ 6 (.flags 11 fl) d else d

/-- R259: the fields of an ARM or ARMP group. -/
def Dev.timWord (d : Dev) (n k : Nat) : Nat := (d.xr n k).toNat

/-- Queue a TIM operation of engine `n` issued at `t`; an ARMP is 2 TCLK later (R261, R262). -/
def timIssue (n t : Nat) (armp : Bool) (ch : Nat) (ev : Option ChEvent) (d : Dev) : Dev :=
  let c := ceCycle d.mode
  let i := (t - d.strokeBase) / c
  let ins := d.strokeBase + (i + 6) * c + 4 + (if armp then 2 else 0)
  let post := d.strokeBase + (i + 7 + (if armp then 6 / c else 4 / c)) * c
  let e := d.ceAt n
  let d := d.putCe n { e with tim := e.tim ++ [⟨ins, post, ch, ev, none⟩] }
  setSpec n 15 (d.spec n 15 - d.spec n 15 % 2 + 1) d

/-- R260: ARM. -/
def opArm (n t dd m nh : Nat) (d : Dev) : Dev :=
  let w := d.timWord n dd
  let time : Int := ((d.strokeBase + m * d.period + nh * 65536 + d.timWord n (dd + 3) : Nat) : Int) * 65536 + d.timWord n (dd + 2)
  let ch := w % 256
  let ev : ChEvent := ⟨time, bits w 8 4, bits w 12 2, d.timWord n (dd + 1), false, ownWord ch (bits w 8 4) (bits w 12 2) (d.timWord n (dd + 1))⟩
  timIssue n t false ch (some ev) d

/-- R260: ARMP. -/
def opArmp (n t dd m : Nat) (d : Dev) : Dev :=
  let w := d.timWord n dd
  let ch := w % 256
  let pos := d.timWord n (dd + 2) + 65536 * d.timWord n (dd + 3)
  let ev : Option ChEvent := match d.chTracker ch with
    | some k =>
      if d.trkTiming k then
        let time := d.convertPhase k (d.convRev k ((d.strokeBase : Int) * 65536) + m) pos
        some ⟨time, bits w 8 4, bits w 12 2, d.timWord n (dd + 1), false, ownWord ch (bits w 8 4) (bits w 12 2) (d.timWord n (dd + 1))⟩
      else none
    | none => none
  timIssue n t true ch ev d

/-- Four words into xd to xd + 3. -/
def fourWords (n at_ dd : Nat) (v : Nat → Nat) (d : Dev) : Dev :=
  (List.range 4).foldl (fun d i => land n at_ 4 (.reg (d.phys n (dd + i)) (v i % 65536)) d) d

def timEffect (n t : Nat) (s : Syl) (d : Dev) : Dev :=
  let at_ := t + ceCycle d.mode
  match s.op with
  | 0x00 => opArm n t s.d (bits s.o 9 4) (bits s.o 5 4) d
  | 0x01 => opArmp n t s.d (bits s.o 9 4) d
  | 0x02 => fourWords n at_ s.d (fun i => d.clock.strokeNo / 65536 ^ i) d
  | 0x03 =>
    let ns := d.strokeBase % 1000000000
    let sec := d.strokeBase / 1000000000
    fourWords n at_ s.d (fun i => match i with | 0 => ns | 1 => ns / 65536 | 2 => sec | _ => sec / 65536) d
  | 0x04 => setSpec n 15 (d.spec n 15 - (d.spec n 15 &&& 0x3E)) d
  | _ => d

/-! ### Fetch -/

/-- Byte address of syllable `a` of engine `n`'s instruction memory (R33, R240). -/
def imemAddr (n a : Nat) : Nat := 0x800000 + n * 0x40000 + 4 * (a % 65536)

/-- The syllable at address `a`, with its stop bit (R240). -/
def Dev.syllable (d : Dev) (n a : Nat) : Syl × Bool :=
  let w := d.mem.read (imemAddr n a) 4
  (⟨bits w 28 3, bits w 24 4, bits w 18 6, bits w 0 18⟩, bit w 31)

/-- R242: the bundle at address `a`, at most `fuel` syllables. -/
def Dev.bundle (d : Dev) (n : Nat) : Nat → Nat → List Syl
  | 0, _ => []
  | fuel + 1, a =>
    let (s, stop) := d.syllable n a
    if stop then [s] else s :: Dev.bundle d n fuel (a + 1)

/-- R250: the bundle after the one at `a`. -/
def Dev.bundleAfter (d : Dev) (n a : Nat) : Nat := (a + (d.bundle n 65536 a).length) % 65536

/-! ### SEQ operations (R246–R251) -/

/-- What a SEQ syllable asks of the issue logic. -/
structure SeqOut where
  dev : Dev
  pc : Nat            -- next bundle
  delay : Nat         -- its issue cycle, counted from this one
deriving DecidableEq, Repr

/-- R213, R214, R246: the trap a SEQ syllable raises, if any, with a fault word. `after`: the bundle after this one. -/
def Dev.seqTrap (d : Dev) (n : Nat) (s : Syl) (pc after : Nat) : Option (Nat × Nat × Option (Nat × Nat)) :=
  let sh := if s.op = 0x39 then s.sh else s.x
  let own7 : Bool :=
    let b := d.get (CE_SEG_BASE_BASE n 7)
    wordPath n b == .own && wordPath n (b + d.get (CE_SEG_LIMIT_LIMIT n 7) - 1) == .own
  let first (off : Nat) : Nat := d.get (CE_SEG_BASE_BASE n 7) + off
  let bad (off : Nat) : Option Nat := ((List.range 8).map fun i => first ((off + i) % 65536)).find? fun w => wordPath n w != .own
  match s.op with
  | 0x02 => if 28 < d.depth n + sh then some (2, pc, none) else none
  | 0x39 => if 28 < d.depth n + sh then some (2, pc, none) else none
  | 0x03 => if d.depth n < sh then some (3, pc, none) else none
  | 0x08 => some (7, after, none)
  | 0x09 =>
    let off := d.spec n 2 + 65536 - 8
    if d.depth n = 0 then some (6, pc, none)
    else if !own7 then some (5, pc, some (first (off % 65536), 7))
    else (bad off).map fun w => (5, pc, some (w, 7))
  | 0x0A =>
    if d.depth n = 28 then some (6, pc, none)
    else if !own7 then some (5, pc, some (first (d.spec n 2), 7))
    else (bad (d.spec n 2)).map fun w => (5, pc, some (w, 7))
  | _ => none

/-- R212: a call with shift code `sh`. -/
def opCall (n t sh after target : Nat) (d : Dev) : SeqOut :=
  let d := land n (t + ceCycle d.mode) 0 (.spec 1 after) d
  ⟨setWin n (d.depth n + sh) ((d.wb n + 8 * sh) % 248) (d.filled n) d, target, 2⟩

/-- R212: a return with shift code `sh`. -/
def opRet (n sh : Nat) (d : Dev) : SeqOut :=
  ⟨setWin n (d.depth n - sh) ((d.wb n + 248 - 8 * sh) % 248) (d.filled n) d, d.spec n 1, 2⟩

/-- R214: SPILL. -/
def opSpill (n t after : Nat) (d : Dev) : SeqOut :=
  let sp := d.spec n 2
  let f := d.filled n
  let base := d.get (CE_SEG_BASE_BASE n 7)
  let d := (List.range 8).foldl (fun d i =>
    ownStore n (t + ceCycle d.mode) 0 (base + (sp + 65536 - 8 + i) % 65536) (d.get (CE_XREG_VALUE n ((f + i) % 248))) d) d
  let d := land n (t + ceCycle d.mode) 0 (.spec 2 ((sp + 65536 - 8) % 65536)) d
  ⟨setWin n (d.depth n - 1) (d.wb n) ((f + 8) % 248) d, after, 4⟩

/-- R214: FILL. -/
def opFill (n t after : Nat) (d : Dev) : SeqOut :=
  let sp := d.spec n 2
  let f := (d.filled n + 240) % 248
  let base := d.get (CE_SEG_BASE_BASE n 7)
  let d := (List.range 8).foldl (fun d i =>
    let (v, d) := ownRead n (base + (sp + i) % 65536) 0 d
    land n (t + ceCycle d.mode) 0 (.reg ((f + i) % 248) v) d) d
  let d := land n (t + ceCycle d.mode) 0 (.spec 2 ((sp + 8) % 65536)) d
  ⟨setWin n (d.depth n + 1) (d.wb n) f d, after, 4⟩

/-- R250: REP and REPI with count `k`; `after` is the repeated bundle. -/
def opRep (n t k term after : Nat) (d : Dev) : SeqOut :=
  let at_ := t + ceCycle d.mode
  let d := land n at_ 0 (.spec 14 after) d
  if k = 0 then ⟨land n at_ 0 (.spec 13 0) d, d.bundleAfter n after, 2⟩
  else ⟨land n at_ 0 (.spec 13 (k + 32768 * term)) d, after, 1⟩

/-- R233: return from trap. -/
def opRtt (n : Nat) (d : Dev) : SeqOut := ⟨setSpec n 0 (d.spec n 9 % 256) d, d.spec n 8, 3⟩

/-- R233, R236: return from interrupt; with YLD the engine is YIELDED again. -/
def opRti (n : Nat) (d : Dev) : SeqOut :=
  let fl := d.spec n 7
  let d := setSpec n 0 (fl % 256) d
  ⟨if bit fl 7 then (d.putCe n { d.ceAt n with yielded := true }).set (CE_STATUS_RUN n) 2 else d, d.spec n 6, 3⟩

/-- R237: WAIT. -/
def opWait (n t after : Nat) (d : Dev) : SeqOut :=
  if d.spec n 4 ≠ 0 ∨ d.ceIrq n then ⟨land n (t + ceCycle d.mode) 0 (.flags 64 64) d, after, 1⟩
  else ⟨d.set (CE_STATUS_RUN n) 3, after, 1⟩

/-- The effect of a SEQ syllable that raises no trap; `b` is the device before the bundle, which it reads (R221). -/
def seqEffect (n t : Nat) (s : Syl) (after : Nat) (b d : Dev) : SeqOut :=
  let at_ := t + ceCycle d.mode
  let xa := (d.xr n s.a).toNat
  match s.op with
  | 0x01 => ⟨d, xa, 2⟩
  | 0x02 => opCall n t s.x after xa d
  | 0x03 => opRet n s.x d
  | 0x04 => opRtt n d
  | 0x05 => opRti n d
  | 0x06 => ⟨ceYield n t d, after, 1⟩
  | 0x07 => opWait n t after d
  | 0x09 => opSpill n t after d
  | 0x0A => opFill n t after d
  | 0x0B => opRep n t (xa % 32768) s.f after d
  | 0x0C => opRep n t (bits s.o 0 15) (bits s.o 17 1) after d
  | 0x0D => ⟨land n at_ 0 (.reg (d.phys n s.d) (b.readSpec n s.a t)) d, after, 1⟩
  | 0x0E => ⟨land n at_ 0 (.spec s.d xa) d, after, 1⟩
  | 0x0F => ⟨land n at_ 0 (.flags 16 16) d, after, 1⟩
  | 0x10 => ⟨land n at_ 0 (.flags 16 0) d, after, 1⟩
  | 0x38 => ⟨d, bits s.o 0 16, 2⟩
  | 0x39 => opCall n t s.sh after (bits s.o 0 16) d
  | _ => ⟨d, after, 1⟩

/-! ### Issue of a bundle -/

/-- R252: the landing of the latest flag write that a bundle makes, counted in cycles from its issue. -/
def flagDelay (b : List Syl) : Nat :=
  b.foldl (fun m s =>
    let k := if s.unit = 6 then (if s.f = 1 then 2 else 1) else if s.unit = 3 then (if s.op = 0x0D then 3 else 1) else 1
    max m k) 1

/-- The effect of a syllable of any unit but SEQ, issued at `t`. -/
def unitEffect (n t : Nat) (s : Syl) (d : Dev) : Dev :=
  match s.unit with
  | 0 => d
  | 3 => memEffect n t s d
  | 4 => timEffect n t s d
  | 5 => bitEffect n t s d
  | 6 => macEffect n t s d
  | _ => aluEffect n t s d

/-- R252: the bundle at the PC is the one that REP repeats. -/
def Dev.repeats (d : Dev) (n : Nat) : Bool := decide (d.spec n 14 = d.get (CE_STATUS_PC n)) && bits (d.spec n 13) 0 15 != 0

/-- R44: the device time at which a bundle that would issue at `t` issues after the stall of its wheel access. -/
def Dev.stallTo (d : Dev) (n : Nat) (b : List Syl) (t : Nat) : Nat :=
  match (d.ceAt n).wheelAt with
  | some w => if b.any fun s => d.cond n s.c t && d.onWheel n s then max t (w + 8 * ceCycle d.mode) else t
  | none => t

/-- The state of the sequencer after a bundle that raised no trap, issued at `t`: a repetition goes on or ends (R251, R252), or the next
bundle is the one that `out` names. -/
def issueNext (n t : Nat) (repeated : Bool) (act : List Syl) (pc after : Nat) (out : SeqOut) : Dev :=
  let c := ceCycle out.dev.mode
  let d := out.dev
  if repeated then
    let brc := d.spec n 13
    let cnt := bits brc 0 15 - 1
    let delay := if bit brc 15 then flagDelay act else 1
    let stop := cnt = 0 ∨ (bit brc 15 ∧ (landTo n (t + delay * c) d).flag n 0)
    let d := land n (t + c) 0 (.spec 13 (if stop then 0 else cnt + 32768 * bits brc 15 1)) d
    (d.putCe n { d.ceAt n with issueAt := t + delay * c }).set (CE_STATUS_PC n) (if stop then after else pc)
  else (d.putCe n { d.ceAt n with issueAt := t + out.delay * c }).set (CE_STATUS_PC n) out.pc

/-- R221–R223, R231–R234, R244–R252: the bundle `b` at the engine's PC issues in the engine cycle that begins now. Its results land at the
end of their cycles (R244). -/
def issueBundle (n : Nat) (b : List Syl) (d : Dev) : Dev :=
  let pc := d.get (CE_STATUS_PC n)
  let after := (pc + b.length) % 65536
  let t := d.clock.now
  let repeated := d.repeats n
  if !bundleOk repeated b then syncTrap n 6 pc t none d
  else
    let act := b.filter fun s => d.cond n s.c t
    let seq := act.find? fun s => s.unit == 0
    let mem := act.find? fun s => s.unit == 3
    match (match seq with | some s => d.seqTrap n s pc after | none => none) with
    | some (cause, tpc, fault) => syncTrap n cause tpc t fault d
    | none =>
      match (match mem with | some s => d.memTrap n s | none => none) with
      | some (cause, w, k) => syncTrap n cause pc t (some (w, k)) d
      | none =>
        let e := act.foldl (fun e s => unitEffect n t s e) d
        let out : SeqOut := match seq with | some s => seqEffect n t s after d e | none => ⟨e, after, 1⟩
        ceShow n (issueNext n t repeated act pc after out)

end Sys2Proof.Machine
end

