-- ==== Sys2Proof/Machine/Pe.lean ====
section
/-!
DEFINITION. Sys2Proof/Machine/Pe.lean: the pin engines PE[0..31] (R266–R290): presence, action times, operations,
shifters, queues, pins, group flags, start and stop.
-/
namespace Sys2Proof.Machine

def Dev.peAt (d : Dev) (n : Nat) : Pe := aget {} n d.pe
def Dev.putPe (d : Dev) (n : Nat) (p : Pe) : Dev := { d with pe := awrite {} n p d.pe }

/-- R266: engine `n` is present in a mode. -/
def pePresent (mode n : Nat) : Bool := mode == 2 || mode == 3 || (mode == 1 && decide (n < 8))

/-- R267: the pin-time counter at device time `t`. -/
def ptOf (t : Nat) : Nat := t % 2 ^ 32

/-- R266, R270: the first TCLK at or after `t` in which an engine may act. -/
def peSlot (mode t : Nat) : Nat := if mode = 1 then (t + 3) / 4 * 4 else t

/-- R268, R270: the tick in force. -/
def Dev.peDiv (d : Dev) (n : Nat) : Nat := if d.mode = 1 then max 1024 (d.get (PE_CLKDIV_DIV n)) else d.get (PE_CLKDIV_DIV n)

/-- R280: queue depths. -/
def Dev.txDepth (d : Dev) (n : Nat) : Nat := match d.get (PE_CFG_QMODE n) with | 0 => 4 | 1 => 8 | _ => 0
def Dev.rxDepth (d : Dev) (n : Nat) : Nat := match d.get (PE_CFG_QMODE n) with | 0 => 4 | 1 => 0 | _ => 8

def Dev.rshCnt (d : Dev) (n : Nat) : Nat := d.get (PE_STATUS_RSH_COUNT n)
def Dev.tshCnt (d : Dev) (n : Nat) : Nat := d.get (PE_STATUS_TSH_COUNT n)

/-- STATUS levels and RXQ_INFO show the queues; RXQ and RXQ_INFO of an absent engine read 0 (R266, R281, R282). -/
def peShow (n : Nat) (d : Dev) : Dev :=
  let p := d.peAt n
  let d := (d.set (PE_STATUS_TX_LEVEL n) p.tx.length).set (PE_STATUS_RX_LEVEL n) p.rx.length
  match p.rx, pePresent d.mode n with
  | e :: _, true =>
    (((d.set (PE_RXQ_WORD n) e.word).set (PE_RXQ_INFO_COUNT n) e.count).setB (PE_RXQ_INFO_FLUSHED n) e.flushed).set (PE_RXQ_INFO_VALID n) 1
  | _, _ => (((d.set (PE_RXQ_WORD n) 0).set (PE_RXQ_INFO_COUNT n) 0).set (PE_RXQ_INFO_FLUSHED n) 0).set (PE_RXQ_INFO_VALID n) 0

/-! ### Pins (R284–R286) -/

/-- R296: the BALL word of a ball; a ball that no word names is UNUSED with SAFE = HIGH_Z. -/
def Dev.ballWord (d : Dev) (b : Nat) : Nat := aget 65536 b d.rig.balls

/-- The GTIO that pin `i` of a window names. -/
def winBall (base i : Nat) : Nat := (base + i) % 128

/-- R284: engines drive the ball; with `dir` the write is of its direction bit, which only BIDIR uses. -/
def Dev.peDrives (d : Dev) (b : Nat) (dir : Bool) : Bool :=
  let w := d.ballWord b
  bits w 0 4 == 2 && (bits w 12 2 == 2 || (bits w 12 2 == 0 && !dir))

/-- R286: engine `m` has lost a write in the TCLK `t`; it counts once in a TCLK. -/
def peCollide (m t : Nat) (d : Dev) : Dev :=
  let p := d.peAt m
  if p.collAt = t + 1 then d
  else ((d.putPe m { p with collAt := t + 1 }).inc (PE_COUNTS_B_COLLIDE_CNT m)).cause (PE_IRQ_STAT_COLLIDE m)

/-- Store a ball's output registers; the ball takes them 3 TCLK later (R285). -/
def putBall (b t : Nat) (x : PeBall) (d : Dev) : Dev :=
  let rest := match x.line with | (a, _) :: r => if a = t + 3 then r else x.line | [] => []
  { d with peBall := awrite {} b { x with line := ((t + 3, x.level, x.dir) :: rest).take 4 } d.peBall }

/-- R284, R286: engine `n` writes the level or the direction bit of ball `b` in the TCLK `t`; among several engines
the lowest-numbered one wins. -/
def pinWrite (n t : Nat) (dir : Bool) (b : Nat) (v : Bool) (d : Dev) : Dev :=
  if !d.peDrives b dir then d
  else
    let x := aget {} b d.peBall
    let at_ := if dir then x.dirAt else x.lvAt
    let by_ := if dir then x.dirBy else x.lvBy
    if at_ = t + 1 ∧ by_ < n then peCollide n t d
    else
      let d := if at_ = t + 1 ∧ n < by_ then peCollide by_ t d else d
      putBall b t (if dir then { x with dir := v, dirAt := t + 1, dirBy := n } else { x with level := v, lvAt := t + 1, lvBy := n }) d

/-- Write bits `v` to the first `k` pins of the OUT window; pins beyond the window have no effect. -/
def outWrite (n t : Nat) (dir : Bool) (k v : Nat) (d : Dev) : Dev :=
  forUpTo (min k (d.get (PE_PINS_OUT_COUNT n))) (fun i d => pinWrite n t dir (winBall (d.get (PE_PINS_OUT_BASE n)) i) (bit v i) d) d

/-- R268: the side action: pattern SA, pattern SB, or inversion. -/
def sideAct (n t side : Nat) (d : Dev) : Dev :=
  if side = 0 then d
  else forUpTo (d.get (PE_PINS2_SIDE_COUNT n)) (fun i d =>
    let b := winBall (d.get (PE_PINS2_SIDE_BASE n)) i
    let v := match side with
      | 1 => bit (d.get (PE_PINS2_SA n)) i
      | 2 => bit (d.get (PE_PINS2_SB n)) i
      | _ => !(aget {} b d.peBall).level
    pinWrite n t false b v d) d

/-- R285: the sampled level of a ball. -/
def Dev.pin (d : Dev) (b : Nat) : Bool := bit d.sync b

/-- The IN-window pins as a number; pins beyond the window read 0. -/
def Dev.inPins (d : Dev) (n : Nat) : Nat :=
  (List.range (d.get (PE_PINS_IN_COUNT n))).foldl (fun v i => v + b2n (d.pin (winBall (d.get (PE_PINS_IN_BASE n)) i)) * 2 ^ i) 0

/-- R297: the level of a source line; a chain of trigger lines that ends in no source reads 0. -/
def Dev.lineLevel (d : Dev) : Nat → Nat → Bool
  | 0, _ => false
  | fuel + 1, l =>
    if l < 152 then d.pin l
    else if 0x100 ≤ l ∧ l < 0x200 then d.on (CH_STATUS_LEVEL (l - 0x100))
    else if 0x200 ≤ l ∧ l < 0x208 then decide (d.clock.now < (d.trkAt (l - 0x200)).trigLine)
    else if 0x208 ≤ l ∧ l < 0x210 then d.get (TXG_STATUS_STATE (l - 0x208)) == 2
    else if 0x300 ≤ l ∧ l < 0x320 then
      match d.route (0x160 + (l - 0x300)) with
      | some s => d.lineLevel fuel s
      | none => false
    else false

/-- R297: trigger line `i` of the pin fabric; a line without a source reads 0. -/
def Dev.trigLevel (d : Dev) (i : Nat) : Bool := d.lineLevel 33 (0x300 + i)

/-- R505, R108: the SK width-coded PPS of the device's own timebase state is high now. -/
def Dev.moorPps (d : Dev) : Bool :=
  let us := match d.get TB_STATUS_STATE with
    | 2 => if d.on TB_LEAP_CFG_PENDING then 400 else 100
    | 3 => 200
    | 4 => 300
    | _ => 0
  decide (d.clock.now % 1000000000 < us * 1000)

/-- What a ball shows now (R151, R194, R198, R205, R266, R285, R296, R505, R513). -/
def Dev.ballOut (d : Dev) (b : Nat) : BallOut :=
  let w := d.ballWord b
  let sel := bits w 4 8
  let safe : BallOut := match bits w 15 2 with | 0 => .level false | 1 => .level true | _ => .highZ
  if d.clock.phase = .held then .highZ
  else if 128 ≤ b ∧ b < 144 ∧ !d.on (DOUT_CFG_DRIVE (b - 128)) then .highZ
  else if d.mode = 0 then (if b = 0 ∧ d.on PWR_MOOR_CFG_PPS_EN then .level d.moorPps else safe)
  else if d.mode = 5 then safe
  else match bits w 0 4 with
  | 1 => if !chPresent d.mode sel then safe else if d.on (CH_STATUS_DRIVEN sel) then .level (d.on (CH_STATUS_LEVEL sel)) else .highZ
  | 2 =>
    if !pePresent d.mode 0 then safe
    else
      let x := aget ({} : PeBall) b d.peBall
      let now := (x.line.find? fun e => decide (e.1 ≤ d.clock.now)).getD (0, bit w 14, false)
      match bits w 12 2 with
      | 0 => .level now.2.1
      | 2 => if now.2.2 then .level now.2.1 else .highZ
      | _ => .highZ
  | 3 => if !synPresent d.mode sel then safe else if (d.synAt sel).out then .clock sel else .level false
  | 4 => .level (d.get (TXG_STATUS_STATE sel) == 2)
  | 5 => .level (decide (d.clock.now < (d.trkAt sel).trigLine))
  | _ => safe

/-! ### Group flags (R287) -/

/-- The flags of engine `n`'s group. -/
def Dev.gflags (d : Dev) (n : Nat) : Nat := d.get (PE_GFLAGS_FLAGS (n / 8 * 8))

/-- The record of the last write of flag `f` of group `g`: ((TCLK × 64 + writer) × 2 + the level before that TCLK) + 1; 0: none. -/
def Dev.flagRec (d : Dev) (g f : Nat) : Nat := aget 0 (g * 8 + f) d.gflagBy

/-- Flag `f` of group `g` at the start of the TCLK `t`. -/
def Dev.flagBefore (d : Dev) (g f t : Nat) : Bool :=
  let r := d.flagRec g f
  if r ≠ 0 ∧ (r - 1) / 128 = t then bit (r - 1) 0 else bit (d.get (PE_GFLAGS_FLAGS (g * 8))) f

/-- Writer `w` (0 = host, n + 1 = engine n) writes flag `f` of a group in the TCLK `t`; the lowest writer wins. -/
def flagWrite (g f t w : Nat) (v : Bool) (d : Dev) : Dev :=
  let r := d.flagRec g f
  if r ≠ 0 ∧ (r - 1) / 128 = t ∧ (r - 1) / 2 % 64 < w then d
  else
    let old := d.flagBefore g f t
    { d.putBit (PE_GFLAGS_FLAGS (g * 8)) f v with gflagBy := awrite 0 (g * 8 + f) ((t * 64 + w) * 2 + b2n old + 1) d.gflagBy }

/-- A host write of GFLAGS. -/
def gflagsWrite (n v : Nat) (d : Dev) : Dev := forUpTo 8 (fun f d => flagWrite (n / 8) f d.clock.now 0 (bit v f) d) d

/-! ### Queues (R279–R283) -/

/-- R290: the TX level has fallen. -/
def txFell (n : Nat) (d : Dev) : Dev :=
  let d := peShow n d
  if (d.peAt n).tx.length ≤ d.get (PE_QTHRESH_TX_LOW n) then d.cause (PE_IRQ_STAT_TX_LOW n) else d

/-- R290: the RX level has risen. -/
def rxRose (n : Nat) (d : Dev) : Dev :=
  let d := peShow n d
  if d.get (PE_QTHRESH_RX_HIGH n) ≤ (d.peAt n).rx.length then d.cause (PE_IRQ_STAT_RX_HIGH n) else d

/-- R281: push a word; one that finds the queue full is discarded and counted. -/
def txqPush (n v : Nat) (d : Dev) : Dev :=
  let p := d.peAt n
  if !pePresent d.mode n then d
  else if p.tx.length < d.txDepth n then peShow n (d.putPe n { p with tx := p.tx ++ [v % 2 ^ 32] })
  else (d.inc (PE_COUNTS_B_TXDROP_CNT n)).cause (PE_IRQ_STAT_TXDROP n)

/-- R281: remove the RX head. -/
def rxqPop (n : Nat) (d : Dev) : Dev :=
  if !pePresent d.mode n then d else let p := d.peAt n; peShow n (d.putPe n { p with rx := p.rx.tail })

/-- R281: a read of RXQ that returns bits [31:16]. -/
def rxqRead (m : Master) (n : Nat) (d : Dev) : Dev := rxqPop n (d.ret m (d.get (PE_RXQ_WORD n)))

/-- R279, R283: push RSH with its tag, or discard it and count; RSH and its count become 0. -/
def rxPush (n : Nat) (flushed : Bool) (d : Dev) : Dev :=
  let p := d.peAt n
  let c := d.rshCnt n
  let d1 := d.set (PE_STATUS_RSH_COUNT n) 0
  if p.rx.length < d.rxDepth n then
    let d := rxRose n (d1.putPe n { p with rsh := 0, rx := p.rx ++ [⟨p.rsh, c, flushed⟩] })
    if flushed then ((d.cause (PE_IRQ_STAT_FLUSH n)).inc (PE_COUNTS_C_FLUSH_CNT n)).set (PE_LAST_FLUSH_COUNT n) c else d
  else ((d1.putPe n { p with rsh := 0 }).inc (PE_COUNTS_A_OVERRUN_CNT n)).cause (PE_IRQ_STAT_OVERRUN n)

/-- R275, R279: TSH takes the queue head; on an empty queue a load that does not wait repeats the last word. None: it stalls. -/
def tshLoad (n : Nat) (wait : Bool) (d : Dev) : Option Dev :=
  let p := d.peAt n
  match p.tx with
  | w :: r => some (txFell n ((d.putPe n { p with tsh := w, last := w, tx := r }).set (PE_STATUS_TSH_COUNT n) 0))
  | [] =>
    if wait then none
    else some ((((d.putPe n { p with tsh := p.last }).set (PE_STATUS_TSH_COUNT n) 0).inc (PE_COUNTS_A_UNDERRUN_CNT n)).cause (PE_IRQ_STAT_UNDERRUN n))

def Dev.tshExhausted (d : Dev) (n : Nat) : Bool := decide (d.get (PE_SHIFTCTL_WLEN_TX n) ≤ d.tshCnt n)
def Dev.rshFull (d : Dev) (n : Nat) : Bool := decide (d.get (PE_SHIFTCTL_WLEN_RX n) ≤ d.rshCnt n)

/-- R283: the partial RSH is flushed. -/
def peFlush (n : Nat) (d : Dev) : Dev := let d := rxPush n true d; d.putPe n { d.peAt n with idle := 0 }

/-- R283: engine `n`'s idle count at a catch. -/
def peIdle (n : Nat) (d : Dev) : Dev :=
  let p := d.peAt n
  let lim := d.get (PE_IDLE_IDLE_STROKES n)
  let k := if d.rshCnt n = 0 ∨ p.took ∨ lim = 0 then 0 else p.idle + 1
  let d := d.putPe n { p with idle := k, took := false }
  if lim ≠ 0 ∧ lim ≤ k then peFlush n d else d

/-- R283: the idle count reaches IDLE_STROKES at the catch that ends this stroke. -/
def Dev.idleDue (d : Dev) (n : Nat) : Bool :=
  let lim := d.get (PE_IDLE_IDLE_STROKES n)
  lim != 0 && decide (lim ≤ (d.peAt n).idle + 1) && d.rshCnt n != 0 && !(d.peAt n).took

/-! ### Operations (R275–R278) -/

/-- What an operation answers in a TCLK: it acts (with another next PC, or with an anchor), it is stalled, or it is undefined. -/
inductive PeRes where
  | go (d : Dev)
  | jump (pc : Nat) (d : Dev)
  | anchor (t : Nat) (d : Dev)
  | stalled
  | illegal

/-- R276: the condition and its effect on X or Y. -/
def peCond (n c : Nat) (d : Dev) : Bool × Dev :=
  let x := d.get (PE_X_X n)
  let y := d.get (PE_Y_Y n)
  let p := d.peAt n
  match c with
  | 0 => (true, d)
  | 1 => if x = 0 then (false, d) else (true, d.set (PE_X_X n) (x - 1))
  | 2 => (x == 0, d)
  | 3 => if y = 0 then (false, d) else (true, d.set (PE_Y_Y n) (y - 1))
  | 4 => (y == 0, d)
  | 5 => (decide (x < y), d)
  | 6 => (d.pin (d.get (PE_PINS2_JPIN n)), d)
  | 7 => (!d.pin (d.get (PE_PINS2_JPIN n)), d)
  | 8 => (d.tshExhausted n, d)
  | 9 => (!d.tshExhausted n, d)
  | 10 => (d.rshFull n, d)
  | 11 => (p.tx.isEmpty, d)
  | 12 => (!p.tx.isEmpty, d)
  | 13 => (decide (d.rxDepth n ≤ p.rx.length), d)
  | 14 => (d.rshCnt n != 0, d)
  | _ => (true, d)

/-- R275: BR. -/
def peBr (n o : Nat) (d : Dev) : PeRes :=
  let c := bits o 6 4
  let tgt := bits o 0 6
  if c = 15 then (if tgt = 0 then .jump ((d.peAt n).tsh % 64) d else .illegal)
  else match peCond n c d with
    | (true, d) => .jump tgt d
    | (false, d) => .go d

/-- R275: HOLD in the TCLK `t`. The level test of its source; none: undefined. A group flag is tested as it stood at the start of the
TCLK (log entry 97). -/
def Dev.holdLevel (d : Dev) (n t o : Nat) : Option Bool :=
  let idx := bits o 0 5
  match bits o 6 3 with
  | 0 => some (decide (idx < d.get (PE_PINS_IN_COUNT n)) && d.pin (winBall (d.get (PE_PINS_IN_BASE n)) idx))
  | 1 => if idx = 0 then some (d.pin (d.get (PE_PINS2_JPIN n))) else none
  | 2 => some (d.trigLevel idx)
  | 3 => if idx < 8 then some (d.flagBefore (n / 8) idx t) else none
  | 4 => if idx = 0 ∧ bit o 9 then some (d.peAt n).catchSeen else none
  | _ => none

def peHold (n t o : Nat) (d : Dev) : PeRes :=
  if bit o 5 then .illegal
  else match d.holdLevel n t o with
    | none => .illegal
    | some v => if v == bit o 9 then .go (d.putPe n { d.peAt n with holdAt := t, stamp := ptOf t, catchSeen := false }) else .stalled

/-- R278: bit `i` of a SEND that starts at count `c`. -/
def Dev.sendBit (d : Dev) (n c i : Nat) : Bool :=
  let tsh := (d.peAt n).tsh
  if d.on (PE_SHIFTCTL_TX_LSB n) then decide (c + i < 32) && bit tsh (c + i)
  else
    let w := d.get (PE_SHIFTCTL_WLEN_TX n)
    decide (c + i + 1 ≤ w) && bit tsh (w - 1 - (c + i))

/-- R278: SEND. -/
def peSend (n t o : Nat) (d : Dev) : PeRes :=
  let k := bits o 0 6
  let dst := bits o 8 2
  if k = 0 ∨ 32 < k ∨ dst = 3 ∨ bits o 6 2 ≠ 0 then .illegal
  else
    let loaded := if d.on (PE_SHIFTCTL_TX_AUTO n) && d.tshExhausted n then tshLoad n (!d.on (PE_SHIFTCTL_TX_AUTO_NB n)) d else some d
    match loaded with
    | none => .stalled
    | some d =>
      let c := d.tshCnt n
      let v := (List.range k).foldl (fun v i => v + b2n (d.sendBit n c i) * 2 ^ i) 0
      let d := if dst = 2 then d else outWrite n t (dst == 1) k v d
      .go (d.set (PE_STATUS_TSH_COUNT n) (min 32 (c + k)))

/-- R278: RSH after `k` bits `v` (first bit in bit 0) have been taken. -/
def rshTake (lsb : Bool) (rsh c k v : Nat) : Nat :=
  (List.range k).foldl (fun r i =>
    if lsb then (if c + i < 32 ∧ !bit r (c + i) then r + b2n (bit v i) * 2 ^ (c + i) else r)
    else (2 * r + b2n (bit v i)) % 2 ^ 32) rsh

/-- R278: TAKE. -/
def peTake (n o : Nat) (d : Dev) : PeRes :=
  let k := bits o 0 6
  let src := bits o 8 2
  if k = 0 ∨ 32 < k ∨ src = 3 ∨ bits o 6 2 ≠ 0 then .illegal
  else
    let p := d.peAt n
    let v := match src with | 0 => d.inPins n | 1 => 0 | _ => 2 ^ 32 - 1
    let c := d.rshCnt n
    let d := d.putPe n { p with rsh := rshTake (d.on (PE_SHIFTCTL_RX_LSB n)) p.rsh c k v, took := p.took || src == 0 }
    let d := d.set (PE_STATUS_RSH_COUNT n) (min 32 (c + k))
    .go (if d.on (PE_SHIFTCTL_RX_AUTO n) && d.rshFull n then rxPush n false d else d)

/-- R275: LOAD. -/
def peLoad (n o : Nat) (d : Dev) : PeRes :=
  if bits o 0 8 ≠ 0 then .illegal
  else if bit o 8 && !d.tshExhausted n then .go d
  else match tshLoad n (bit o 9) d with | some d => .go d | none => .stalled

/-- R275, R280: STORE; to a queue of depth 0 it discards, whatever WAIT says. -/
def peStore (n o : Nat) (d : Dev) : PeRes :=
  if bits o 0 8 ≠ 0 then .illegal
  else if bit o 8 && !d.rshFull n then .go d
  else if bit o 9 && d.rxDepth n != 0 && decide (d.rxDepth n ≤ (d.peAt n).rx.length) then .stalled
  else .go (rxPush n false d)

/-- R275: PUT. -/
def pePut (n t o : Nat) (d : Dev) : PeRes :=
  if 2 ≤ bits o 8 2 then .illegal else .go (outWrite n t (bits o 8 2 == 1) 8 (bits o 0 8) d)

/-- R275: LDC. -/
def peLdc (n o : Nat) (d : Dev) : PeRes :=
  let f := if bit o 9 then PE_Y_Y n else PE_X_X n
  if !bit o 8 then .go (d.set f (bits o 0 8))
  else if bits o 0 8 = 0 then .go (d.set f (d.peAt n).tsh) else .illegal

/-- R272: SYNC. -/
def peSync (n t o : Nat) (d : Dev) : PeRes :=
  let tsh := (d.peAt n).tsh
  if bits o 0 8 ≠ 0 then .illegal
  else match bits o 8 2 with
    | 0 => .anchor (d.peAt n).holdAt d
    | 1 =>
      let c := tsh % d.period
      .anchor (if t ≤ d.clock.openAt + c then d.clock.openAt + c else d.clock.endAt + c) d
    | 2 => .anchor (t + (tsh + 2 ^ 32 - ptOf t) % 2 ^ 32) d
    | _ => .anchor t d

/-- R269: the action time of an instruction with offset `ofs`. -/
def Dev.peTime (d : Dev) (n ofs : Nat) : Int := (d.peAt n).base + ((ofs * d.peDiv n : Nat) : Int)

/-- R270: its action TCLK; one that has passed acts in the next TCLK in which the engine may act. -/
def Dev.peTclk (d : Dev) (n ofs : Nat) : Nat :=
  peSlot d.mode (max (max (d.peTime n ofs / 256).toNat (d.peAt n).actFrom) d.clock.now)

/-- Engine `m` sets group flag `f` in the TCLK `t`, by the instruction of its store that acts there. -/
def Dev.setsFlag (d : Dev) (f t m : Nat) : Bool :=
  let w := d.get (PE_INSTR_WORD m (d.get (PE_STATUS_PC m)))
  pePresent d.mode m && d.get (PE_STATUS_RUN m) == 1 && bits w 12 4 == 9 && bits w 8 2 == 0 && bits w 3 5 == 0 && bits w 0 3 == f &&
  d.peTclk m (bits w 16 8) == t

/-- R287: what a waiting FLAG sees: the flag as it stood at the start of the TCLK, or a set of it by any engine in the TCLK. -/
def Dev.flagSeen (d : Dev) (n f t : Nat) : Bool :=
  d.flagBefore (n / 8) f t || bit (d.gflags n) f || (List.range 8).any fun i => d.setsFlag f t (n / 8 * 8 + i)

/-- R275, R287: FLAG. -/
def peFlag (n t o : Nat) (d : Dev) : PeRes :=
  let f := bits o 0 3
  if bits o 3 5 ≠ 0 then .illegal
  else match bits o 8 2 with
    | 0 => .go (flagWrite (n / 8) f t (n + 1) true d)
    | 1 => .go (flagWrite (n / 8) f t (n + 1) false d)
    | 2 => if f = 0 then .go (d.cause (PE_IRQ_STAT_SIGNAL n)) else .illegal
    | _ => if d.flagSeen n f t then .go (flagWrite (n / 8) f t (n + 1) false d) else .stalled

/-- R275: the STATUS word that XFER reads. -/
def Dev.peStatusWord (d : Dev) (n : Nat) : Nat :=
  let p := d.peAt n
  p.tx.length + 16 * p.rx.length + 256 * d.rshCnt n + 16384 * d.tshCnt n

/-- R275: XFER. -/
def peXfer (n t o : Nat) (d : Dev) : PeRes :=
  let p := d.peAt n
  let v := match bits o 3 3 with
    | 0 => d.inPins n
    | 1 => d.get (PE_X_X n)
    | 2 => d.get (PE_Y_Y n)
    | 3 => p.tsh
    | 4 => p.rsh
    | 5 => d.peStatusWord n
    | 6 => p.stamp
    | _ => 0
  let v := if bit o 6 then 2 ^ 32 - 1 - v else v
  if bits o 0 3 ≠ 0 then .illegal
  else match bits o 7 3 with
    | 0 => .go ((d.putPe n { p with tsh := v }).set (PE_STATUS_TSH_COUNT n) 0)
    | 1 => .go ((d.putPe n { p with rsh := v }).set (PE_STATUS_RSH_COUNT n) 32)
    | 2 => .go (d.set (PE_X_X n) v)
    | 3 => .go (d.set (PE_Y_Y n) v)
    | 4 => .go (outWrite n t false 32 v d)
    | 5 => .go (outWrite n t true 32 v d)
    | _ => .illegal

/-- R275, R277: the operation of an instruction word in the TCLK `t`. -/
def peOp (n t w : Nat) (d : Dev) : PeRes :=
  let o := bits w 0 10
  match bits w 12 4 with
  | 0 => peBr n o d
  | 1 => peHold n t o d
  | 2 => peSend n t o d
  | 3 => peTake n o d
  | 4 => peLoad n o d
  | 5 => peStore n o d
  | 6 => pePut n t o d
  | 7 => peLdc n o d
  | 8 => peSync n t o d
  | 9 => peFlag n t o d
  | 10 => peXfer n t o d
  | _ => .illegal

/-! ### Acting (R268–R274) -/

/-- The word of an instruction (R268). -/
def peWord (ofs op side operands : Nat) : Nat := ofs * 65536 + op * 4096 + side * 1024 + operands

/-- R274: the PC after an instruction that takes no branch. -/
def Dev.peNextPc (d : Dev) (n : Nat) : Nat :=
  let pc := d.get (PE_STATUS_PC n)
  if pc = d.get (PE_CFG_WRAP_TOP n) then d.get (PE_CFG_WRAP_BOTTOM n) else (pc + 1) % 64

/-- The instruction has acted in the TCLK `t`: side action, next PC and next base. -/
def peDone (n w t pc : Nat) (base : Int) (d : Dev) : Dev :=
  let d := sideAct n t (bits w 10 2) d
  let d := (d.set (PE_STATUS_RUN n) 1).set (PE_STATUS_PC n) pc
  let p := d.peAt n
  let idle := if d.rshCnt n = 0 then 0 else p.idle
  peShow n (d.putPe n { p with base := base, actFrom := t + 1, stall := none, catchSeen := false, idle := idle })

/-- R271, R277: instruction `w` meets the TCLK `t`, its action time being `tk` in 2^-8 TCLK. -/
def peMeet (n w t : Nat) (tk : Int) (d : Dev) : Dev :=
  match peOp n t w d with
  | .go d => peDone n w t (d.peNextPc n) (tk + d.peDiv n) d
  | .jump pc d => peDone n w t pc (tk + d.peDiv n) d
  | .anchor a d => peDone n w t (d.peNextPc n) ((a : Int) * 256) d
  | .stalled =>
    let p := { d.peAt n with triedAt := t + 1 }
    if d.get (PE_STATUS_RUN n) = 2 then d.putPe n p
    else (d.set (PE_STATUS_RUN n) 2).putPe n { p with stall := some w, catchSeen := false }
  | .illegal => ((d.set (PE_STATUS_RUN n) 0).set (PE_STATUS_ILLEGAL n) 1).cause (PE_IRQ_STAT_ILLEGAL n)

/-- Engine `n`, running, meets instruction word `w` in its action TCLK, the present one; `pins` are the sampled levels. -/
def peIssue (n w pins : Nat) (d : Dev) : Dev :=
  let ofs := bits w 16 8
  let t := d.peTclk n ofs
  if pePresent d.mode n && d.get (PE_STATUS_RUN n) == 1 && decide (t = d.clock.now) then
    peMeet n w t (d.peTime n ofs) { d with sync := pins }
  else d

/-- R271: a stalled engine tests its instruction again in the present TCLK. -/
def peUnstall (n pins : Nat) (d : Dev) : Dev :=
  match (d.peAt n).stall with
  | some w =>
    let t := d.clock.now
    if pePresent d.mode n && d.get (PE_STATUS_RUN n) == 2 && peSlot d.mode t == t && decide ((d.peAt n).actFrom ≤ t) &&
        decide ((d.peAt n).triedAt ≠ t + 1) then
      peMeet n w t ((t : Int) * 256) { d with sync := pins }
    else d
  | none => d

/-- What engine `n` does in the current TCLK: the instruction of its store at its PC acts, or one that is stalled is tested again. -/
def peTick (n : Nat) (d : Dev) : Dev :=
  if d.get (PE_STATUS_RUN n) = 2 then peUnstall n d.sync d
  else if d.get (PE_STATUS_RUN n) = 1 then
    let w := d.get (PE_INSTR_WORD n (d.get (PE_STATUS_PC n)))
    if d.peTclk n (bits w 16 8) = d.clock.now then peIssue n w d.sync d else d
  else d

/-- R281: engine `n`'s own transfer of this TCLK comes before an access to its queues. -/
def peFirst (n : Nat) (d : Dev) : Dev := if d.clock.owed then peTick n d else d

/-! ### Start, stop, catch (R273, R283, R288, R289) -/

/-- R273: engine `n` starts in the TCLK `t`. -/
def peBegin (n t : Nat) (d : Dev) : Dev :=
  let p := d.peAt n
  let d := d.putPe n { p with base := (t : Int) * 256, actFrom := t, tsh := 0, rsh := 0, last := 0, stall := none, catchSeen := false,
                              idle := 0, took := false, restart := {} }
  let d := (((d.set (PE_STATUS_RUN n) 1).set (PE_STATUS_PC n) (d.get (PE_CFG_START_PC n))).set (PE_STATUS_RSH_COUNT n) 0).set (PE_STATUS_TSH_COUNT n) 0
  peShow n (((d.set (PE_X_X n) 0).set (PE_Y_Y n) 0).set (PE_STATUS_ILLEGAL n) 0)

/-- The engine stops; 0 = STOPPED, 3 = ABSENT. -/
def peStop (n run : Nat) (d : Dev) : Dev :=
  peShow n ((d.set (PE_STATUS_RUN n) run).putPe n { d.peAt n with stall := none, catchSeen := false, restart := {} })

def Dev.peLive (d : Dev) (n : Nat) : Bool := d.get (PE_STATUS_RUN n) == 1 || d.get (PE_STATUS_RUN n) == 2

/-- Keel has the engine's whole code in place (R307). -/
def Dev.peFree (d : Dev) (n : Nat) : Bool := !bit d.rig.blocked (8 + n)

/-- R273: the engine may start now. -/
def Dev.peCanStart (d : Dev) (n : Nat) : Bool :=
  pePresent d.mode n && d.on (PE_CTRL_ENABLE n) && d.peFree n && !d.peLive n

/-- R273: PE_START: an engine that may start does so in the present TCLK. -/
def peStart (n : Nat) (d : Dev) : Dev := if d.peCanStart n then peBegin n d.clock.now d else d

/-- R273: CTRL.RESTART. -/
def peRestart (n : Nat) (d : Dev) : Dev := d.putPe n { d.peAt n with restart := (d.peAt n).restart.ask d.inFinish }

def peCountClear (n : Nat) (d : Dev) : Dev :=
  ((((d.set (PE_COUNTS_A_UNDERRUN_CNT n) 0).set (PE_COUNTS_A_OVERRUN_CNT n) 0).set (PE_COUNTS_B_COLLIDE_CNT n) 0).set
    (PE_COUNTS_B_TXDROP_CNT n) 0).set (PE_COUNTS_C_FLUSH_CNT n) 0

/-- Engine `n` at a catch. `enWrite`: a commit has written ENABLE = 1; `cfgChg`: it has changed CFG, CLKDIV, PINS, PINS2 or
SHIFTCTL; `qChg`: QMODE among them; `modeChg`: the mode has changed; `copied`: Keel has copied its code (R307). -/
def peCatch (n : Nat) (enWrite cfgChg qChg modeChg copied : Bool) (d : Dev) : Dev :=
  let d := if d.peLive n then peIdle n d else d
  let p := d.peAt n
  let held := match p.stall with | some w => bits w 12 4 == 1 && bits w 6 3 == 4 | none => false
  let d := if held then d.putPe n { p with catchSeen := true } else d
  let p := d.peAt n
  let again := p.restart.soon
  let d := d.putPe n { p with restart := p.restart.age }
  let d := if qChg then
      (let fell := !(d.peAt n).tx.isEmpty
       let d := peShow n (d.putPe n { d.peAt n with tx := [], rx := [] })
       if fell then d.cause (PE_IRQ_STAT_TX_LOW n) else d)
    else d
  if !pePresent d.mode n then (if d.get (PE_STATUS_RUN n) = 3 then d else peStop n 3 d)
  else
    let d := if d.get (PE_STATUS_RUN n) = 3 then peStop n 0 d else d
    if !d.on (PE_CTRL_ENABLE n) then (if d.peLive n then peStop n 0 d else d)
    else if !d.peFree n then d
    else if d.peLive n then
      (if cfgChg || again then peBegin n d.clock.now d else if held then peUnstall n d.sync d else d)
    else if enWrite || again || modeChg || copied then peBegin n d.clock.now d
    else d

/-- R288: a time step moves the base and the anchors of a running engine. -/
def peShift (n : Nat) (step : Int) (d : Dev) : Dev :=
  if d.peLive n then
    let p := d.peAt n
    d.putPe n { p with base := p.base + step * 256, actFrom := ((p.actFrom : Int) + step).toNat, holdAt := ((p.holdAt : Int) + step).toNat }
  else d

/-- R285, R286: what is on its way to a ball keeps its distance from the present, as do the TCLK of the last writes. -/
def ballShift (step : Int) (x : PeBall) : PeBall :=
  let f (t : Nat) : Nat := ((t : Int) + step).toNat
  { x with lvAt := if x.lvAt = 0 then 0 else f x.lvAt, dirAt := if x.dirAt = 0 then 0 else f x.dirAt,
           line := x.line.map fun e => (f e.1, e.2) }

/-- R289: the start of a warm reset. -/
def peWarm (n : Nat) (d : Dev) : Dev :=
  let p := d.peAt n
  let d := d.putPe n { holdAt := p.holdAt, stamp := p.stamp, collAt := p.collAt, triedAt := p.triedAt }
  let d := if d.get (PE_STATUS_RUN n) = 3 then d else d.set (PE_STATUS_RUN n) 0
  let d := ((((d.set (PE_STATUS_RSH_COUNT n) 0).set (PE_STATUS_TSH_COUNT n) 0).set (PE_X_X n) 0).set (PE_Y_Y n) 0)
  let d := if n % 8 = 0 then d.set (PE_GFLAGS_FLAGS n) 0 else d
  peShow n d

end Sys2Proof.Machine
end

