-- ==== Sys2Proof/Machine/Txn.lean ====
section
/-!
DEFINITION. Sys2Proof/Machine/Txn.lean: staged writes and the transaction contexts TXN (R309–R315): allocation, staging,
commands, what is due at a catch, and the application of staged bits with the clamps of R580.
-/
namespace Sys2Proof.Machine

def Dev.ctxAt (d : Dev) (c : Nat) : Ctx := aget {} c d.txn.ctxs
def Dev.putCtx (d : Dev) (c : Nat) (x : Ctx) : Dev := { d with txn := { d.txn with ctxs := awrite {} c x d.txn.ctxs } }

/-- The context that master `m` is bound to. -/
def Dev.bound (d : Dev) (m : Master) : Option Nat :=
  match aget 0 m.num d.txn.bound with | 0 => none | c + 1 => some c

/-- Bind a master to a context, or unbind it. -/
def bindCtx (m : Nat) (c : Option Nat) (d : Dev) : Dev :=
  { d with txn := { d.txn with bound := awrite 0 m (match c with | some c => c + 1 | none => 0) d.txn.bound } }

/-- R309: the masters that can hold a context. -/
def Master.hasCtx : Master → Bool
  | .pcie => true | .spi => true | .i2c => true | .keel => true | .crew => true | .ce _ => true
  | .trust => false | .dma => false | .eth => false

/-- R309: the 16-bit handle of a context. -/
def Dev.handle (d : Dev) (c : Nat) : Nat := c + 8 * (d.ctxAt c).serial + 4096 * d.get (TXN_CTX_STATUS_GEN c)

/-- R309: BEGIN: the lowest-numbered FREE context becomes OPEN and bound to the master; the handle, or 0. -/
def txnAlloc (m : Master) (d : Dev) : Nat × Dev :=
  if !m.hasCtx then (0, d)
  else match d.bound m with
  | some c => (d.handle c, d)
  | none =>
    match (List.range 8).find? fun c => d.get (TXN_CTX_STATUS_STATE c) == 0 with
    | none => (0, d)
    | some c =>
      let s := d.txn.serial
      let d := { d with txn := { d.txn with serial := if s = 511 then 1 else s + 1 } }
      let d := d.putCtx c { serial := s, owner := m.num }
      let d := ((d.set (TXN_CTX_STATUS_STATE c) 1).set (TXN_CTX_STATUS_OWNER c) m.num).set (TXN_CTX_STATUS_WHEN c) 0
      let d := bindCtx m.num (some c) d
      (d.handle c, d)

/-- R309: a read of TXN.BEGIN. -/
def txnBegin (m : Master) (d : Dev) : Dev := let r := txnAlloc m d; r.2.ret m r.1

/-- R314: a context returns to FREE: its generation advances and its master is unbound. -/
def ctxFree (c : Nat) (d : Dev) : Dev :=
  let g := d.get (TXN_CTX_STATUS_GEN c)
  let o := (d.ctxAt c).owner
  let d := if aget 0 o d.txn.bound = c + 1 then bindCtx o none d else d
  let d := d.putCtx c {}
  let d := (((d.set (TXN_CTX_STATUS_STATE c) 0).set (TXN_CTX_STATUS_OVF c) 0).set (TXN_CTX_STATUS_DEPTH c) 0)
  ((d.set (TXN_CTX_STATUS_OWNER c) 0).set (TXN_CTX_STATUS_WHEN c) 0).set (TXN_CTX_STATUS_GEN c) ((g + 1) % 16)

/-- R310: one write enters a context, which holds 4,096. -/
def ctxStage (c : Nat) (w : Staged) (d : Dev) : Dev :=
  let x := d.ctxAt c
  if 4096 ≤ x.writes.length then d.set (TXN_CTX_STATUS_OVF c) 1
  else (d.putCtx c { x with writes := x.writes ++ [w] }).set (TXN_CTX_STATUS_DEPTH c) (x.writes.length + 1)

/-- R226, R310, R311: an RW/T write goes to the bound context, to the engine's stage, or waits for its catch. -/
def stageRwt (m : Master) (addr data mask : Nat) (d : Dev) : Dev :=
  let w : Staged := ⟨addr, data, mask, d.inFinish⟩
  match d.bound m, m with
  | some c, _ => ctxStage c w d
  | none, .ce n => stageWrite n w d
  | none, _ => { d with txn := { d.txn with unbound := d.txn.unbound ++ [w] } }

/-- The TAI time of AT_LO, AT_HI and AT_NS, in ns (R312). -/
def Dev.ctxTime (d : Dev) (c : Nat) : Nat :=
  (d.get (TXN_CTX_AT_LO_AT_LO c) + 2 ^ 32 * (d.get (TXN_CTX_AT_HI_AT_HI c) % 65536)) * 1000000000 + d.get (TXN_CTX_AT_NS_NS c)

/-- The stroke number of AT_LO and AT_HI. -/
def Dev.ctxStroke (d : Dev) (c : Nat) : Nat := d.get (TXN_CTX_AT_LO_AT_LO c) + 2 ^ 32 * d.get (TXN_CTX_AT_HI_AT_HI c)

/-- R313: the commit's catch lies before the one that R24 gives for the command. -/
def Dev.ctxPassed (d : Dev) (c op : Nat) : Bool :=
  let late := d.inFinish
  match op with
  | 2 => decide (d.ctxStroke c ≤ d.clock.strokeNo + b2n late)
  | 3 => decide (d.ctxTime c ≤ if late then d.clock.endAt else d.clock.openAt)
  | 5 =>
    let dAt := d.clock.endAt + (b2n late + d.get CREW_CFG_CC_PREP) * d.period
    decide (d.ctxTime c ≤ dAt + 2 * d.period)
  | _ => false

/-- R314: the catch before which a COMMITTED context applies is the one that ends this stroke. -/
def Dev.ctxNext (d : Dev) (c : Nat) : Bool :=
  let x := d.ctxAt c
  match x.op with
  | 1 => !x.late
  | 2 => decide (x.atA ≤ d.clock.strokeNo + 1)
  | 3 => decide (x.atA ≤ d.clock.endAt)
  | _ => decide (x.atA ≤ d.clock.endAt)

/-- R342: COMMIT_CREW is open to this context. -/
def Dev.crewOpen (d : Dev) (c : Nat) : Bool :=
  d.get CREW_STATUS_ROLE == 1 && d.get CREW_CC_STATUS_STATE == 1 &&
  (match d.crew.cc with | some x => x.ctx == some c | none => false)

/-- R313: the refusal that applies first, or 1 for an accepted command. -/
def Dev.txnResult (d : Dev) (m : Master) (handle op : Nat) : Nat :=
  let c := handle % 8
  let st := d.get (TXN_CTX_STATUS_STATE c)
  if op = 0 ∨ 5 < op then 7
  else if st = 0 ∨ d.handle c ≠ handle then 2
  else if (d.ctxAt c).owner ≠ m.num ∧ !(op == 4 && m == .pcie) then 3
  else if op ≠ 4 ∧ st ≠ 1 then 6
  else if op = 5 ∧ !d.crewOpen c then 6
  else if op ≠ 4 ∧ d.on (TXN_CTX_STATUS_OVF c) then 4
  else if op = 4 then (if st = 2 ∧ d.inFinish ∧ d.ctxNext c then 5 else 1)
  else if d.ctxPassed c op then 5 else 1

/-- R314: an accepted commit: COMMITTED, and the master is unbound. -/
def ctxCommit (c op : Nat) (d : Dev) : Dev :=
  let x := d.ctxAt c
  let at_ := match op with | 2 => d.ctxStroke c | 3 => d.ctxTime c | 5 => d.ctxTime c | _ => 0
  let d := bindCtx x.owner none d
  let ord := if d.txn.orderAt = d.clock.now + 1 then d.txn.order else d.txn.order + 1
  let d := d.putCtx c { x with order := ord, op := op, late := d.inFinish, atA := at_ }
  let d := { d with txn := { d.txn with order := ord, orderAt := d.clock.now + 1 } }
  (d.set (TXN_CTX_STATUS_STATE c) 2).set (TXN_CTX_STATUS_WHEN c) op

/-- R342: the lead prepares at catch p and decides at d. -/
def crewPrepare (c : Nat) (d : Dev) : Dev :=
  let p := 1 + b2n d.inFinish
  let d := d.set CREW_CC_STATUS_STATE 2
  match d.crew.cc with
  | some x =>
    { d with crew := { d.crew with
        cc := some { x with applyAt := d.ctxTime c, voted := true },
        lead := { d.crew.lead with toP := p, toD := p + d.get CREW_CFG_CC_PREP } } }
  | none => d

/-- R312–R314: a write of TXN.CMD. -/
def txnCmd (m : Master) (handle op : Nat) (d : Dev) : Dev :=
  let c := handle % 8
  let r := d.txnResult m handle op
  let d := { d with txn := { d.txn with last := awrite 0 m.num r d.txn.last } }
  if r = 1 then
    (if op = 4 then ctxFree c d else if op = 5 then ctxCommit c op (crewPrepare c d) else ctxCommit c op d)
  else if r = 2 then (d.inc TXN_COUNTS_STALE_CNT).cause TXN_IRQ_STAT_STALE
  else if op ≠ 4 ∧ (r = 4 ∨ r = 5) then d.cause TXN_IRQ_STAT_REFUSED
  else d

/-- A write of TXN.CMD with one of the commit operations of the opcode table. -/
def txnCommit (m : Master) (handle op : Nat) (d : Dev) : Dev := txnCmd m handle op d

/-- R312, R345: context `c` applies at the catch of device time `t` that opens stroke `stroke`. -/
def Dev.ctxDue (d : Dev) (t stroke c : Nat) : Bool :=
  let x := d.ctxAt c
  d.get (TXN_CTX_STATUS_STATE c) == 2 &&
  (match x.op with
   | 1 => !x.late
   | 2 => decide (x.atA ≤ stroke)
   | 3 => decide (x.atA ≤ t)
   | 5 => (match d.crew.cc with | some k => k.ctx == some c && k.go == some true && decide (k.applyAt ≤ t) | none => false)
   | _ => false)

/-- Insert a context behind those whose commits were accepted before its own or, with a lower index, in the same cycle. -/
def Dev.orderCtx (d : Dev) (c : Nat) : List Nat → List Nat
  | [] => [c]
  | x :: r => if (d.ctxAt x).order ≤ (d.ctxAt c).order then x :: d.orderCtx c r else c :: x :: r

/-- Contexts that apply, in the order in which their commits were accepted, those of one cycle by index (R291). -/
def Dev.ctxsDue (d : Dev) (t stroke : Nat) : List Nat :=
  ((List.range 8).filter fun c => d.ctxDue t stroke c).foldl (fun l c => d.orderCtx c l) []

/-- A COMMIT_NEXT accepted in a finish window waits one catch more (R24). -/
def ctxAge (c : Nat) (d : Dev) : Dev :=
  let x := d.ctxAt c
  if d.get (TXN_CTX_STATUS_STATE c) = 2 ∧ x.late then d.putCtx c { x with late := false } else d

/-- R315: at warm reset and at entry to MOORED every context that is not FREE is discarded and counted. -/
def ctxDiscard (c : Nat) (d : Dev) : Dev :=
  if d.get (TXN_CTX_STATUS_STATE c) = 0 then d else (ctxFree c d).inc TXN_COUNTS_WARM_LOSS_CNT

def txnDiscard (d : Dev) : Dev := forUpTo 8 ctxDiscard d

/-! ### Application of staged bits -/

/-- Fields that a stored value of another field governs, so that they are clamped again when it changes (R580). A synthesiser always
names a tracker in GUARD.TRK, so GUARD_POS is always clamped, also while GUARD.EN is 0 (log entry 98). -/
def Clamp.governed : Clamp → Bool
  | .any => false
  | .range _ _ => false
  | .srange _ _ _ => false
  | .step _ _ _ => false
  | .divisor _ _ _ => false
  | .over _ _ => false
  | .dcoSrc => false
  | .ploadAddr => false
  | .modeTarget => false
  | .strokePeriod => false
  | .activeSel => false
  | _ => true

/-- A field's value after the bits of `mask` of its register have taken those of `data`. -/
def Field.merge (f : Field) (old data mask : Nat) : Nat :=
  let m := bits mask f.lo f.w
  (old - (old &&& m)) + (bits data f.lo f.w &&& m)

/-- R491, R106: a field that the distrust policy or CREW_LOCK holds at the active image's value. -/
def Dev.lockedAddr (d : Dev) (addr : Nat) : Bool :=
  ((List.range 8).any fun n => bit d.rig.locks n && (addr == 0x2001c + 0x200 * n || addr == 0x20020 + 0x200 * n)) ||
  (d.on TRUST_POLICY_CREW_LOCK && (addr == 0x80008 || addr == 0x8000c || addr == 0x80010))

/-- R580: fields that are clamped when a catch has applied everything: the governed ones, and TB.DCO_CFG.SRC. -/
def Clamp.deferred (c : Clamp) : Bool := c.governed || decide (c = .dcoSrc)

/-- Store new bits in one field; a deferred one is clamped when the catch has applied everything. -/
def applyField (f : Field) (data mask : Nat) (d : Dev) : Dev :=
  if bits mask f.lo f.w = 0 then d
  else
    let v := f.merge (d.get f) data mask
    if f.clamp.deferred then d.set f v else d.setClamped f v

/-- Apply one staged write to the RW/T fields of its register. -/
def applyStaged (w : Staged) (d : Dev) : Dev :=
  if d.lockedAddr w.addr then d
  else (fieldsAt w.addr).foldl (fun d f => if f.acc = .rwt then applyField f w.data w.mask d else d) d

/-- Every field of a row that another field governs. -/
def RegRow.governed (r : RegRow) : List Field :=
  (List.range r.n1).flatMap fun i => (List.range r.n2).flatMap fun j => (r.fields i j).filter fun f => f.clamp.governed

/-- The blocks whose governed fields may need a clamp after changes at `addrs`: their own, and where TRK changes, the
phase positions of SYN and CH. -/
def touchedBlocks (addrs : List Nat) : List Nat :=
  let bs := (addrs.map fun a => a / 0x10000).eraseDups
  if bs.contains 2 then (bs ++ [4, 0x10]).eraseDups else bs

/-- R580: after every change of a catch has applied, the governed fields are clamped. -/
def reclampAfter (addrs : List Nat) (d : Dev) : Dev :=
  ((touchedBlocks addrs).flatMap fun b => (blockRows b).flatMap RegRow.governed).foldl (fun d f => d.reclamp f) d

end Sys2Proof.Machine
end

