-- ==== Sys2Proof/Machine/Rig.lean ====
section
/-!
DEFINITION. Sys2Proof/Machine/Rig.lean: rig images (R292–R300), loading (R301–R303), slots and swaps (R304–R308).
-/
namespace Sys2Proof.Machine

/-! ### Reading an image (R292–R300) -/

/-- A section as it lies in memory (R293). -/
structure Sect where
  type : Nat
  zero : Nat       -- its reserved bytes 2 and 3
  body : Nat       -- address of the body
  len : Nat

/-- The sections from `a`, none when one runs past `stop`; with them the address behind the last. -/
def readSects (m : Mem) (stop : Nat) : Nat → Nat → Option (List Sect × Nat)
  | 0, a => some ([], a)
  | n + 1, a =>
    if stop < a + 12 then none
    else
      let len := m.read (a + 4) 4
      if stop < a + 12 + len then none
      else match readSects m stop n (a + 12 + len) with
        | some (l, e) => some (⟨m.read a 2, m.read (a + 2) 2, a + 8, len⟩ :: l, e)
        | none => none

/-- R300: the signature entries from `a`, as (ALG, LEN), that fill the space up to `stop`; none otherwise. -/
def readSigs (m : Mem) (stop : Nat) : Nat → Nat → Option (List (Nat × Nat))
  | 0, a => if a = stop then some [] else none
  | n + 1, a =>
    if stop < a + 4 then none
    else
      let len := m.read (a + 2) 2
      let next := a + 4 + (len + 3) / 4 * 4
      if stop < next then none
      else match readSigs m stop n next with
        | some l => some ((m.read a 2, len) :: l)
        | none => none

/-- R293: the CRC of a section. -/
def Sect.crcOk (m : Mem) (s : Sect) : Bool := m.read (s.body + s.len) 4 == crc32c (m.bytes (s.body - 8) (8 + s.len))

/-- A record (R295): its head and the address of its payload. -/
structure RigRec where
  kind : Nat
  inst : Nat
  n : Nat
  addr : Nat
  pay : Nat

/-- Payload bytes of a record of a kind. -/
def recLen (kind n : Nat) : Nat := if kind = 3 then 8 * n else 4 * n

/-- The records that fill a body exactly; none when they do not. -/
def readRecs (m : Mem) (stop : Nat) : Nat → Nat → Option (List RigRec)
  | 0, a => if a = stop then some [] else none
  | fuel + 1, a =>
    if a = stop then some []
    else if stop < a + 8 then none
    else
      let kind := m.read a 1
      let n := m.read (a + 2) 2
      if kind = 0 ∨ 7 < kind ∨ stop < a + 8 + recLen kind n then none
      else match readRecs m stop fuel (a + 8 + recLen kind n) with
        | some l => some (⟨kind, m.read (a + 1) 1, n, m.read (a + 4) 4, a + 8⟩ :: l)
        | none => none

/-- Word `i` of a record's payload. -/
def RigRec.word (m : Mem) (r : RigRec) (i : Nat) : Nat := m.read (r.pay + 4 * i) 4

/-- The words of a record's payload. -/
def RigRec.words (m : Mem) (r : RigRec) : List Nat := (List.range r.n).map fun i => r.word m i

/-- R294: the record kinds of a section type. -/
def kindsOf (type : Nat) : List Nat :=
  match type with
  | 1 => [4, 5] | 2 => [1, 6] | 3 => [1] | 4 => [3] | 5 => [1] | 6 => [7] | 7 => [1] | 8 => [1] | 9 => [1] | 0xA => [1]
  | 0xB => [1] | 0xC => [1] | 0xE => [1, 2] | 0xF => [1] | 0x10 => [1]
  | _ => []

/-- R294, R295: an address that a WORDS record of a section may write. -/
def wordAllowed (type a : Nat) : Bool :=
  let inR (lo hi : Nat) : Bool := decide (lo ≤ a) && decide (a ≤ hi)
  if type = 5 then inR 0x800000 0x9FFFFF
  else !(fieldsAt a).isEmpty &&
  (match type with
   | 2 => inR 0x100000 0x10FFFF
   | 3 => inR 0x10000 0x2FFFF && !(List.range 8).any fun n => a == 0x20100 + 0x200 * n || a == 0x20104 + 0x200 * n || a == 0x20108 + 0x200 * n
   | 7 => inR 0x60000 0x6FFFF && a % 0x800 != 0x40 && a % 0x800 != 0x44 && a % 0x800 != 0x780
   | 8 => inR 0xB0000 0xBFFFF
   | 9 => inR 0x40000 0x40FFF
   | 0xA => inR 0x41000 0x41FFF
   | 0xB => inR 0x90000 0x9FFFF
   | 0xC => inR 0x80000 0x8FFFF
   | 0xE => inR 0x30000 0x3FFFF
   | 0xF => inR 0x130000 0x13FFFF
   | 0x10 => inR 0x140000 0x14FFFF
   | _ => false)

/-- R296: a BALL word is well formed for its ball. -/
def ballOk (b w : Nat) : Bool :=
  let drv := bits w 0 4
  let sel := bits w 4 8
  decide (b < 152) && decide (drv ≤ 5) && decide (bits w 12 2 ≤ 2) && decide (bits w 15 2 ≤ 2) && bits w 17 15 == 0 &&
  (match drv with
   | 3 => decide (128 ≤ b) && decide (b < 144) && decide (sel < 4)
   | 4 => decide (sel < 8)
   | 5 => decide (sel < 8)
   | _ => true)

/-- R297: consumers and source lines of the pin fabric. -/
def consumerOk (c : Nat) : Bool :=
  decide (c < 0x108) || (decide (0x120 ≤ c) && decide (c < 0x140)) || (decide (0x140 ≤ c) && decide (c < 0x160)) ||
  (decide (0x160 ≤ c) && decide (c < 0x180))
def sourceOk (s : Nat) : Bool :=
  decide (s < 152) || (decide (0x100 ≤ s) && decide (s < 0x210)) || (decide (0x300 ≤ s) && decide (s < 0x320))
def routeOk (w : Nat) : Bool :=
  let c := bits w 0 16
  let s := bits w 16 16
  consumerOk c && sourceOk s && !(decide (0x160 ≤ c) && s == c - 0x160 + 0x300)

/-- R295–R297: a record obeys its kind in its section. -/
def RigRec.ok (m : Mem) (type : Nat) (r : RigRec) : Bool :=
  (kindsOf type).contains r.kind &&
  (match r.kind with
   | 1 => r.inst == 0 && r.addr % 4 == 0 && (List.range r.n).all fun i => wordAllowed type (r.addr + 4 * i)
   | 2 => r.inst == 0 && r.addr % 4 == 0 && decide (0x80000000 ≤ r.addr) && decide (r.addr + 4 * r.n ≤ 2 ^ 32)
   | 3 => decide (r.inst < 8) && decide (r.addr + r.n ≤ 4096) && (List.range r.n).all fun i => decide (m.read (r.pay + 8 * i) 8 < 2 ^ 52)
   | 4 => r.inst == 0 && (List.range r.n).all fun i => ballOk (r.addr + i) (r.word m i)
   | 5 => r.inst == 0 && r.addr == 0 && (r.words m).all routeOk
   | 6 => r.inst == 0 && decide (r.addr + r.n ≤ 256) && (r.words m).all fun w => decide (w < 16)
   | _ => decide (r.inst < 8) && r.addr == 0 && r.n == 26 && bits (r.word m 25) 16 16 == 0)

/-- R298: the MODE body. -/
def modeBodyOk (m : Mem) (s : Sect) : Bool :=
  s.len == 8 && m.read (s.body + 1) 3 == 0 && decide (1 ≤ m.read s.body 1) && decide (m.read s.body 1 ≤ 4)

/-- R299: the POLICY body. -/
def policyBodyOk (m : Mem) (s : Sect) : Bool := s.len == 64 && m.read (s.body + 34) 30 == 0

/-- The records of a section with a record-form body. -/
def Sect.recs (m : Mem) (s : Sect) : Option (List RigRec) := readRecs m (s.body + s.len) (s.len / 8 + 1) s.body

/-- R293–R299: a section obeys its type. -/
def Sect.ok (m : Mem) (s : Sect) : Bool :=
  s.zero == 0 && s.len % 4 == 0 &&
  (if 0x8000 ≤ s.type then true
   else if s.type = 0xD then modeBodyOk m s
   else if s.type = 0x11 then policyBodyOk m s
   else !(kindsOf s.type).isEmpty && (match s.recs m with | some l => l.all fun r => r.ok m s.type | none => false))

/-- R294: types ascend. -/
def ascending : List Nat → Bool
  | a :: b :: r => decide (a < b) && ascending (b :: r)
  | _ => true

/-- What one record adds to the image. -/
def Image.addRec (m : Mem) (im : Image) (r : RigRec) : Image :=
  let idx := List.range r.n
  match r.kind with
  | 1 => { im with words := im.words ++ idx.map fun i => (r.addr + 4 * i, r.word m i) }
  | 2 => { im with dram := im.dram ++ idx.map fun i => (r.addr + 4 * i, r.word m i) }
  | 3 => { im with teeth := im.teeth ++ idx.map fun i => (r.inst, r.addr + i, m.read (r.pay + 8 * i) 8) }
  | 4 => { im with balls := im.balls ++ idx.map fun i => (r.addr + i, r.word m i) }
  | 5 => { im with routes := im.routes ++ idx.map fun i => (bits (r.word m i) 0 16, bits (r.word m i) 16 16) }
  | 6 => { im with chtrk := im.chtrk ++ idx.map fun i => (r.addr + i, r.word m i) }
  | _ => { im with cedefs := im.cedefs ++ [(r.inst, r.words m)] }

/-- What one section adds to the image; an optional section adds nothing. -/
def Image.addSect (m : Mem) (im : Image) (s : Sect) : Image :=
  if 0x8000 ≤ s.type then im
  else if s.type = 0xD then { im with mode := some (m.read s.body 1, m.read (s.body + 4) 4) }
  else if s.type = 0x11 then
    { im with cut := m.read s.body 32, bells := m.read (s.body + 32) 1, locks := m.read (s.body + 33) 1 }
  else ((s.recs m).getD []).foldl (Image.addRec m) im

/-- The bytes of a section that the slot region keeps: all but the DRAM records. -/
def Sect.kept (m : Mem) (s : Sect) : Nat :=
  let dram := if s.type = 0xE then ((s.recs m).getD []).foldl (fun n r => if r.kind = 2 then n + 8 + 4 * r.n else n) 0 else 0
  12 + s.len - dram

/-! ### Applying an image (R306) -/

/-- The register blocks that R294 lists. -/
def rigBlocks : List Nat := [1, 2, 3, 4, 6, 8, 9, 0xB, 0x10, 0x13, 0x14]

/-- A stored field is an RW/T field of a block that R294 lists. -/
def rigGoverns (key : Nat) : Bool :=
  rigBlocks.contains (key / 32 / 0x10000) && (fieldsAt (key / 32)).any fun f => f.key == key && decide (f.acc = .rwt)

/-- A word that Keel copies as engine code and no swap writes (R307): CE instruction memory or PE instruction store. -/
def isCode (a : Nat) : Bool :=
  (decide (0x800000 ≤ a) && decide (a ≤ 0x9FFFFF)) ||
  (decide (0x60000 ≤ a) && decide (a ≤ 0x6FFFF) && decide (0x100 ≤ a % 0x800) && decide (a % 0x800 < 0x200))

/-- Write an image's word: its RW/T and RW fields, clamped (R15, R306). -/
def imageWord (w : Nat × Nat) (d : Dev) : Dev :=
  (fieldsAt w.1).foldl (fun d f => if f.acc = .rwt ∨ f.acc = .rw then applyField f w.2 0xFFFFFFFF d else d) d

/-- The register part of R306: RW/T fields at the image's values or their Reset values, RW fields that the image writes. Deferred fields
are clamped when the catch, or the boot, has applied everything (R580). -/
def imageRegs (im : Image) (d : Dev) : Dev :=
  let d := { d with regs := d.regs.filter fun e => !rigGoverns e.1 }
  (im.words.filter fun w => !isCode w.1).foldl (fun d w => imageWord w d) d

/-- The CEDEF words of an engine. -/
def Image.cedef (im : Image) (n : Nat) : Option (List Nat) := (im.cedefs.find? fun c => c.1 == n).map fun c => c.2

/-- R295: condition selector `i` (1–15) of a CEDEF record. -/
def cedefSel (ws : List Nat) (i : Nat) : Nat := let w := ws.getD (18 + (i - 1) / 2) 0; if i % 2 = 1 then bits w 0 16 else bits w 16 16

/-- The fifteen selectors that the image gives engine `n`, 0x000F each when it gives none (R306). -/
def Image.selectors (im : Image) (n : Nat) : List Nat :=
  match im.cedef n with
  | some ws => (List.range 15).map fun i => cedefSel ws (i + 1)
  | none => List.replicate 15 15

/-- R306: CFG, VEC, the segments and the condition selectors of engine `n`. -/
def applyCedef (im : Image) (n : Nat) (d : Dev) : Dev :=
  let b := 0x50000 + 0x2000 * n
  let put (a w : Nat) (d : Dev) : Dev := (fieldsAt a).foldl (fun d f => if f.acc = .rwt then d.setClamped f (bits w f.lo f.w) else d) d
  let clr (a : Nat) (d : Dev) : Dev := (fieldsAt a).foldl (fun d f => if f.acc = .rwt then d.set f f.reset else d) d
  let d := match im.cedef n with
    | some ws => forUpTo 16 (fun k d => put (b + 0x40 + 4 * k) (ws.getD (2 + k) 0) d) (put (b + 8) (ws.getD 1 0) (put (b + 4) (ws.getD 0 0) d))
    | none => forUpTo 16 (fun k d => clr (b + 0x40 + 4 * k) d) (clr (b + 8) (clr (b + 4) d))
  let cs := im.selectors n
  forUpTo 15 (fun i d => let v := storeSel (cs.getD i 15); (setSpec n (17 + i) v d).set (CE_CSEL_SEL n (i + 1)) v) d

/-- The tooth table that the image loads into tracker `n`. -/
def Image.table (im : Image) (n : Nat) : Store := im.teeth.foldl (fun t e => if e.1 = n then awrite 0 e.2.1 e.2.2 t else t) []

/-- R306: the tooth tables take the image's values. -/
def applyTables (im : Image) (d : Dev) : Dev := forUpTo 8 (fun n d => d.putTrk n { d.trkAt n with table := im.table n }) d

/-- R306: pin map, routes, channel–tracker assignment and policies. A ball that comes to the pin engines takes its
initial level and direction 0. -/
def applyMap (im : Image) (d : Dev) : Dev :=
  let balls := im.balls.foldl (fun s e => awrite 65536 e.1 e.2 s) ([] : Store)
  let old := d.rig.balls
  let d := { d with rig := { d.rig with
    balls := balls
    routes := im.routes.foldl (fun s e => awrite 0 e.1 (e.2 + 1) s) []
    chTrk := im.chtrk.foldl (fun s e => awrite 0 e.1 (if bit e.2 3 then 0 else e.2 % 8 + 1) s) []
    cut := im.cut, bells := im.bells, locks := im.locks } }
  forUpTo 128 (fun b d =>
    let w := aget 65536 b balls
    if bits w 0 4 = 2 ∧ w ≠ aget 65536 b old then
      { d with peBall := awrite {} b { level := bit w 14, line := [(0, bit w 14, false)] } d.peBall }
    else d) d

/-- R580: every deferred field of the blocks that an image governs is clamped. -/
def clampImage (d : Dev) : Dev :=
  let d := (reclampAfter (rigBlocks.map fun b => b * 0x10000) d).reclamp TB_DCO_CFG_SRC
  forUpTo 256 (fun n d => d.reclampTrain n) d

/-- R306 without the slots: everything an image sets in a catch. -/
def applyImage (im : Image) (d : Dev) : Dev := applyMap im (applyTables im (forUpTo 8 (applyCedef im) (imageRegs im d)))

/-! ### Loading (R301–R304) -/

/-- R301, R520: the slot that a load targets. -/
def Dev.inactiveSlot (d : Dev) : Nat :=
  match d.activeSlot with | some s => 1 - s | none => 1 - d.get RIG_CTRL_ACTIVE_SEL

def slotState (s : Nat) : Field := if s = 0 then RIG_STATUS_STATE_A else RIG_STATUS_STATE_B
def slotBase (s : Nat) : Field := if s = 0 then RIG_SLOT_BASE_A_BASE else RIG_SLOT_BASE_B_BASE

def Dev.putImage (d : Dev) (s : Nat) (im : Option Image) : Dev :=
  if s = 0 then { d with rig := { d.rig with imgA := im } } else { d with rig := { d.rig with imgB := im } }

/-- Show what slot `s` holds. -/
def slotShow (s : Nat) (d : Dev) : Dev :=
  let im := (d.slotImage s).getD {}
  ((d.set (RIG_SLOT_SEQ_ARB_SEQ s) im.arbSeq).set (RIG_SLOT_IMGVER_IMG_VER s) im.imgVer).set (RIG_SLOT_LEVEL_CREW_LEVEL s) im.level

/-- R301: RIG.CTRL.LOAD. -/
def rigLoad (d : Dev) : Dev :=
  let s := d.inactiveSlot
  if d.get (slotState 0) = 1 ∨ d.get (slotState 1) = 1 then d
  else
    let d := slotShow s ((d.set (slotState s) 1).putImage s none)
    keelAsk .rigLoad 0 0 { d with rig := { d.rig with load := some (s, d.get RIG_LOAD_ADDR_ADDR, d.get RIG_LOAD_LEN_LEN) } }

/-- R473, R475: the life-cycle state allows the signers of the image, and SIG_ALG meets MIN_ALG. -/
def Dev.rigKeyOk (d : Dev) (slot alg : Nat) : Bool :=
  decide (alg ≤ 2) && decide (d.get TRUST_POLICY_MIN_ALG ≤ alg) &&
  (match d.lc with
   | 0 => true
   | 4 => true
   | 5 => false
   | _ => decide (slot < 4) && d.get (TRUST_KEYSLOT_STATE slot) == 1 &&
          (alg == 1 || bit (d.get (TRUST_KEYSLOT_ALGS slot)) 0) && (alg == 0 || bit (d.get (TRUST_KEYSLOT_ALGS slot)) 1))

/-- R300: the signature entries that SIG_ALG asks for. -/
def sigShape (alg : Nat) : List (Nat × Nat) :=
  match alg with | 0 => [(0, 96)] | 1 => [(1, 3309)] | _ => [(0, 96), (1, 3309)]

/-- R301: the checks in order; the code of the first failure, or the image. `sigOk`: every signature verifies over the
image's digest under its key. -/
def Dev.rigCheck (d : Dev) (s addr len : Nat) (sigOk : Bool) : Except Nat Image :=
  let m := d.mem
  let alg := m.read (addr + 11) 1
  if 0x80000000 + d.get MEM_DRAM_CAP_CAP_MIB * 0x100000 < d.get (slotBase s) + 0x400000 then .error 9
  else if m.read addr 4 ≠ 0x534B5247 ∨ m.read (addr + 6) 2 ≠ 256 ∨ m.read (addr + 252) 4 ≠ crc32c (m.bytes addr 252) then .error 1
  else if m.read (addr + 4) 2 ≠ 1 then .error 2
  else if m.read (addr + 8) 2 ≠ 0x2560 ∨ 0x21 < m.read (addr + 10) 1 then .error 3
  else if m.read (addr + 20) 4 ≠ len then .error 4
  else match readSects m (addr + len) (m.read (addr + 14) 2) (addr + 256) with
  | none => .error 4
  | some (secs, e) =>
  match readSigs m (addr + len) (if alg = 2 then 2 else 1) e with
  | none => .error 4
  | some sigs =>
  if !secs.all (Sect.crcOk m) then .error 5
  else
    let im := secs.foldl (Image.addSect m)
      { level := m.read (addr + 12) 2, arbSeq := m.read (addr + 16) 4, imgVer := m.read (addr + 24) 4, keySlot := m.read (addr + 28) 1,
        image := secs.foldl (fun n x => n + x.kept m) 0 }
    let trial := applyTables im (imageRegs im d)
    if secs.isEmpty ∨ 1024 < secs.length ∨ !ascending (secs.map fun x => x.type) ∨ !secs.all (Sect.ok m) ∨ 0x400000 < im.image ∨
       !((List.range 8).all fun n => (im.table n).isEmpty || trial.tableValid n) then .error 6
    else if !d.rigKeyOk im.keySlot alg ∨ sigs ≠ sigShape alg ∨ !sigOk then .error 7
    else if im.arbSeq < d.get TRUST_COUNTER_RIG_VALUE then .error 8
    else .ok im

/-- R301, R304: a load ends REJECTED with a code. -/
def rigReject (s code : Nat) (d : Dev) : Dev :=
  let d := { d with rig := { d.rig with load := none } }
  (((d.set (slotState s) 3).set RIG_STATUS_REJECT code).cause RIG_IRQ_STAT_REJECTED).journalFree 0x07 s

/-- R301: the slot is VERIFIED: DRAM records are written and the rest is kept. -/
def rigVerify (s : Nat) (im : Image) (d : Dev) : Dev :=
  let d := { d with rig := { d.rig with load := none }, mem := im.dram.foldl (fun (m : Mem) (e : Nat × Nat) => m.write e.1 e.2 4) d.mem }
  let d := slotShow s ((d.putImage s (some im)).set (slotState s) 2)
  (d.cause RIG_IRQ_STAT_LOADED).journalFree 0x07 s

/-- R301: the verdict on a load. -/
def rigVerdict (s : Nat) (r : Except Nat Image) (c : Nat) (d : Dev) : Dev :=
  match c, r with
  | 0, .ok im => rigVerify s im d
  | c, _ => rigReject s c d

/-- R303: RIG.CTRL.ACCEPT. -/
def rigAccept (d : Dev) : Dev :=
  match d.activeSlot with
  | none => d
  | some s =>
    let q := ((d.slotImage s).getD {}).arbSeq
    if d.get TRUST_COUNTER_RIG_VALUE < q then d.set TRUST_COUNTER_RIG_VALUE q else d

/-- R304: RIG.CTRL.CLEAR empties the inactive slot when it is VERIFIED or REJECTED. -/
def rigClear (d : Dev) : Dev :=
  let s := d.inactiveSlot
  if d.get (slotState s) = 2 ∨ d.get (slotState s) = 3 then slotShow s ((d.set (slotState s) 0).putImage s none) else d

/-- R304, R522: at a warm reset a LOADING slot becomes EMPTY. -/
def rigWarm (d : Dev) : Dev :=
  let d := forUpTo 2 (fun s d => if d.get (slotState s) = 1 then slotShow s ((d.set (slotState s) 0).putImage s none) else d) d
  keelDrop .rigLoad { d with rig := { d.rig with load := none } }

/-! ### Swapping (R305–R307) -/

/-- The code, segments and selectors that an image gives engine `i`: CE[i] below 8, PE[i − 8] from 8. -/
def Image.code (im : Image) (i : Nat) : List (Nat × Nat) × Option (List Nat) :=
  let lo := if i < 8 then 0x800000 + 0x40000 * i else 0x60000 + 0x800 * (i - 8)
  let sz := if i < 8 then 0x40000 else 0x800
  (im.words.filter fun w => decide (lo ≤ w.1) && decide (w.1 < lo + sz), if i < 8 then im.cedef i else none)

/-- R302, R305: the current crew level; an isolated device's is the highest that it supports. -/
def Dev.crewLevel (d : Dev) : Nat := if d.get CREW_STATUS_ROLE = 0 then d.get CREW_LEVEL_SPAN_MAX else d.get CREW_LEVEL_CUR

/-- R305: slot `s` may become ACTIVE. -/
def Dev.swapOk (d : Dev) (s : Nat) : Bool :=
  d.get (slotState s) == 2 && decide (((d.slotImage s).getD {}).level ≤ d.crewLevel)

/-- R307: engine `i` stops at the swap and waits for Keel's copy. -/
def swapStop (i : Nat) (d : Dev) : Dev :=
  let d := if i < 8 then
      (if d.get (CE_STATUS_RUN i) = 6 then d else let d := ceHalt i 0 d; d.putCe i { d.ceAt i with closed := [] })
    else (if d.get (PE_STATUS_RUN (i - 8)) = 3 then d else peStop (i - 8) 0 d)
  { d with rig := { d.rig with
      blocked := if bit d.rig.blocked i then d.rig.blocked else d.rig.blocked + 2 ^ i
      copyQ := d.rig.copyQ ++ [i] } }

/-- R307: Keel is asked for the copy of every engine that waits, a class 5 service each, in the order of the queue. -/
def copyAsk (d : Dev) : Dev := d.rig.copyQ.foldl (fun d i => keelAsk .codeCopy i 0 d) d

/-- R305–R307: slot `s` becomes ACTIVE. -/
def rigSwap (s : Nat) (d : Dev) : Dev :=
  let new := (d.slotImage s).getD {}
  let old := (match d.activeSlot with | some o => d.slotImage o | none => none).getD {}
  let d := match d.activeSlot with | some o => d.set (slotState o) 2 | none => d
  let d := ((d.set (slotState s) 4).set RIG_STATUS_ACTIVE s).set RIG_CTRL_ACTIVE_SEL s
  let d := (d.cause RIG_IRQ_STAT_SWAP).journalFree 0x07 s
  let d := { d with log := { d.log with active := s } }
  let differ := (List.range 40).filter fun i => bit d.rig.blocked i || decide (old.code i ≠ new.code i)
  let d := keelDrop .codeCopy { d with rig := { d.rig with copyQ := [], copied := d.rig.copied.filter fun i => !differ.contains i } }
  applyImage new (copyAsk (differ.foldl (fun d i => swapStop i d) d))

/-- R305: what the catch does with the value that ACTIVE_SEL is left at: a swap, a refusal, or nothing. -/
def rigSelect (v : Nat) (d : Dev) : Dev :=
  match d.activeSlot with
  | some s =>
    if v = s then d
    else if d.swapOk v then rigSwap v d
    else (d.cause RIG_STATUS_SWAP_REFUSED).cause RIG_IRQ_STAT_SWAP_REFUSED
  | none => if d.swapOk v then rigSwap v d else d

/-- R307: write engine `i`'s code of the active image. Keel writes it through fabric port 0 (log entry 99). -/
def copyCode (i : Nat) (d : Dev) : Dev :=
  match d.activeSlot with
  | none => d
  | some s =>
    let ws := (((d.slotImage s).getD {}).code i).1
    let d := ws.foldl (fun d w =>
      if 0x800000 ≤ w.1 then { d with mem := d.mem.write w.1 w.2 4 } else if isCode w.1 then imageWord w d else d) d
    match ws with
    | [] => d
    | w :: _ => fabCarry .keel w.1 (4 * ws.length) d

/-- R307: Keel's copy at the head of its queue completes; the engine may start from the next catch. -/
def codeCopy (d : Dev) : Dev :=
  match d.rig.copyQ with
  | [] => d
  | i :: r =>
    let d := copyCode i d
    let b := d.rig.blocked
    { d with rig := { d.rig with copyQ := r, copied := d.rig.copied ++ [i], blocked := if bit b i then b - 2 ^ i else b } }

end Sys2Proof.Machine
end

