-- ==== Sys2Proof/Machine/Irq.lean ====
section
/-!
DEFINITION. Sys2Proof/Machine/Irq.lean: the interrupt controller (R395–R409, R584): lines, pending bits, candidates, claims,
doorbells and MSI-X messages (R402, R454).
-/
namespace Sys2Proof.Machine

/-! ### Lines -/

/-- A register's stored word. -/
def Dev.regWord (d : Dev) (addr : Nat) : Nat := (fieldsAt addr).foldl (fun v f => v + d.get f * 2 ^ f.lo) 0

/-- The causes of the register at `stat` that the mask at `en` selects are not all 0. -/
def Dev.raised (d : Dev) (stat en : Nat) : Bool := (d.regWord stat &&& d.regWord en) != 0

/-- The sources whose lines a nonzero field at register address `a` may raise, each with whether it does (R395 and the
source lines of the chapters). -/
def Dev.srcsOf (d : Dev) (a : Nat) : List (Nat × Bool) :=
  let blk := a / 0x10000
  match blk with
  | 0x10 =>
    let n := (a - 0x100000) / 0x100
    if a % 0x100 = 0x44 then [(n, chPresent d.mode n && d.raised a (a - 4)), (369, d.on (CH_IRQ_STAT_STARVE n))] else []
  | 6 =>
    let n := (a - 0x60000) / 0x800
    if a % 0x800 = 0x54 then [(256 + n, pePresent d.mode n && d.raised a (a - 4))] else []
  | 5 =>
    let n := (a - 0x50000) / 0x2000
    if a % 0x2000 = 0x24 then [(288 + n, cePresent d.mode n && d.raised a (a - 4))] else []
  | 2 =>
    if a < 0x22000 then (if a % 0x200 = 0xc4 then [(296 + (a - 0x20000) / 0x200, d.raised a (a - 4))] else [])
    else if (a - 0x22000) % 0x80 = 0x28 then [(304 + (a - 0x22000) / 0x80, d.raised a (a - 4))] else []
  | 4 =>
    if a < 0x41000 then
      (if a % 0x100 = 0x44 then let n := (a - 0x40000) / 0x100; [(336 + n, synPresent d.mode n && d.raised a (a - 4))] else [])
    else if a = 0x41008 then [(372, d.raised a 0x41004)] else []
  | 9 => if a % 0x4000 = 0x84 then [(340 + (a - 0x90000) / 0x4000, d.raised a (a - 4))] else []
  | 8 =>
    if a = 0x80094 then [(344, d.raised a 0x80090)]
    else if 0x8004c ≤ a ∧ a ≤ 0x8007c ∧ (a - 0x8004c) % 0x10 = 0 then
      let k := (a - 0x8004c) / 0x10
      [(344 + k, (d.get (CREW_PORT_IRQ_LINK k) + 2 * d.get (CREW_PORT_IRQ_AUTH k) &&& d.get (CREW_PORT_IRQ_EN k)) != 0)]
    else []
  | 0xc => if 0xc0100 ≤ a ∧ (a - 0xc0100) % 0x40 = 0x28 then [(348 + (a - 0xc0100) / 0x40, d.raised a (a - 4))] else []
  | 0xd => if a % 0x40 = 0x24 then [(364 + (a - 0xd0000) / 0x40, d.raised a (a - 4))] else []
  | 3 => if a = 0x30034 then [(368, d.raised a 0x30030)] else []
  | 1 =>
    if a = 0x10094 then
      [(370, d.on TB_IRQ_STAT_STATE && bit (d.get TB_IRQ_EN_EN) 0), (371, d.on TB_IRQ_STAT_BUDGET && bit (d.get TB_IRQ_EN_EN) 1)]
    else []
  | 0x15 => if a = 0x150024 then [(373, d.raised a 0x150020)] else []
  | 0x13 => if a = 0x130010 then [(373, d.raised a 0x13000c)] else []
  | 0x14 => if a = 0x14001c then [(374, d.raised a 0x140018)] else []
  | 0x11 => if a = 0x110088 then [(375, d.raised a 0x110084)] else if a = 0x110070 then [(376, d.get TRUST_TAMP_STAT_LATCH != 0)] else []
  | 0xe => if a = 0xe0040 then [(377, d.raised a 0xe003c)] else []
  | 0x12 => if a = 0x120024 then [(378, d.raised a 0x120020)] else []
  | 7 => if a = 0x70044 then [(379, d.raised a 0x70040)] else if a = 0x71014 then [(380, d.raised a 0x71010)] else []
  | _ => []

/-- R503: the sources that run in MOORED. -/
def mooredSrc (n : Nat) : Bool := n == 296 || n == 370 || n == 371 || n == 373 || n == 376

/-- Insert into a rising list without repeats. -/
def insertNat (n : Nat) : List Nat → List Nat
  | [] => [n]
  | x :: r => if n < x then n :: x :: r else if n = x then x :: r else x :: insertNat n r

/-- The sources whose lines are 1 now, rising. A cause register that holds a cause is listed, its reset value being 0. -/
def Dev.linesNow (d : Dev) : List Nat :=
  d.regs.foldl (fun l e =>
    if e.2 = 0 then l
    else (d.srcsOf (e.1 / 32)).foldl (fun l s => if s.2 && (d.mode != 0 || mooredSrc s.1) then insertNat s.1 l else l) l) []

/-! ### Pending bits (R396) -/

/-- Set or clear the pending bit of source `n`, one of the 1,024 (R395). One that becomes pending in this TCLK is a candidate from the
next one on (R398). -/
def setPend (n : Nat) (v : Bool) (d : Dev) : Dev :=
  if 1024 ≤ n then d
  else if v then
    let was := d.pend n
    let d := d.causeBit (IRQ_PEND_PEND (n / 32)) (n % 32)
    if was then d else { d with cyc := { d.cyc with newPend := n :: d.cyc.newPend } }
  else d.clrBit (IRQ_PEND_PEND (n / 32)) (n % 32)

/-- Source `n` has become pending in this TCLK. -/
def Dev.raisedNow (d : Dev) (n : Nat) : Bool := bit (aget 0 (IRQ_PEND_PEND (n / 32)).key d.cyc.set_) (n % 32)

/-- R396: a claim or a clearing write takes the pending bit of EDGE source `n`; a rising edge of the same TCLK leaves it pending. -/
def takePend (n : Nat) (d : Dev) : Dev :=
  if d.raisedNow n then { d with cyc := { d.cyc with newPend := n :: d.cyc.newPend } }
  else setPend n false d

/-- Sources that exist (R395). -/
def srcExists (n : Nat) : Bool := decide (n ≤ 380) || (decide (960 ≤ n) && decide (n ≤ 1022))

/-- EDGE sensing; doorbells are always EDGE. -/
def Dev.edgeSense (d : Dev) (n : Nat) : Bool := decide (960 ≤ n) || d.on (IRQ_SRC_CFG_SENSE n)

/-- R396: a line change reaches the pending bit: LEVEL follows the line, EDGE keeps a rise. -/
def lineEffect (n : Nat) (up : Bool) (d : Dev) : Dev :=
  if d.edgeSense n then (if up then setPend n true d else d) else setPend n up d

/-! ### Candidates (R397, R402, R403, R454) -/

/-- T0 signals by MSI-X messages; while its EN is 0 it does not signal (R402, R409; log entry 102). -/
def Dev.msiOn (d : Dev) : Bool := d.on (IRQ_T_CTRL_MSIX 0) && d.on (IRQ_T_CTRL_EN 0)

/-- R402: the message of the vector of source `c` leaves 40 TCLK after the candidate appears. -/
def msiSchedule (c : Nat) (d : Dev) : Dev :=
  { d with irq := { d.irq with msi := d.irq.msi ++ [(d.clock.now + 40, d.get (IRQ_SRC_CFG_VEC c))] } }

/-- T[t].STATUS shows the candidate `c`, the stack and the wake request (R403). -/
def irqStatus (t c : Nat) (d : Dev) : Dev :=
  (((d.set (IRQ_T_STATUS_CAND t) c).set (IRQ_T_STATUS_DEPTH t) (d.irqStack t).length).set (IRQ_T_STATUS_RUNPRI t) (d.runPri t)).setB
    (IRQ_T_STATUS_WAKE t) (c != 1023)

/-- R454: a PBA bit clears when T0's new candidate `c` is not routed to its vector. -/
def pbaFollow (c : Nat) (d : Dev) : Dev :=
  let p := d.get HOST_MSIX_PBA_PEND
  if p = 0 then d else d.set HOST_MSIX_PBA_PEND (if c = 1023 then 0 else p &&& 2 ^ d.get (IRQ_SRC_CFG_VEC c))

/-- Target `t` shows its candidate; a new candidate of T0 under MSIX sends its message (R402). -/
def irqShow (t : Nat) (d : Dev) : Dev :=
  let old := d.get (IRQ_T_STATUS_CAND t)
  let c := d.candidate t
  let d := irqStatus t c d
  if t = 0 then
    let d := pbaFollow c d
    if d.msiOn ∧ c ≠ old ∧ c ≠ 1023 then msiSchedule c d else d
  else d

/-- Every target's candidate. -/
def irqAll (d : Dev) : Dev := forUpTo 11 irqShow d

/-- R402: the interrupt balls: IRQ_N0 and IRQ_N1 are driven low. -/
def Dev.irqN (d : Dev) (t : Nat) : Bool :=
  d.get (IRQ_T_STATUS_CAND t) != 1023 && d.on (IRQ_T_CTRL_EN t) && !(t == 0 && d.on (IRQ_T_CTRL_MSIX 0))

/-! ### Sensing and delivery (R396, R405, R406, R584) -/

/-- Sense every line: each change reaches its pending bit 4 TCLK later. -/
def irqSense (d : Dev) : Dev :=
  let new := d.linesNow
  let old := d.irq.lines
  let t := d.clock.now + 4
  let ups := (new.filter fun n => !old.contains n).map fun n => LineChg.mk t n true
  let dns := (old.filter fun n => !new.contains n).map fun n => LineChg.mk t n false
  { d with irq := { d.irq with lines := new, chg := d.irq.chg ++ ups ++ dns } }

/-- R406: one ring reaches its source. -/
def ringEffect (r : Ring) (d : Dev) : Dev :=
  let i := min r.idx 62
  let d := if d.pend (960 + i) then d.inc IRQ_DB_COUNTS_OVR_CNT else d
  setPend (960 + i) true ((d.set (IRQ_DB_DATA_DATUM i) r.datum).set (IRQ_DB_DATA_RINGER i) r.ringer)

/-- Every line change and ring that is due at device time `t`. -/
def irqDeliver (t : Nat) (d : Dev) : Dev :=
  let cs := d.irq.chg.filter fun c => decide (c.at_ ≤ t)
  let rs := d.irq.rings.filter fun r => decide (r.at_ ≤ t)
  if cs.isEmpty && rs.isEmpty then d
  else
    let d := { d with irq := { d.irq with chg := d.irq.chg.filter fun c => !decide (c.at_ ≤ t), rings := d.irq.rings.filter fun r => !decide (r.at_ ≤ t) } }
    irqAll (rs.foldl (fun d r => ringEffect r d) (cs.foldl (fun d c => lineEffect c.src c.up d) d))

/-- The order in which rings of one cycle are taken (R406): Keel, trust core, crew link, engines, host. -/
def ringRank (ringer : Nat) : Nat := match ringer with | 3 => 0 | 4 => 1 | 5 => 2 | r => if 8 ≤ r then r - 5 else 20 + r

def insertRing (r : Ring) : List Ring → List Ring
  | [] => [r]
  | x :: rest =>
    if x.at_ < r.at_ ∨ (x.at_ = r.at_ ∧ ringRank x.ringer ≤ ringRank r.ringer) then x :: insertRing r rest else r :: x :: rest

/-- R405: a ring; its source becomes pending 5 TCLK after it arrives. -/
def ring (ringer idx datum : Nat) (d : Dev) : Dev :=
  { d with irq := { d.irq with rings := insertRing ⟨d.clock.now + 5, min idx 62, datum % 65536, ringer⟩ d.irq.rings } }

/-- R405: a write to IRQ.DB_RING by a master; an engine needs permission. -/
def dbRing (m : Master) (idx datum : Nat) (d : Dev) : Dev :=
  match m with
  | .pcie => ring 0 idx datum d
  | .spi => ring 1 idx datum d
  | .i2c => ring 2 idx datum d
  | .keel => ring 3 idx datum d
  | .ce n => if bit d.rig.bells n then ring (8 + n) idx datum d else d.inc IRQ_DB_COUNTS_DENIED_CNT
  | _ => d

/-! ### Claims (R399–R401) -/

/-- R399, R400: target `t` claims: the source, or 1,023, with its priority. -/
def irqClaim (t : Nat) (d : Dev) : (Nat × Nat) × Dev :=
  let c := d.candidate t
  if c = 1023 then ((1023, 0), (irqShow t d).inc (IRQ_T_COUNTS_SPURIOUS_CNT t))
  else
    let p := d.srcPrio c
    let d1 := d.putStack t (p :: d.irqStack t)
    let d1 := if d.edgeSense c then takePend c d1 else d1
    ((c, d.get (IRQ_SRC_CFG_PRIO c)), irqShow t d1)

/-- R399: a read of IRQ.T[t].ACK. -/
def irqAck (m : Master) (t : Nat) (d : Dev) : Dev :=
  if 2 ≤ t then d.ret m 1023
  else let r := irqClaim t d; r.2.ret m (r.1.1 + 1024 * r.1.2)

/-- R401, R402: a write to IRQ.T[t].EOI. -/
def irqEoi (t : Nat) (d : Dev) : Dev :=
  match d.irqStack t with
  | [] => d.inc (IRQ_T_COUNTS_EOI_EMPTY_CNT t)
  | _ :: s =>
    let old := d.get (IRQ_T_STATUS_CAND t)
    let d := irqShow t (d.putStack t s)
    let c := d.get (IRQ_T_STATUS_CAND t)
    if t = 0 ∧ d.msiOn ∧ c ≠ 1023 ∧ c = old then msiSchedule c d else d

/-- R396: a write of 1s to IRQ.PEND[i] clears EDGE sources. -/
def pendClear (i v : Nat) (d : Dev) : Dev :=
  irqAll (forUpTo 32 (fun j d => if bit v j && d.edgeSense (32 * i + j) && srcExists (32 * i + j) then takePend (32 * i + j) d else d) d)

/-- R396: a change of SENSE applied at a catch; both ways the pending bit takes the value of the line. -/
def senseChange (n : Nat) (d : Dev) : Dev := setPend n (d.linesNow.contains n) d

/-! ### MSI-X (R402, R453, R454) -/

/-- Vector `v` may be sent. -/
def Dev.msixOpen (d : Dev) (v : Nat) : Bool :=
  d.on HOST_PCIE_STAT_BME && !d.on HOST_PCIE_STAT_FUNC_MASK && !d.on (HOST_MSIX_VCTRL_MASK v)

/-- The message of vector `v` leaves, or its PBA bit is set. -/
def msixSend (v : Nat) (d : Dev) : Dev :=
  if !d.on HOST_PCIE_STAT_MSIX_EN then d
  else if d.msixOpen v then
    { d.clrBit HOST_MSIX_PBA_PEND v with irq := { d.irq with
        msiOut := [(d.get (HOST_MSIX_ADDR_LO_ADDR_LO v) + 2 ^ 32 * d.get (HOST_MSIX_ADDR_HI_ADDR_HI v), d.get (HOST_MSIX_DATA_DATA v))] } }
  else d.setBit HOST_MSIX_PBA_PEND v

/-- MSIX_MESSAGE: the next message leaves. -/
def msixMessage (d : Dev) : Dev :=
  match d.irq.msi with
  | [] => d
  | (_, v) :: r => msixSend v { d with irq := { d.irq with msi := r } }

/-- Messages due by device time `t`. -/
def msixDue (t : Nat) (d : Dev) : Dev :=
  let l := d.irq.msi.filter fun x => decide (x.1 ≤ t)
  if l.isEmpty then d
  else l.foldl (fun d x => msixSend x.2 d) { d with irq := { d.irq with msi := d.irq.msi.filter fun x => !decide (x.1 ≤ t) } }

/-- R454: vectors whose PBA bit is set and that may now be sent. -/
def msixFlush (d : Dev) : Dev :=
  if d.get HOST_MSIX_PBA_PEND = 0 then d
  else forUpTo 32 (fun v d => if bit (d.get HOST_MSIX_PBA_PEND) v && d.msixOpen v then msixSend v d else d) d

/-- VCTRL_WRITE: the mask bit of vector `v`. -/
def vctrlWrite (v : Nat) (mask : Bool) (d : Dev) : Dev := msixFlush (d.setB (HOST_MSIX_VCTRL_MASK v) mask)

/-! ### Wake and warm reset (R404, R408) -/

/-- R404: the lowest source that raises the device wake request. -/
def Dev.irqWake (d : Dev) : Option Nat := d.pendList.find? fun n => d.on (IRQ_SRC_CFG_WAKE n)

/-- R408: at a warm reset stacks, EDGE pending bits and DB_DATA clear; LEVEL sources follow their lines. -/
def irqWarm (d : Dev) : Dev :=
  let lines := d.linesNow
  let d := { d with irq := { d.irq with prios := [], chg := [], rings := [], lines := lines } }
  let d := d.pendList.foldl (fun d n => if d.edgeSense n then setPend n false d else setPend n (lines.contains n) d) d
  let d := lines.foldl (fun d n => if d.edgeSense n then d else setPend n true d) d
  irqAll (forUpTo 63 (fun i d => (d.set (IRQ_DB_DATA_DATUM i) 0).set (IRQ_DB_DATA_RINGER i) 0) d)

end Sys2Proof.Machine
end

