-- ==== Sys2Proof/Machine/Keel.lean ====
section
/-!
DEFINITION. Sys2Proof/Machine/Keel.lean: Keel's microwords (R377, R378, R381), patches (R384–R392), micro-traps and restart (R376,
R379, R380, R383), what it does in a TCLK, and its own reports (R393, R394). Its service classes stand in Service.lean.
-/
namespace Sys2Proof.Machine

/-- R394: Keel reports an event on its doorbell. -/
def keelRing (datum : Nat) (d : Dev) : Dev := if d.on KEEL_CFG_DB_EN then ring 3 (d.get KEEL_CFG_DB_IDX) datum d else d

/-- KEEL.LOAD: a TAI second has ended. Keel's busy share of it is a free value of at most 1,000 per mille (log entry 71). -/
def keelSecond (d : Dev) : Dev :=
  let v := Config.keelLoad d.fresh % 1001
  ((d.set KEEL_LOAD_LOAD_PM v).set KEEL_LOAD_PEAK_PM (max v (d.get KEEL_LOAD_PEAK_PM))).tick1

/-! ### Patch packages (R385–R388) -/

/-- Consecutive numbers of `size` bytes each. -/
def Mem.nums (m : Mem) (a size : Nat) (n : Nat) : List Nat := (List.range n).map fun i => m.read (a + size * i) size

/-- R386: address of the body's CRC. -/
def patchCrcAt (m : Mem) (a : Nat) : Nat := a + 64 + 4 * m.read (a + 28) 1 + 4 * m.read (a + 24) 2 + 20 * m.read (a + 26) 2

/-- R386: the signature entries that the package must hold. -/
def patchSigs (alg endorse : Nat) : List (Nat × Nat) :=
  sigShape alg ++ (if endorse = 1 then (sigShape alg).map fun e => (0x100 + e.1, e.2) else [])

/-- R387, check 6. -/
def patchForm (m : Mem) (a : Nat) : Bool :=
  let nMicro := m.read (a + 24) 2
  let nNano := m.read (a + 26) 2
  let nMatch := m.read (a + 28) 1
  decide (nMicro ≤ 4096) && decide (nNano ≤ 256) && decide (nMatch ≤ 64) &&
  decide (1 ≤ m.read (a + 20) 2) && decide (m.read (a + 20) 2 ≤ m.read (a + 22) 2) &&
  decide (m.read (a + 29) 1 ≤ 1) && decide (m.read (a + 30) 1 ≤ 3) && m.read (a + 31) 29 == 0 &&
  (m.nums (a + 64) 4 nMatch).all (fun w => decide (bits w 16 12 < nMicro) && bits w 28 4 == 8) &&
  (m.nums (a + 64 + 4 * nMatch) 4 nMicro).all (fun w => decide (bits w 0 12 < 2048 + nNano) && bits w 24 8 == 0) &&
  (m.nums (a + 64 + 4 * nMatch + 4 * nMicro) 20 nNano).all fun w => decide (w < 2 ^ 144)

/-- R387: the life-cycle table, with the endorsement that TRUST.POLICY asks for in OWNED and FIELD (R475). -/
def Dev.patchKeys (d : Dev) (m : Mem) (a : Nat) (vendorOk endorseOk : Bool) : Bool :=
  let alg := m.read (a + 11) 1
  let slot := m.read (a + 30) 1
  let need := (d.lc == 1 || d.lc == 2) && d.on TRUST_POLICY_ENDORSE
  decide (d.lc ≤ 4) && !(d.lc == 2 && d.mode == 0) && decide (alg ≤ 2) && vendorOk &&
  (!need || (m.read (a + 29) 1 == 1 && endorseOk && decide (d.get TRUST_POLICY_MIN_ALG ≤ alg) &&
    d.get (TRUST_KEYSLOT_STATE slot) == 1 &&
    (alg == 1 || bit (d.get (TRUST_KEYSLOT_ALGS slot)) 0) && (alg == 0 || bit (d.get (TRUST_KEYSLOT_ALGS slot)) 1)))

/-- R387: the checks in order. -/
def Dev.patchCheck (d : Dev) (a len : Nat) (vendorOk endorseOk : Bool) : Except Nat Patch :=
  let m := d.mem
  let alg := m.read (a + 11) 1
  let crcAt := patchCrcAt m a
  let shape := patchSigs alg (m.read (a + 29) 1)
  let entries := (if alg = 2 then 2 else 1) * (if m.read (a + 29) 1 = 1 then 2 else 1)
  let nMatch := m.read (a + 28) 1
  let nMicro := m.read (a + 24) 2
  if m.read a 4 ≠ 0x534B5054 ∨ m.read (a + 6) 2 ≠ 64 ∨ m.read (a + 60) 4 ≠ crc32c (m.bytes a 60) then .error 1
  else if m.read (a + 4) 2 ≠ 1 then .error 2
  else if m.read (a + 8) 2 ≠ 0x2560 ∨ m.read (a + 10) 1 ≠ d.get KEEL_VER_ROM_ROM_VER then .error 3
  else match readSigs m (a + len) entries (crcAt + 4) with
  | none => .error 4
  | some sigs =>
    if m.read crcAt 4 ≠ crc32c (m.bytes (a + 64) (crcAt - (a + 64))) then .error 5
    else if !patchForm m a then .error 6
    else if sigs ≠ shape ∨ !d.patchKeys m a vendorOk endorseOk then .error 7
    else if m.read (a + 12) 4 < d.get TRUST_COUNTER_PATCH_VALUE then .error 8
    else .ok
      { seq := m.read (a + 12) 4, ver := m.read (a + 16) 4, lvlMin := m.read (a + 20) 2, lvlMax := m.read (a + 22) 2,
        hits := m.nums (a + 64) 4 nMatch, micro := m.nums (a + 64 + 4 * nMatch) 4 nMicro,
        nano := m.nums (a + 64 + 4 * nMatch + 4 * nMicro) 20 (m.read (a + 26) 2) }

/-- R387, R388: PCTRL.LOAD. Keel reads the package through fabric port 0 (log entry 99). -/
def patchLoad (d : Dev) : Dev :=
  if d.get KEEL_STATUS_STAGE = 1 then d
  else
    let a := d.get KEEL_PLOAD_ADDR_ADDR
    let n := d.get KEEL_PLOAD_LEN_LEN
    fabCarry .keel a n (keelAsk .patchLoad 0 0 { d.set KEEL_STATUS_STAGE 1 with keel := { d.keel with staged := none, load := some (a, n) } })

/-- R388: the staged package is rejected with a code. -/
def patchReject (c : Nat) (d : Dev) : Dev := keelRing 3 ((d.set KEEL_STATUS_STAGE 3).set KEEL_STATUS_REJECT c)

/-- R388: PCTRL.CLEAR. -/
def patchClear (d : Dev) : Dev :=
  if d.get KEEL_STATUS_STAGE = 2 ∨ d.get KEEL_STATUS_STAGE = 3 then
    { d.set KEEL_STATUS_STAGE 0 with keel := { d.keel with staged := none } }
  else d

/-! ### Installation (R389–R392) -/

/-- One match register. -/
def setMatch (i w : Nat) (d : Dev) : Dev :=
  ((d.set (KEEL_MATCH_ROM_ADDR i) (bits w 0 16)).set (KEEL_MATCH_TARGET i) (bits w 16 12)).set (KEEL_MATCH_EN i) (bits w 31 1)

/-- Store a list at rising indexes of the patch RAM. -/
def putRam (s : Store) (k : Nat) : List Nat → Store
  | [] => s
  | w :: r => putRam (awrite 0 k w s) (k + 1) r

/-- R389–R391: a patch replaces the one installed; a package without match registers removes it. -/
def patchInstall (p : Patch) (d : Dev) : Dev :=
  let on := !p.hits.isEmpty
  let d := forUpTo 64 (fun i d => setMatch i (p.hits.getD i 0) d) d
  let d := { d with keel := { d.keel with pram := putRam (putRam [] 0 p.micro) 4096 p.nano } }
  let d := (d.setB KEEL_STATUS_INSTALLED on).set KEEL_STATUS_MATCH_EN p.hits.length
  let d := (d.set KEEL_VER_PATCH_PATCH_VER (if on then p.ver else 0)).set KEEL_PATCH_SEQ_ARB_SEQ (if on then p.seq else 0)
  let d := (d.set CREW_LEVEL_SPAN_MIN (if on then p.lvlMin else 1)).set CREW_LEVEL_SPAN_MAX (if on then p.lvlMax else 1)
  keelRing 4 (d.journalFree 0x08 0)

/-- R389: Keel begins to install, with no service in progress: every match register is disabled, the stage is EMPTY (R388), and the requests
that arrive in the 8,000 TCLK of the installation wait. -/
def keelInstall (d : Dev) : Dev :=
  match d.keel.staged with
  | none => { d with keel := { d.keel with install := false } }
  | some p =>
    let d := (forUpTo 64 (fun i d => d.set (KEEL_MATCH_EN i) 0) d).set KEEL_STATUS_MATCH_EN 0
    { d.set KEEL_STATUS_STAGE 0 with
      keel := { d.keel with install := false, staged := none, installing := some p, wordEnd := d.clock.now + 8000 } }

/-- R389: the installation ends. -/
def keelInstalled (d : Dev) : Dev :=
  match d.keel.installing with
  | none => d
  | some p => patchInstall p { d with keel := { d.keel with installing := none } }

/-- R387, R389: PCTRL.INSTALL has its effect in BOATHOUSE, in the life-cycle states that allow it, at the end of the current service. -/
def patchInstallCmd (d : Dev) : Dev :=
  if d.mode = 5 ∧ (d.lc = 2 ∨ d.lc = 3) ∧ d.keel.staged.isSome then
    if d.keel.cur.isNone ∧ d.keel.installing.isNone then keelInstall d else { d with keel := { d.keel with install := true } }
  else d

/-- R390: PCTRL.ACCEPT. -/
def patchAccept (d : Dev) : Dev :=
  let q := d.get KEEL_PATCH_SEQ_ARB_SEQ
  if d.on KEEL_STATUS_INSTALLED ∧ d.get TRUST_COUNTER_PATCH_VALUE < q then d.set TRUST_COUNTER_PATCH_VALUE q else d

/-- R384: a write of PRAM_ADDR loads PRAM_DATA. -/
def pramAddrWrite (v : Nat) (d : Dev) : Dev :=
  let i := min (v % 8192) 4351
  let w := aget 0 i d.keel.pram
  let d := d.set KEEL_PRAM_ADDR_INDEX i
  forUpTo 5 (fun j d => d.set (KEEL_PRAM_DATA_DATA j) (bits w (32 * j) 32)) d

/-- R393: LOAD.CLEAR and STATUS.STACK_CLR. -/
def peakClear (d : Dev) : Dev := d.set KEEL_LOAD_PEAK_PM 0
def stackClr (d : Dev) : Dev := d.set KEEL_STATUS_STACK_MAX 0

/-! ### Watchdog and restart (R376, R379, R380, R383) -/

/-- R375: the request in service is discarded, with no partial effect. A load that had discarded its slot's or stage's previous
content leaves it EMPTY (log entry 21). -/
def svcDiscard (s : KeelSvc) (d : Dev) : Dev :=
  match s with
  | .rigLoad => rigWarm d
  | .patchLoad => if d.get KEEL_STATUS_STAGE = 1 then { d.set KEEL_STATUS_STAGE 0 with keel := { d.keel with load := none } } else d
  | .codeCopy => { d with rig := { d.rig with copyQ := d.rig.copyQ.tail } }
  | .trust => if d.on TRUST_STATUS_BUSY then
      ({ d with trust := { d.trust with cmd := none } }.set TRUST_STATUS_BUSY 0).set TRUST_RESULT_CODE 10 else d
  | .carrierChange => { d with tb := { d.tb with carrierReq := if d.tb.carrierDone then d.tb.carrierReq else none } }
  | .timeSet => { d with tb := { d.tb with tset := if d.tb.tsetDone then d.tb.tset else none } }
  | .filterUpdate => { d with tb := { d.tb with upd := none } }
  | .modelSave => d
  | .other _ => d

/-- The service in progress ends, or is discarded: an installation that waits takes place, else the next service goes on. -/
def keelEnd (d : Dev) : Dev :=
  let d := { d with keel := { d.keel with cur := none } }
  if d.keel.install then keelInstall d else keelSched d

/-- The service in progress is `s` and ends with the effect `f`, which comes with its last microcycle (R375). -/
def keelDone (s : KeelSvc) (f : Dev → Dev) (d : Dev) : Dev :=
  if d.keelIn s then
    let d := f d
    if d.keelIn s then keelEnd d else d
  else d

/-- The request of service `s` is discarded. -/
def keelAbort (s : KeelSvc) (d : Dev) : Dev :=
  let d := svcDiscard s d
  if d.keelIn s then keelEnd d else d

def uartShow (d : Dev) : Dev := (d.set HOST_UART_STAT_TX_LEVEL d.host.uartTx.length).set HOST_UART_STAT_RX_LEVEL d.host.uartRx.length

/-- R466: under KEEL_LOG Keel writes a message, a whole line, as far as the transmit FIFO has room (log entry 67). -/
def keelSays (d : Dev) : Dev :=
  if d.on HOST_UART_CFG_KEEL_LOG then
    (uartShow { d with host := { d.host with
      uartTx := d.host.uartTx ++ ((Config.keelLine d.fresh).take (16 - d.host.uartTx.length)).map (· % 256) } }).tick1
  else d

/-- R380: a Keel restart: the micro-stack is emptied and every request in progress is discarded; those in the queue are kept. -/
def keelRestart (s : KeelSvc) (d : Dev) : Dev :=
  let inProgress := s :: ((d.keel.cur.toList ++ d.keel.frames).map fun r => r.svc)
  let d := inProgress.foldl (fun d x => svcDiscard x d) d
  let d := { d with keel := { d.keel with cur := none, frames := [], wordEnd := d.clock.now + 200 } }
  let d := keelSays d
  keelRing 1 ((d.inc KEEL_COUNTS_RESTART_CNT).cause KEEL_STATUS_RESTARTED |>.journalFree 0x09 0)

/-- R379: an error micro-trap of code `code` at micro-PC `upc` in service `s` is counted and noted, and uses one frame of the micro-stack
beside the `frames` in use. -/
def trapNote (code : Nat) (s : KeelSvc) (upc frames : Nat) (d : Dev) : Dev :=
  let d := d.inc KEEL_COUNTS_TRAP_CNT
  let d := ((d.set KEEL_FAULT_UPC upc).set KEEL_FAULT_CAUSE code).set KEEL_FAULT_CLASS (svcClass s)
  d.set KEEL_STATUS_STACK_MAX (max (d.get KEEL_STATUS_STACK_MAX) (min 8 (frames + 1)))

/-- R379, R380: an error micro-trap with the outcome `f`, or a restart when all 8 frames are in use; `used` of them, those of error-trap
handlers among them. -/
def trapTo (f : Dev → Dev) (code : Nat) (s : KeelSvc) (upc used : Nat) (d : Dev) : Dev :=
  let frames := max used d.keel.frames.length
  let d := trapNote code s upc frames d
  if 8 ≤ frames then keelRestart s d else f d

/-- R379: an error micro-trap whose request is discarded. -/
def microTrap (code : Nat) (s : KeelSvc) (upc used : Nat) (d : Dev) : Dev := trapTo (keelAbort s) code s upc used d

/-- R376, R394: WATCHDOG. -/
def watchdog (s : KeelSvc) (upc frames : Nat) (d : Dev) : Dev := keelRing 5 (microTrap 5 s upc frames d)

/-- R383: PATCH_PARITY in service `s`: match register `i`, which steered the fetch, is disabled, and the ROM microword is executed in its
place. -/
def patchParity (s : KeelSvc) (i : Nat) (d : Dev) : Dev :=
  if d.on (KEEL_MATCH_EN i) then
    trapTo (fun d => ((d.set (KEEL_MATCH_EN i) 0).set KEEL_STATUS_MATCH_EN (d.get KEEL_STATUS_MATCH_EN - 1)).cause KEEL_STATUS_PATCH_ERR)
      4 s (d.get (KEEL_MATCH_ROM_ADDR i)) 0 d
  else d

/-- The micro-PC of a trap that no microword of the model takes: a free value. -/
def Dev.trapPc (d : Dev) : Nat := d.keelPc 69632

/-- R379: Keel has read `need` of the bytes at `a` for service `s` before its verdict, the code `c` of a failed check, 0 for none. An access to
an unmapped address is a FABRIC_ERR and discards the request; `ecc`, the address of an uncorrectable DRAM error, is a DRAM_ECC and fails the
load with its CRC check: 1 in the first `head` bytes, else 5. Then `f` gets the verdict. -/
def keelRead (s : KeelSvc) (a need head c : Nat) (ecc : Option Nat) (f : Nat → Dev → Dev) (d : Dev) : Dev :=
  let mapped (x : Nat) : Bool := d.dramMapped x || (bankOf x).isSome
  if !(mapped a && mapped (a + need - 1)) then trapTo (svcDiscard s) 1 s d.trapPc 0 d
  else match ecc with
  | some x =>
    if a ≤ x ∧ x < a + need ∧ 0x80000000 ≤ x ∧ (c = 0 ∨ 5 ≤ c ∨ x < a + head) then
      trapTo (f (if x < a + head then 1 else 5)) 2 s d.trapPc 0 (readErr 2 x d)
    else f c d
  | none => f c d

/-- The code of a failed check, 0 for none. -/
def failCode {α : Type} (r : Except Nat α) : Nat := match r with | .ok _ => 0 | .error c => c

/-- R301: the load of an image of `len` bytes at `a` into slot `s` ends with the verdict `r`, once Keel has read what this takes. -/
def rigLoadRead (s a len : Nat) (r : Except Nat Image) (ecc : Option Nat) (d : Dev) : Dev :=
  let c := failCode r
  if c = 9 then rigReject s 9 d
  else
    let head := c = 1 ∨ c = 2 ∨ c = 3 ∨ (c = 4 ∧ d.mem.read (a + 20) 4 ≠ len)
    keelRead .rigLoad a (if head then 256 else len) 256 c ecc (rigVerdict s r) d

/-- R301: the load in service completes; `ecc`: an uncorrectable DRAM error met in it. -/
def rigLoadComplete (sigOk : Bool) (ecc : Option Nat) (d : Dev) : Dev :=
  match d.rig.load with
  | none => d
  | some (s, a, len) => rigLoadRead s a len (d.rigCheck s a len sigOk) ecc d

/-- R388: the verdict on a package. -/
def patchVerdict (r : Except Nat Patch) (c : Nat) (d : Dev) : Dev :=
  let d := { d with keel := { d.keel with load := none } }
  match c, r with
  | 0, .ok p => keelRing 2 { d.set KEEL_STATUS_STAGE 2 with keel := { d.keel with staged := some p } }
  | c, _ => patchReject c d

/-- R388: the verification of the package of `len` bytes at `a` ends with the verdict `r`, once Keel has read what this takes. -/
def patchRead (a len : Nat) (r : Except Nat Patch) (ecc : Option Nat) (d : Dev) : Dev :=
  let c := failCode r
  keelRead .patchLoad a (if c = 0 ∨ 5 ≤ c then len else 64) 64 c ecc (patchVerdict r) d

/-- R388: the verification ends; `ecc`: an uncorrectable DRAM error met in it. -/
def patchVerifyDone (vendorOk endorseOk : Bool) (ecc : Option Nat) (d : Dev) : Dev :=
  match d.keel.load with
  | none => d
  | some (a, len) => patchRead a len (d.patchCheck a len vendorOk endorseOk) ecc d

/-! ### Microwords (R377, R378, R381–R383) -/

/-- R381: the match register that steers a fetch from `upc`: the lowest-numbered enabled one that holds it. -/
def Dev.keelMatch (d : Dev) (upc : Nat) : Option Nat :=
  (List.range 64).find? fun i => d.on (KEEL_MATCH_EN i) && d.get (KEEL_MATCH_ROM_ADDR i) == upc

/-- R377, R381: the microword fetched at `upc`. Fetches from patch RAM are never compared. -/
def Dev.keelFetch (d : Dev) (upc : Nat) : Nat :=
  if 65536 ≤ upc then aget 0 (upc - 65536) d.keel.pram
  else match d.keelMatch upc with
    | some i => aget 0 (d.get (KEEL_MATCH_TARGET i)) d.keel.pram
    | none => Config.romWord upc % 2 ^ 24

/-- R377: TCLK that CLEN stands for. -/
def clenTclk (w : Nat) : Nat := match bits w 12 3 with | 6 => 8 | 7 => 12 | k => k + 1

/-- R378, R382: the microword at `upc` names an undefined nano address; a ROM microword never does. -/
def Dev.keelIllegal (d : Dev) (upc : Nat) : Bool :=
  (decide (65536 ≤ upc) || (d.keelMatch upc).isSome) && decide (2304 ≤ bits (d.keelFetch upc) 0 12)

/-- R378: the service in progress executes its next microword, or takes the ILLEGAL micro-trap. -/
def keelWord (r : KeelReq) (d : Dev) : Dev :=
  if d.keelIllegal r.upc then microTrap 6 r.svc r.upc d.keel.frames.length d
  else
    let len := clenTclk (d.keelFetch r.upc)
    let len := if svcAuto r.svc then min len r.left else len
    { d with keel := { d.keel with cur := some { r with upc := d.keelPc r.upc, left := r.left - len }, wordEnd := d.clock.now + len } }

/-- The end of a filter update. Whether the multiply-accumulate unit overflows in it is a free value (log entry 10); then the update is
discarded with the FFO unchanged (R379). -/
def filterDone (d : Dev) : Dev :=
  if Config.macOverflow d.fresh then trapTo (svcDiscard .filterUpdate) 3 .filterUpdate d.trapPc 0 d.tick1 else filterUpdate d

/-- R375: the effect of a service that ends by itself. -/
def svcEffect (s : KeelSvc) (d : Dev) : Dev :=
  match s with
  | .filterUpdate => filterDone d
  | .carrierChange => carrierServiceDone d
  | .timeSet => timeSetDone d
  | .modelSave => modelSave d
  | _ => d

/-- A service that ends by itself and whose cost is used up commits its results. -/
def keelCommit (s : KeelSvc) (d : Dev) : Dev := if d.keelReady s then keelDone s (svcEffect s) d else d

/-- Keel in a TCLK, between microwords: the next request, or the next microword of the service in progress, or its end (R373, R375,
R378). -/
def keelTick (d : Dev) : Dev :=
  if d.clock.now < d.keel.wordEnd then d
  else
    let d := keelSched (keelInstalled d)
    match d.keel.cur with
    | none => d
    | some r =>
      if d.clock.now < d.keel.wordEnd then d
      else if svcAuto r.svc && r.left == 0 then keelCommit r.svc d
      else keelWord r d

/-- R388, R389, R522: Keel at the start of a warm reset: a verification is dropped and a staged patch, or one being installed, is
installed. -/
def keelWarm (d : Dev) : Dev :=
  let old := d.keel.installing
  let d := if d.get KEEL_STATUS_STAGE = 1 then { d.set KEEL_STATUS_STAGE 0 with keel := { d.keel with load := none } } else d
  let d := { d with keel := { d.keel with cur := none, frames := [], queue := [], wordEnd := d.clock.now, install := false, installing := none } }
  match d.keel.staged.or old with
  | some p =>
    let d := { d with keel := { d.keel with staged := none } }
    (patchInstall p (d.set KEEL_STATUS_STAGE 0)).set SYS_RST_STATUS_INSTALLED 1
  | none => d.set SYS_RST_STATUS_INSTALLED 0

end Sys2Proof.Machine
end

