-- ==== Sys2Proof/Machine/Host.lean ====
section
/-!
DEFINITION. Sys2Proof/Machine/Host.lean: the host interfaces but for their register and memory accesses (R448–R467).
-/
namespace Sys2Proof.Machine

/-- R450: index of an interface in HOST.ACC_ERR. -/
def Master.hostIdx : Master → Option Nat
  | .pcie => some 0
  | .spi => some 1
  | .i2c => some 2
  | _ => none

/-- R14: an access of a wrong size or alignment. -/
def badSize (m : Master) (d : Dev) : Dev := match m.hostIdx with | some i => d.inc (HOST_ACC_ERR_BADSIZE_CNT i) | none => d

/-- R34, R36: an access to an address that is reserved, unmapped or closed. -/
def unmapped (m : Master) (d : Dev) : Dev := match m.hostIdx with | some i => d.inc (HOST_ACC_ERR_UNMAPPED_CNT i) | none => d

/-! ### PCIe -/

/-- R451: what the configuration space of the one function identifies: device ID, revision ID and class code. The number of the vendor
identifier is not given. -/
def Dev.pcieIdent (d : Dev) : Nat × Nat × Nat := (0x2560, bits (d.regWord 0) 8 8, 0x118000)

/-- R451: the device address that `off` in BAR0 reaches, and in BAR2/3. -/
def barAddr (bar0 : Bool) (off : Nat) : Option Nat :=
  if bar0 then (if off < 0x2000000 then some off else none) else if off < 0x80000000 then some (0x80000000 + off) else none

/-- A tag that no completion answers. -/
def noTag : Nat := 2 ^ 32

/-- Requests of PCIe whose completions are discarded (R455). -/
def dropTag (a : Access) : Access := if a.master = .pcie ∧ !a.write then { a with tag := noTag } else a

/-- R455: the link goes down and configuration space is reset; an OPEN context of PCIe is rolled back. -/
def pcieReset (d : Dev) : Dev :=
  let d := ((d.set HOST_PCIE_STAT_LINK_UP 0).set HOST_PCIE_STAT_SPEED 0).set HOST_PCIE_STAT_WIDTH 0
  let d := ((d.set HOST_PCIE_STAT_BME 0).set HOST_PCIE_STAT_MSIX_EN 0).set HOST_PCIE_STAT_FUNC_MASK 0
  let d := match d.bound .pcie with
    | some c => if d.get (TXN_CTX_STATUS_STATE c) = 1 then ctxFree c d else d
    | none => d
  let wait := d.fab.wait.filter fun r => r.acc.master != Master.pcie
  let d := Dev.mapReqs { d with fab := { d.fab with wait := wait } } dropTag
  { d with host := { d.host with cpl := [], l1 := false } }

/-- PERST_N low (R455). -/
def perstLow (d : Dev) : Dev := { pcieReset d with pwr := { (pcieReset d).pwr with perstLow := true } }

/-- A Function Level Reset also clears the MSI-X table (R455). -/
def funcReset (d : Dev) : Dev :=
  forUpTo 32 (fun v d => (((d.set (HOST_MSIX_ADDR_LO_ADDR_LO v) 0).set (HOST_MSIX_ADDR_HI_ADDR_HI v) 0).set (HOST_MSIX_DATA_DATA v) 0).set (HOST_MSIX_VCTRL_MASK v) 1)
    ((pcieReset d).set HOST_MSIX_PBA_PEND 0)

/-- PCIE_LINK_STATE_CHANGE: training completes at a generation and width, the link goes down, or it enters or leaves L1. -/
def pcieLink (up : Bool) (speed width : Nat) (l1 : Bool) (d : Dev) : Dev :=
  if !up then
    { (((d.set HOST_PCIE_STAT_LINK_UP 0).set HOST_PCIE_STAT_SPEED 0).set HOST_PCIE_STAT_WIDTH 0) with host := { d.host with l1 := false } }
  else if d.pwr.perstLow ∨ d.mode = 0 then d
  else
    let was := d.on HOST_PCIE_STAT_LINK_UP
    let d := if was then d
      else ((d.set HOST_PCIE_STAT_LINK_UP 1).set HOST_PCIE_STAT_SPEED (min speed (d.get HOST_PCIE_CFG_MAX_SPEED))).set HOST_PCIE_STAT_WIDTH width
    { d with host := { d.host with l1 := l1 && d.on HOST_PCIE_CFG_L1_EN } }

/-- PCIE_CONFIG_WRITE (R454). -/
def pcieConfig (bme msixEn mask : Bool) (d : Dev) : Dev :=
  msixFlush (((d.setB HOST_PCIE_STAT_BME bme).setB HOST_PCIE_STAT_MSIX_EN msixEn).setB HOST_PCIE_STAT_FUNC_MASK mask)

/-- PCIE_COMPLETION: the oldest completion leaves the pins while the link is up. -/
def pcieCompletion (d : Dev) : Dev :=
  match d.host.cpl with
  | [] => d
  | c :: r => { d with host := { d.host with cpl := r, pcieOut := if d.on HOST_PCIE_STAT_LINK_UP then some c else d.host.pcieOut } }

/-! ### SPI -/

/-- SPI_CS_RISE (R436, R458). -/
def spiCsRise (d : Dev) : Dev :=
  let d := if d.host.spiPartial then d.inc HOST_SPI_STAT_PARTIAL_CNT else d
  { d with host := { d.host with spiPartial := false } }.set MEM_BUSY_SPI 0

/-- BNKBSY_N is driven low (R436, R460). -/
def Dev.bnkbsyN (d : Dev) : Bool := d.on MEM_BUSY_SPI

/-! ### I2C -/

/-- The four bytes of a word, most significant first (R461). -/
def beBytes (v : Nat) : List Nat := (leBytes v 4).reverse

/-- R462: the PEC of a write, and of a read. -/
def Dev.pecWrite (d : Dev) (addr data : Nat) : Nat :=
  crcRun 3 0 ([2 * d.get HOST_I2C_CFG_ADDR, 0x02] ++ beBytes addr ++ beBytes data)
def Dev.pecRead (d : Dev) (addr data : Nat) : Nat :=
  crcRun 3 0 ([2 * d.get HOST_I2C_CFG_ADDR, 0x0B] ++ beBytes addr ++ [2 * d.get HOST_I2C_CFG_ADDR + 1] ++ beBytes data)

/-! ### QSPI -/

/-- R465: a discard while the controller is busy. -/
def qspiDiscard (d : Dev) : Dev := d.inc HOST_QSPI_STAT_DISCARD_CNT

/-- R465: GO. -/
def qspiGo (d : Dev) : Dev := if d.on HOST_QSPI_STAT_BUSY then qspiDiscard d else d.set HOST_QSPI_STAT_BUSY 1

/-- QSPI_DONE: the command finishes; a read puts the flash's bytes into the buffer from byte 0 (R465). -/
def qspiDone (bytes : List Nat) (d : Dev) : Dev :=
  if !d.on HOST_QSPI_STAT_BUSY then d
  else
    let n := if d.on HOST_QSPI_CMD_DIR then 0 else d.get HOST_QSPI_CMD_LEN
    let d := (List.range n).foldl (fun d i =>
      let f := HOST_QSPI_BUF_DATA (i / 4)
      let old := d.get f
      let sh := 2 ^ (8 * (i % 4))
      d.set f (old - bits old (8 * (i % 4)) 8 * sh + (bytes.getD i 0 % 256) * sh)) d
    d.set HOST_QSPI_STAT_BUSY 0

/-! ### UART -/

/-- R466: a write of UART_DATA. -/
def uartWrite (b : Nat) (d : Dev) : Dev :=
  if 16 ≤ d.host.uartTx.length then d.inc HOST_UART_STAT_TX_DROP_CNT
  else uartShow { d with host := { d.host with uartTx := d.host.uartTx ++ [b % 256] } }

/-- R466: a read of UART_DATA pops the receive head: the byte with VALID. -/
def uartRead (d : Dev) : Nat × Dev :=
  match d.host.uartRx with
  | [] => (0, d)
  | b :: r => (b + 256, uartShow { d with host := { d.host with uartRx := r } })

/-- UART_RX_BYTE (R466). -/
def uartRxByte (b : Nat) (d : Dev) : Dev :=
  if 16 ≤ d.host.uartRx.length then d.inc HOST_UART_STAT_RX_OVR_CNT
  else uartShow { d with host := { d.host with uartRx := d.host.uartRx ++ [b % 256] } }

/-- UART_BYTE_SENT: the head of the transmit FIFO has been shifted out. -/
def uartSent (d : Dev) : Dev := uartShow { d with host := { d.host with uartTx := d.host.uartTx.tail } }

/-! ### Requests of PCIe (R452) -/

/-- PCIE_POSTED_WRITE: the requests of a posted write of `bytes` at device address `a` (R452). -/
def pcieWrite (a : Nat) (bytes : List Nat) (d : Dev) : Dev :=
  if !d.on HOST_PCIE_STAT_LINK_UP ∨ !d.tclkRuns then d
  else if a < 0x1000000 ∧ (bytes.length ≠ 4 ∨ a % 4 ≠ 0) then fabPut ⟨.pcie, true, a, leNum' bytes, bytes.length % 65, 0, 0⟩ d
  else (pieces 10 a (min bytes.length 256)).foldl (fun d p =>
    fabPut ⟨.pcie, true, p.1, leNum' ((bytes.drop (p.1 - a)).take p.2), p.2, 0, 0⟩ d) d
where
  leNum' : List Nat → Nat
    | [] => 0
    | b :: r => b % 256 + 256 * leNum' r

/-- PCIE_READ_REQUEST: the requests of a read of `n` bytes (R452). -/
def pcieRead (a n tag : Nat) (d : Dev) : Dev :=
  if !d.on HOST_PCIE_STAT_LINK_UP ∨ !d.tclkRuns then d
  else if a < 0x1000000 ∧ (n ≠ 4 ∨ a % 4 ≠ 0) then fabPut ⟨.pcie, false, a, 0, n % 65, tag, 0⟩ d
  else (pieces 10 a (min n 512)).foldl (fun d p => fabPut ⟨.pcie, false, p.1, 0, p.2, tag, 0⟩ d) d

end Sys2Proof.Machine
end

