-- ==== Sys2Proof/Machine/Crew.lean ====
section
/-!
DEFINITION. Sys2Proof/Machine/Crew.lean: the crew link (R317–R348): ports and keys, TIMING and the crew reference, election,
roll calls, levels, stroke data, crew transactions and doorbells. Remote accesses stand in Access.lean and Fabric.lean.
-/
namespace Sys2Proof.Machine

def Dev.cport (d : Dev) (k : Nat) : CrewPort := aget {} k d.crew.ports
def Dev.putCport (d : Dev) (k : Nat) (p : CrewPort) : Dev := { d with crew := { d.crew with ports := awrite {} k p d.crew.ports } }
def Dev.pstate (d : Dev) (k : Nat) : Nat := d.get (CREW_PORT_STAT_STATE k)
def crewCause (i : Nat) (d : Dev) : Dev := d.causeBit CREW_IRQ_STAT_CAUSE i

/-- R317: the ports that a mode has. -/
def crewPresent (mode k : Nat) : Bool := (mode == 1 && k == 0) || ((mode == 2 || mode == 3) && decide (k < 4))

/-- R317, R348: port `k` may train. -/
def Dev.portUsable (d : Dev) (k : Nat) : Bool := crewPresent d.mode k && d.on CREW_CTRL_ENABLE && d.on (CREW_PORT_CFG_EN k)

def Dev.isLead (d : Dev) : Bool := d.get CREW_STATUS_ROLE == 1
/-- Port `k` is the upstream port (R318). -/
def Dev.isUp (d : Dev) (k : Nat) : Bool := d.crew.up == some k
/-- Device `i` is in the roster. -/
def Dev.inRoster (d : Dev) (i : Nat) : Bool := decide (i < 1024) && d.on (CREW_ROSTER_PRESENT i)

/-! ### Sending -/

/-- Hand a frame to port `port` (4: every port of the tree). -/
def crewSend (port type dst seq : Nat) (words : List Nat) (d : Dev) : Dev :=
  { d with crew := { d.crew with sent := d.crew.sent ++ [⟨port, type, dst, seq, words⟩] } }

/-- R323: the next message number; the generation rises whenever the numbers start again. -/
def crewNext (d : Dev) : Nat × Dev := (d.crew.seqNo, { d with crew := { d.crew with seqNo := (d.crew.seqNo + 1) % 65536 } })

def bcast : Nat := 16384

/-! ### Roll-call requests and port states (R319, R329) -/

/-- R329: a request on the lead; one made while another waits changes nothing. -/
def rollRequest (d : Dev) : Dev :=
  if d.isLead ∧ d.crew.rollReq.isNone then { d with crew := { d.crew with rollReq := some d.clock.now } } else d

/-- R329: a device whose port has changed state sends ROLL_REQ towards the lead; the lead requests a roll call. -/
def rollReqSend (k v : Nat) (d : Dev) : Dev :=
  if d.isLead then rollRequest d
  else match d.crew.up with
  | none => d
  | some u =>
    if d.pstate u = 2 then (let (q, d) := crewNext d; crewSend u 0x13 bcast q [k, v] d) else d

/-- R319: a change of a port's state. -/
def portState (k v : Nat) (d : Dev) : Dev :=
  if d.pstate k = v then d
  else
    let d := if v = 2 then d.putCport k { d.cport k with upAt := d.clock.now } else d
    rollReqSend k v ((d.set (CREW_PORT_STAT_STATE k) v).cause (CREW_PORT_IRQ_LINK k))

/-- R319: a port goes DOWN; its key and what its neighbour advertised are gone. -/
def portDown (k : Nat) (d : Dev) : Dev := portState k 0 (d.putCport k { lock := (d.cport k).lock })

/-- R320: key agreement starts: KEY_INIT goes out. -/
def keyStart (k : Nat) (d : Dev) : Dev :=
  let d := d.putCport k { d.cport k with agreeing := true, peerNonce := none, peerConf := false, ownConf := false }
  keelWork 3 45000 (crewSend k 0x40 0 0 [] d)

/-- PORT_BLOCK_LOCK: port `k` gains or loses block lock (R319, R320). -/
def blockLock (k : Nat) (gained : Bool) (d : Dev) : Dev :=
  if !d.portUsable k then d
  else if gained then
    (if d.pstate k = 0 then keyStart k (portState k 1 (d.putCport k { (d.cport k) with lock := true })) else d)
  else if d.pstate k = 0 then d.putCport k {} else portDown k (d.putCport k { d.cport k with lock := false })

/-- R320: both KEY_CONF frames have verified: the session key is held and the link leaves KEYING. -/
def keyDone (k : Nat) (d : Dev) : Dev :=
  let p := d.cport k
  if p.agreeing ∧ p.peerNonce.isSome ∧ p.ownConf ∧ p.peerConf then
    let d := d.putCport k { p with agreeing := false, peerNonce := none, ownConf := false, peerConf := false, keyed := true, keyAt := d.clock.now, miss := 0 }
    if d.pstate k = 1 then portState k 2 d else d
  else d

/-! ### Frame acceptance (R319, R321–R323) -/

/-- R322: a discarded frame. -/
def frameDrop (k : Nat) (d : Dev) : Dev := d.inc (CREW_PORT_COUNTS_DROP_CNT k)

/-- R322: a discarded frame whose tag has verified: it ends a run of tag failures. -/
def goodDrop (k : Nat) (d : Dev) : Dev := frameDrop k (d.putCport k { d.cport k with tagRun := 0 })

/-- R322: a tag failure; after 16 in a row the port goes DOWN. -/
def tagFail (k : Nat) (d : Dev) : Dev :=
  let d := ((frameDrop k d).inc (CREW_PORT_COUNTS_AUTH_FAIL_CNT k)).cause (CREW_PORT_IRQ_AUTH k)
  let d := d.cause TRUST_IRQ_STAT_AUTH
  let p := d.cport k
  let d := d.putCport k { p with tagRun := p.tagRun + 1 }
  if 16 ≤ p.tagRun + 1 then portDown k d else d

/-- A frame with a good tag and a rising FCNT is accepted on a port in one of the states `ok`; the flag says so. A port that is
DOWN receives nothing, and a frame that its state does not carry is ignored. -/
def crewAccept (h : Hdr) (ok : List Nat) (d : Dev) : Bool × Dev :=
  let k := h.port
  if 4 ≤ k ∨ !d.portUsable k ∨ !ok.contains (d.pstate k) then (false, d)
  else if !h.tagOk then (false, tagFail k d)
  else if h.fcnt < (d.cport k).fcnt then (false, goodDrop k d)
  else (true, d.putCport k { d.cport k with fcnt := h.fcnt + 1, tagRun := 0 })

/-- FRAME_OF_OTHER_TYPE (R322). It is not accepted, so its FCNT counts for nothing. -/
def otherFrame (h : Hdr) (d : Dev) : Dev :=
  if 4 ≤ h.port ∨ !d.portUsable h.port ∨ d.pstate h.port = 0 then d
  else if h.tagOk then goodDrop h.port d else tagFail h.port d

/-- The frame is for this device (R321). -/
def Dev.forMe (d : Dev) (h : Hdr) : Bool := bit h.dst 14 || h.dst % 1024 == d.get CREW_STATUS_MY_ID

/-- R323: a frame whose generation the receiver does not expect. -/
def genDiscard (d : Dev) : Dev := d.inc CREW_COUNTS_GEN_DISCARD_CNT

/-- Key of a message number in the table of generations seen: frame class and number. -/
def seenKey (cls seq : Nat) : Nat := cls * 4096 + seq % 4096

/-- R323: a new message under a number: the generation after the last one seen, or any when none was seen. -/
def crewFresh (cls seq : Nat) (d : Dev) : Bool × Dev :=
  let key := seenKey cls seq
  let g := seq / 4096 % 16
  let last := aget 0 key d.crew.seen
  if last = 0 ∨ g = last % 16 then (true, { d with crew := { d.crew with seen := awrite 0 key (g + 1) d.crew.seen } })
  else (false, genDiscard d)

/-- R323: a later message under a number that is in use: the same generation. -/
def Dev.crewSame (d : Dev) (cls seq : Nat) : Bool := aget 0 (seenKey cls seq) d.crew.seen == seq / 4096 % 16 + 1

/-- R323: a message under a number that is in use or new. -/
def crewHeard (cls seq : Nat) (d : Dev) : Bool × Dev := if d.crewSame cls seq then (true, d) else crewFresh cls seq d

/-- Run `f` on a frame that is accepted on an UP port and is for this device. -/
def onFrame (h : Hdr) (d : Dev) (f : Dev → Dev) : Dev :=
  let r := crewAccept h [2] d
  if r.1 && r.2.forMe h then f r.2 else r.2

/-! ### Keys (R320) -/

/-- KEY_INIT: the peer's nonce; ours goes out if no agreement was under way, and our KEY_CONF follows. -/
def keyInit (h : Hdr) (nonce : Nat) (d : Dev) : Dev :=
  let r := crewAccept h [1, 2, 3] d
  if r.1 ∧ r.2.on TRUST_KEYINFO_CREW_KEY then
    let d := r.2
    let d := if (d.cport h.port).agreeing then d else keyStart h.port d
    let d := d.putCport h.port { d.cport h.port with peerNonce := some nonce, ownConf := true }
    keyDone h.port (crewSend h.port 0x41 0 0 [] d)
  else r.2

/-- KEY_CONF: the peer proves the session key. -/
def keyConf (h : Hdr) (d : Dev) : Dev :=
  let r := crewAccept h [1, 2, 3] d
  if r.1 then keyDone h.port (r.2.putCport h.port { r.2.cport h.port with peerConf := true }) else r.2

/-- R320: a new session key on a keyed port. -/
def rekeyPort (k : Nat) (d : Dev) : Dev := if (d.cport k).keyed ∧ !(d.cport k).agreeing then keyStart k d else d

/-- REKEY: CREW.CTRL.REKEY. -/
def rekey (d : Dev) : Dev := forUpTo 4 rekeyPort d

/-- REKEY_TIMER: 24 h of link time on port `k`. -/
def rekeyTimer (k : Nat) (d : Dev) : Dev :=
  if (d.cport k).keyed then rekeyPort k d else d

/-! ### TIMING (R324–R326) -/

/-- The 64-bit stroke number nearest to this device's whose low half is `lo`. -/
def Dev.extendStroke (d : Dev) (lo : Nat) : Nat :=
  let own := d.clock.strokeNo
  let base := own / 2 ^ 32 * 2 ^ 32 + lo % 2 ^ 32
  if own + 2 ^ 31 < base ∧ 2 ^ 32 ≤ base then base - 2 ^ 32 else if base + 2 ^ 31 ≤ own then base + 2 ^ 32 else base

/-- R104: a violation of the crew reference's gates. -/
def crewViolation (d : Dev) : Dev :=
  let d := d.addSat CREW_SCORE_SCORE 4
  let d := { d with crew := { d.crew with viol := true, qualEnd := d.crew.qualEnd.map fun _ => d.clock.now + d.get CREW_QUAL_QUAL_S * 1000000000 } }
  if d.get CREW_SCORE_CFG_QUAR_SCORE ≤ d.get CREW_SCORE_SCORE ∧ !d.crew.quar then
    let d := d.journalFree 0x04 8
    let q := d.journalCount 0x04 8
    let s := d.get CREW_SCORE_CFG_QUAR_HOLD_S
    let d := { d with crew := { d.crew with
        quar := true, holdEnd := some (d.clock.now + min (s * 2 ^ (q - 1)) (16 * s) * 1000000000), qualEnd := none } }
    crewCause 4 ((d.setSat CREW_SCORE_QUAR_24H q).cause TRUST_IRQ_STAT_QUAR)
  else d

/-- R103, R326: the phase gate on the residual, the upstream's time minus the device's. -/
def Dev.crewPhaseBad (d : Dev) (offset : Int) : Bool :=
  let room := d.get CREW_GATE_PHASE_GATE_NS + (if d.holdover then d.get TB_ETE_BOUND_NS_BOUND else 0)
  d.on CREW_SCORE_CFG_PHASE_EN && decide ((-offset - d.gets TB_ETE_NS_ETE * 65536).natAbs > room * 65536)

/-- R103, R326: the frequency gate over one revolution, a TAI second. -/
def Dev.crewFreqBad (d : Dev) : Bool :=
  d.on CREW_SCORE_CFG_FREQ_EN &&
  (match d.crew.lastOff with
   | some o => decide ((d.crew.offset - o).natAbs * 1000000000 > d.get CREW_GATE_FREQ_GATE_PPB * 65536000000000)
   | none => false)

/-- R325: delay and offset of the upstream link, in 2^-16 ns. The launch of the frame that the upstream stamped is the catch
nearest to where a link of equal delays puts it (log entry 18). -/
def Dev.crewDelayOffset (d : Dev) (k : Nat) (m : TimingMsg) : Int × Int :=
  let p : Int := (d.period : Int) * 65536
  let t1 : Int := (d.extendStroke m.strokeNo : Int) * p
  let t2 : Int := m.arrive
  let t4 : Int := m.stamp
  let t3 : Int := divRound (t4 - (t2 - t1)) p.toNat * p
  let delay := ((t2 - t1) + (t4 - t3)) / 2
  (delay, (t2 - t1) - delay - divRound (d.gets (CREW_PORT_CFG_ASYM_PS k) * 65536) 1000)

/-- R325: what a TIMING frame on the upstream port yields. -/
def crewMeasure (k : Nat) (m : TimingMsg) (d : Dev) : Dev :=
  let (delay, offset) := d.crewDelayOffset k m
  let ns := (divRound delay 65536).toNat
  let d := d.setsSat CREW_OFFSET_PS_OFFSET (divRound (offset * 1000) 65536)
  let d := d.setSat (CREW_PORT_STAT_DELAY_NS k) ns
  let far := if m.hops = 0 then 0 else Config.crewPath d.fresh
  let d := (d.setSat CREW_PATH_NS_PATH (ns + far)).tick1
  let d := { d with crew := { d.crew with offset := offset } }
  if d.on TB_STATUS_ETE_VALID ∧ !d.crew.firstRev ∧ d.crewPhaseBad offset then crewViolation d else d

/-- TIMING. -/
def timingFrame (h : Hdr) (m : TimingMsg) (d : Dev) : Dev :=
  let r := crewAccept h [1, 2, 3] d
  if r.1 then
    let d := r.2
    let k := h.port
    let adv : Adv := ⟨m.stamp, m.serial, m.prio, m.hops, m.uplink, m.refused, m.tbState, m.bound, m.level, m.spanMin, m.spanMax⟩
    let d := d.putCport k { d.cport k with got := true, miss := 0, arrive := m.arrive, adv := some adv }
    let d := if d.isUp k then { d with crew := { d.crew with leadBound := m.bound } } else d
    if d.get CREW_STATUS_ROLE = 2 ∧ d.isUp k ∧ d.pstate k = 2 then crewMeasure k m d else d
  else r.2

/-- TIMING_LOSS: 3 strokes without a valid TIMING frame. -/
def timingLoss (k : Nat) (d : Dev) : Dev := if d.pstate k = 2 ∨ d.pstate k = 3 then portDown k d else d

/-! ### Lead election (R328) -/

/-- What the port `k` advertises as a candidate: priority, serial, hops. Frames on BLOCKED links count as well (log entry 19). -/
def Dev.candOf (d : Dev) (k : Nat) : Option (Nat × Nat × Nat) :=
  match (d.cport k).adv with
  | none => none
  | some a => if d.pstate k = 0 ∨ a.uplink ∨ 6 < a.hops then none else some (a.prio, a.serial, a.hops)

/-- The better of two leads. -/
def leadLess (a b : Nat × Nat) : Bool := decide (a.1 < b.1) || (a.1 == b.1 && decide (a.2 < b.2))

/-- The chosen lead with its upstream port and hop count; port 4 stands for the device itself (R328; in PADDLE never the lead,
R317). -/
def Dev.choose (d : Dev) : Option ((Nat × Nat) × Nat × Nat) :=
  let self := if d.get CREW_CFG_LEAD_PRIO = 15 ∨ d.mode = 1 then none
    else some ((d.get CREW_CFG_LEAD_PRIO, d.fused.serial), 4, 0)
  (List.range 4).foldl (fun best k =>
    match d.candOf k with
    | none => best
    | some (p, s, h) =>
      match best with
      | none => some ((p, s), k, h + 1)
      | some (l, _, hops) =>
        if leadLess (p, s) l ∨ ((p, s) = l ∧ h + 1 < hops) then some ((p, s), k, h + 1) else best) self

/-- A device that is no longer the lead has no open crew transaction: a context that is still OPEN is its master's own again, and one that
is COMMITTED follows R345 (R346). -/
def leadLost (d : Dev) : Dev :=
  let d := d.set CREW_CC_STATUS_STATE 0
  match d.crew.cc with
  | some x => if x.voted then d else { d with crew := { d.crew with cc := none } }
  | none => d

def setRole (r : Nat) (d : Dev) : Dev :=
  if d.get CREW_STATUS_ROLE = r then d else crewCause 0 ((if d.isLead then leadLost d else d).set CREW_STATUS_ROLE r)

/-- The role that the end of an election gives; the new lead requests a roll call, and a refused device is ISOLATED (R333). -/
def electionDone (d : Dev) : Dev :=
  match d.choose with
  | none => setRole 0 d
  | some (_, k, _) =>
    if k = 4 then rollRequest (setRole 1 d) else if d.on CREW_STATUS_REFUSED then setRole 0 d else setRole 2 d

/-- ELECTION_END. -/
def electionEnd (d : Dev) : Dev := if d.get CREW_STATUS_ROLE = 3 then electionDone { d with crew := { d.crew with same := 0 } } else d

/-- Show the lead followed. -/
def showLead (serial prio port hops : Nat) (d : Dev) : Dev :=
  let d := { d with crew := { d.crew with leadSerial := serial, leadPrio := prio, up := if port = 4 then none else some port } }
  let d := (d.set CREW_LEAD_SER_LO_LO serial).set CREW_LEAD_SER_HI_HI (serial / 2 ^ 32)
  (d.set CREW_STATUS_UP_PORT (if port = 4 then 0 else port)).set CREW_STATUS_HOPS (min hops 7)

/-- R328: the choice at a catch. -/
def elect (d : Dev) : Dev :=
  if !d.on CREW_CTRL_ENABLE ∨ !crewPresent d.mode 0 then
    showLead 0 0 4 0 (setRole 0 { d with crew := { d.crew with same := 0 } })
  else match d.choose with
  | none => showLead 0 0 4 0 (setRole 0 { d with crew := { d.crew with same := 0 } })
  | some ((p, s), k, h) =>
    let changed := d.crew.leadSerial ≠ s ∨ d.crew.leadPrio ≠ p ∨ (d.get CREW_STATUS_ROLE = 0 ∧ !d.on CREW_STATUS_REFUSED)
    let d := showLead s p k h d
    if changed then setRole 3 { d.set CREW_STATUS_REFUSED 0 with crew := { d.crew with same := 0, roll := none, rollReq := none } }
    else if d.get CREW_STATUS_ROLE = 3 then
      (if 8 ≤ d.crew.same + 1 then electionEnd d else { d with crew := { d.crew with same := d.crew.same + 1 } })
    else d

/-- R328: a keyed link is UP when one end is the other's upstream and BLOCKED otherwise; a refused device blocks its downstream
ports (R333). -/
def blockPorts (d : Dev) : Dev :=
  forUpTo 4 (fun k d =>
    if d.pstate k = 2 ∨ d.pstate k = 3 then
      match (d.cport k).adv with
      | none => d
      | some a => portState k (if d.isUp k ∨ (a.uplink ∧ !d.on CREW_STATUS_REFUSED) then 2 else 3) d
    else d) d

/-! ### Roll call (R329–R333, R339) -/

/-- R329: the round length in strokes. -/
def Dev.roundLen (d : Dev) : Nat := max 4 (divCeil 20000 d.period)

/-- This device as a member. -/
def Dev.ownMember (d : Dev) : Member :=
  { id := d.log.crewId, serial := d.fused.serial, spanMin := d.get CREW_LEVEL_SPAN_MIN, spanMax := d.get CREW_LEVEL_SPAN_MAX,
    sdWords := d.get CREW_CFG_SD_WORDS, path := 0, hops := 0 }

/-- Insert a member, crew IDs rising. -/
def putMember (m : Member) : List Member → List Member
  | [] => [m]
  | x :: r => if m.id < x.id then m :: x :: r else x :: putMember m r

/-- Insert a member, serials rising. -/
def bySerial (m : Member) : List Member → List Member
  | [] => [m]
  | x :: r => if m.serial < x.serial then m :: x :: r else x :: bySerial m r

/-- R331: stored IDs are kept, the lower serial winning; then the lowest free IDs go to the others in the order of their
serials. -/
def assignIds (l : List Member) : List Member :=
  let l := l.foldl (fun acc m => bySerial m acc) []
  let claim := l.foldl (fun (acc : List Member × List Member) m =>
    if 1024 ≤ m.id ∨ acc.1.any (fun x => x.id == m.id) then (acc.1, acc.2 ++ [m]) else (putMember m acc.1, acc.2)) ([], [])
  claim.2.foldl (fun acc m =>
    match (List.range 1024).find? fun i => !acc.any fun x => x.id == i with
    | some i => putMember { m with id := i } acc
    | none => acc) claim.1

/-- R339: stroke-data admission in ascending crew ID. -/
def admitSd (p : Nat) (l : List Member) : List Member :=
  let r := l.foldl (fun (acc : List Member × Nat × Nat × Bool) m =>
    let dmax := max acc.2.1 m.path
    let s := acc.2.2.1 + 8 + 4 * m.sdWords
    if acc.2.2.2 ∧ 20 * dmax + 8 * s + 2000 ≤ 10 * p then (acc.1 ++ [{ m with sd := true }], dmax, s, true)
    else (acc.1 ++ [{ m with sd := false }], acc.2.1, acc.2.2.1, false)) ([], 0, 0, true)
  r.1

/-- One bit per crew ID. -/
def idBits (l : List Member) : Nat := l.foldl (fun v m => v + 2 ^ m.id) 0

/-- R333: the highest level in the lead's span that every member supports. -/
def Dev.commonLevel (d : Dev) (l : List Member) : Option Nat :=
  let lo := l.foldl (fun v m => max v m.spanMin) (d.get CREW_LEVEL_SPAN_MIN)
  let hi := l.foldl (fun v m => min v m.spanMax) (d.get CREW_LEVEL_SPAN_MAX)
  if lo ≤ hi then some hi else none

/-- R331, R333: the lead's result at e + 3R. -/
def Dev.rollOutcome (d : Dev) (replies : List Member) (at_ : Nat) : RollResult :=
  let fits (m : Member) : Bool :=
    decide (m.spanMin ≤ d.get CREW_LEVEL_SPAN_MAX) && decide (d.get CREW_LEVEL_SPAN_MIN ≤ m.spanMax) && decide (m.hops ≤ 7)
  let l := admitSd d.period (assignIds (d.ownMember :: replies.filter fits))
  let absent := (d.crew.members.filter fun m => m.serial != d.fused.serial && !replies.any fun r => r.serial == m.serial).length
  let top := (d.commonLevel l).getD (Config.crewLevel d.fresh % 65536)
  let cur := d.get CREW_LEVEL_CUR
  let keep := decide (cur ≤ top) && l.all fun m => decide (m.spanMin ≤ cur)
  { at_ := at_, level := if keep then cur else top, roster := idBits l, sd := idBits (l.filter fun m => m.sd),
    myId := (l.find? fun m => m.serial == d.fused.serial).map fun m => m.id, refused := false,
    target := top, members := l, absent := absent }

/-- R329: the next action of the lead's roll call: a round, or the result. -/
def rollRound (d : Dev) : Dev :=
  match d.crew.roll, d.crew.rollReq with
  | none, none => d
  | none, some _ =>
    let (q, d) := crewNext d
    let d := { d with crew := { d.crew with
        rollReq := none, roll := some { epoch := d.clock.now, seq := q, round := 1, left := d.roundLen } } }
    crewSend 4 0x10 bcast q [d.clock.now, 1] d
  | some r, _ =>
    if r.round < 3 then
      let d := { d with crew := { d.crew with roll := some { r with round := r.round + 1, left := d.roundLen } } }
      (d.crew.members.filter fun m => m.serial != d.fused.serial && !r.replies.any fun x => x.serial == m.serial).foldl
        (fun d m => crewSend 4 0x10 m.id r.seq [r.epoch, r.round + 1] d) d
    else
      let res := d.rollOutcome r.replies (d.clock.now + d.roundLen * d.period)
      let d := { d with crew := { d.crew with roll := none, result := some res } }
      keelWork 3 (4000 + 2 * res.members.length) (crewSend 4 0x12 bcast r.seq [res.at_, res.level, res.roster, res.sd] d).tick1

/-- ROLL_POLL: the device replies if its upstream port was UP at `epoch` (R329, R330). -/
def rollPoll (h : Hdr) (epoch round : Nat) (d : Dev) : Dev :=
  onFrame h d fun d =>
    let r := crewHeard 1 h.seq d
    let d := r.2
    if r.1 ∧ d.isUp h.port ∧ (d.cport h.port).upAt ≤ epoch ∧ (round = 1 ∨ !bit h.dst 14) then
      let m := d.ownMember
      crewSend h.port 0x11 bcast h.seq [m.serial, m.id, m.spanMin, m.spanMax, m.sdWords, d.get CREW_PATH_NS_PATH]
        { d with crew := { d.crew with replied := some h.seq } }
    else d

/-- ROLL_REPLY: the lead keeps a reply of the roll call that runs (R331). -/
def rollReply (h : Hdr) (m : ReplyMsg) (d : Dev) : Dev :=
  let r := crewAccept h [2] d
  if r.1 ∧ r.2.isLead then
    let d := r.2
    match d.crew.roll with
    | none => genDiscard d
    | some c =>
      if c.seq ≠ h.seq then genDiscard d
      else if c.replies.any fun x => x.serial == m.serial then d
      else
        let x : Member := { id := m.id, serial := m.serial, spanMin := m.spanMin, spanMax := m.spanMax, sdWords := m.sdWords, path := m.path, hops := m.hops }
        keelWork 3 900 { d with crew := { d.crew with roll := some { c with replies := c.replies ++ [x] } } }
  else r.2

/-- ROLL_RESULT on a member (R329): what changes at the completion catch. A device that has replied and that the result gives no ID is
refused (R331, R333). -/
def rollResult (h : Hdr) (m : ResultMsg) (d : Dev) : Dev :=
  onFrame h d fun d =>
    if d.isLead then d
    else
      let r := crewHeard 1 h.seq d
      let d := r.2
      if r.1 then
        let r : RollResult :=
          { at_ := m.at_, level := m.level, roster := m.roster, sd := m.sd, myId := m.grant,
            refused := m.grant.isNone && d.crew.replied == some h.seq, target := 0, members := [], absent := 0 }
        { d with crew := { d.crew with result := some r } }
      else d

/-- ROLL_REQ: the lead requests a roll call. -/
def rollReqFrame (h : Hdr) (d : Dev) : Dev :=
  let r := crewAccept h [2] d
  if r.1 ∧ r.2.isLead then (let f := crewFresh 2 h.seq r.2; if f.1 then rollRequest f.2 else f.2) else r.2

/-- Number of 1 bits below 1,024. -/
def rosterSize (v : Nat) : Nat := (List.range 1024).foldl (fun n i => n + b2n (bit v i)) 0

/-- The context of the transaction that this device takes part in. -/
def Dev.ccCtx (d : Dev) : Option Nat := match d.crew.cc with | some x => x.ctx | none => none

/-- R345: a context of the open transaction is discarded. -/
def orphan (d : Dev) : Dev :=
  match d.ccCtx with
  | some c =>
    let d := ctxFree c d
    crewCause 3 (({ d with crew := { d.crew with cc := none } }).inc CREW_CC_COUNTS_ORPHAN_CNT)
  | _ => d

/-- R345: a PREPARED context that no GO reached before its catch, left over on a device that is not the lead. -/
def Dev.orphanDue (d : Dev) (t : Nat) : Bool :=
  match d.crew.cc with
  | some x => x.voted && x.go.isNone && decide (x.applyAt ≤ t) && !d.isLead
  | none => false

/-- ROSTER[i] of every device (R348). -/
def showRoster (r : RollResult) (d : Dev) : Dev :=
  forUpTo 1024 (fun i d =>
    let m := r.members.find? fun m => m.id == i
    let d := (d.setB (CREW_ROSTER_PRESENT i) (bit r.roster i)).setB (CREW_ROSTER_SD i) (bit r.sd i)
    (d.set (CREW_ROSTER_HOPS i) ((m.map fun m => m.hops).getD 0)).set (CREW_ROSTER_LVL_MAX i) ((m.map fun m => m.spanMax).getD 0)) d

def putLevel (v : Nat) (d : Dev) : Dev := if d.get CREW_LEVEL_CUR = v then d else crewCause 5 (d.set CREW_LEVEL_CUR v)

/-- R332, R333, R345: the completion catch. -/
def rollComplete (d : Dev) : Dev :=
  match d.crew.result with
  | none => d
  | some r =>
    let d := { d with crew := { d.crew with result := none, members := r.members } }
    let d := if d.orphanDue d.clock.now then orphan d else d
    let d := d.addSat CREW_COUNTS_ABSENT_CNT r.absent
    if r.refused then
      crewCause 6 (setRole 0 (((d.set CREW_STATUS_REFUSED 1).set CREW_STATUS_ADMITTED 0).set CREW_STATUS_SD_DENIED 0))
    else match r.myId with
    | none => (d.set CREW_STATUS_ADMITTED 0).set CREW_STATUS_SD_DENIED 0
    | some id =>
      let was := d.on CREW_STATUS_ADMITTED
      let d := ((d.set CREW_STATUS_REFUSED 0).set CREW_STATUS_ADMITTED 1).set CREW_STATUS_MY_ID id
      let d := { d with log := { d.log with crewId := id }, crew := { d.crew with sdFrom := if was then d.crew.sdFrom else 0 } }
      let d := if d.get CREW_STATUS_ROLE = 0 ∧ d.crew.leadSerial ≠ d.fused.serial then setRole 2 d else d
      let d := d.setB CREW_STATUS_SD_DENIED (!bit r.sd id)
      let d := d.set CREW_STATUS_MEMBERS (rosterSize r.roster)
      let d := crewCause 1 (showRoster r d)
      let d := if d.isLead then d.set CREW_LEVEL_TARGET r.target else d
      putLevel r.level d

/-- R329: a roll call due at the catch completes. -/
def rollEnd (d : Dev) : Dev :=
  match d.crew.result with
  | some r => if r.at_ ≤ d.clock.now then rollComplete d else d
  | none => d

/-! ### Stroke data (R336–R338) -/

/-- The 16 words of a slot: the data and 0 beyond it (R338). -/
def slotWords (ws : List Nat) : List Nat := (ws ++ List.replicate 16 0).take 16

def writeSlot (id : Nat) (ws : List Nat) (m : Mem) : Mem :=
  ((List.range 16).foldl (fun m i => m.write (0x01FF0000 + 64 * id + 4 * i) ((slotWords ws).getD i 0) 4) m)

/-- SD_UP: the lead keeps a record of the stroke before, until it has scattered (R337, R338). -/
def sdUp (h : Hdr) (recs : List (Nat × List Nat)) (d : Dev) : Dev :=
  let r := crewAccept h [2] d
  if r.1 ∧ r.2.isLead ∧ r.2.crew.sdDown.isNone then { r.2 with crew := { r.2.crew with sdUp := r.2.crew.sdUp ++ recs } } else r.2

/-- SD_DOWN: the table that the lead scatters (R338). -/
def sdDown (h : Hdr) (slots : List (Nat × List Nat)) (stale : Nat) (d : Dev) : Dev :=
  let r := crewAccept h [2] d
  if r.1 ∧ h.port = r.2.get CREW_STATUS_UP_PORT ∧ !r.2.isLead then
    { r.2 with crew := { r.2.crew with sdDown := some (slots, stale) } }
  else r.2

/-- Replace the table: a slot whose stale bit is 0 takes its data. -/
def sdApply (slots : List (Nat × List Nat)) (stale : Nat) (d : Dev) : Dev :=
  let d := { d with mem := slots.foldl (fun m (s : Nat × List Nat) => if bit stale s.1 ∨ 1024 ≤ s.1 then m else writeSlot s.1 s.2 m) d.mem }
  let d := slots.foldl (fun (d : Dev) (s : Nat × List Nat) =>
    if bit stale s.1 ∨ 1024 ≤ s.1 then d
    else (List.range 32).foldl (fun (d : Dev) i => (bankTouch ⟨0x01FF0000 + 64 * s.1 + 2 * i, 0, true, 0, 0⟩ d).2.2) d) d
  forUpTo 32 (fun i d => d.set (CREW_SD_STALE_STALE i) (bits stale (32 * i) 32)) d

def allStale : Nat := 2 ^ 1024 - 1

/-- The time that the stroke data of the devices `l` take one way, in ns: the longest path, and 0.4 ns a byte (R339). -/
def sdWay (l : List Member) : Nat :=
  let sd := l.filter fun m => m.sd
  sd.foldl (fun v m => max v m.path) 0 + divCeil (4 * sd.foldl (fun v m => v + 8 + 4 * m.sdWords) 0) 10

/-- R338: the lead scatters the records that have reached it, its own among them. -/
def sdScatter (d : Dev) : Dev :=
  if d.crew.sdDown.isSome then d
  else
    let got := d.crew.sdUp.filter fun r => decide (r.1 < 1024) && d.on (CREW_ROSTER_SD r.1)
    let me := d.get CREW_STATUS_MY_ID
    let got := if d.on (CREW_ROSTER_SD me) ∧ !d.crew.sdMine.isEmpty then got ++ [(me, d.crew.sdMine)] else got
    let stale := got.foldl (fun v r => if bit v r.1 then v - 2 ^ r.1 else v) allStale
    let d := { d with crew := { d.crew with sdUp := [], sdDown := some (got, stale) } }
    if d.get CREW_STATUS_MEMBERS ≤ 1 then d
    else
      let (q, d) := crewNext d
      crewSend 4 0x03 bcast q (stale :: got.flatMap fun r => r.1 :: r.2) d

/-- The lead scatters once the records have had the time that R339 allows for their way; R338 does not say when (log entry 35). -/
def sdTick (d : Dev) : Dev :=
  if d.isLead && d.on CREW_CTRL_ENABLE && decide (d.clock.openAt + sdWay d.crew.members + 200 ≤ d.clock.now) then sdScatter d else d

/-- R338: the table at a catch. -/
def sdReplace (d : Dev) : Dev :=
  if !d.on CREW_CTRL_ENABLE then d
  else
    let d := if d.isLead then sdScatter d else d
    let t := d.crew.sdDown
    let d := { d with crew := { d.crew with sdDown := none } }
    match t with
    | some (slots, stale) =>
      if d.isLead ∨ (d.on CREW_STATUS_ADMITTED ∧ 1 ≤ d.crew.sdFrom) then sdApply slots stale d else sdApply [] allStale d
    | none => sdApply [] allStale d

/-- R337: the words of SD_TX as they stand in the catch cycle go towards the lead. -/
def sdTake (d : Dev) : Dev :=
  let n := d.get CREW_CFG_SD_WORDS
  let ws := (List.range n).map fun w => d.get (CREW_SD_TX_WORD w)
  let on := d.on CREW_STATUS_ADMITTED && !d.on CREW_STATUS_SD_DENIED && decide (0 < n)
  let d := { d with crew := { d.crew with sdMine := if on then ws else [], sdFrom := min 2 (d.crew.sdFrom + 1) } }
  if on ∧ !d.isLead then
    (let (q, d) := crewNext d; crewSend (d.get CREW_STATUS_UP_PORT) 0x02 bcast q ((d.get CREW_STATUS_MY_ID + 1024 * n) :: ws) d)
  else d

/-! ### Crew transactions (R341–R346) -/

/-- Open a crew transaction on the lead for a master (R341). Without a context for it nothing happens (log entry 22). -/
def ccOpen (m : Master) (d : Dev) : Bool × Dev :=
  if d.isLead ∧ d.get CREW_CC_STATUS_STATE = 0 then
    let r := txnAlloc m d
    if r.1 = 0 then (false, d)
    else
      let d := r.2
      let q := d.crew.ccNo
      let me := d.get CREW_STATUS_MY_ID
      let targets := (List.range 1024).filter fun i => d.inRoster i && i != me
      let d := { d with crew := { d.crew with
          ccNo := if q = 65535 then 1 else q + 1, cc := some { serial := q % 4096, gen := q / 4096, ctx := d.bound m }, lead := { targets := targets } } }
      let d := ((d.set CREW_CC_STATUS_STATE 1).set CREW_CC_STATUS_OUTCOME 0).set CREW_CC_STATUS_CTID q
      (true, crewSend 4 0x20 bcast q [q] d)
  else (false, d)

/-- CC_CTRL_BEGIN: only the PCIe host or Keel may write BEGIN. -/
def ccBegin (m : Master) (d : Dev) : Dev := if m = .pcie ∨ m = .keel then (ccOpen m d).2 else d

/-- CC_BEGIN on a target: a context is bound to the crew link (R341, R309). One left from an earlier transaction is freed first
(log entry 23). -/
def ccBeginFrame (h : Hdr) (d : Dev) : Dev :=
  onFrame h d fun d =>
    if d.isLead ∨ !d.on CREW_STATUS_ADMITTED then d
    else
      let f := crewFresh 3 h.seq d
      if f.1 then
        let d := f.2
        let d := match d.ccCtx with | some c => ctxFree c d | none => d
        let r := txnAlloc .crew d
        let d := r.2
        { d with crew := { d.crew with cc := some { serial := h.seq % 4096, gen := h.seq / 4096 % 16, ctx := if r.1 = 0 then none else d.bound .crew } } }
      else f.2

/-- The transaction that this device takes part in, if a frame names it (R323). -/
def Dev.ccMatch (d : Dev) (h : Hdr) : Option CrewCc :=
  match d.crew.cc with
  | some x => if x.serial = h.seq % 4096 ∧ x.gen = h.seq / 4096 % 16 then some x else none
  | none => none

def putCc (x : CrewCc) (d : Dev) : Dev := { d with crew := { d.crew with cc := some x } }

/-- CC_PREPARE: the target votes (R343). -/
def ccPrepareFrame (h : Hdr) (at_ : Nat) (d : Dev) : Dev :=
  onFrame h d fun d =>
    if d.isLead then d
    else match d.ccMatch h with
    | none => genDiscard d
    | some x =>
      let up := d.get CREW_STATUS_UP_PORT
      match x.ctx with
      | none => crewSend up 0x22 bcast h.seq [0] d
      | some c =>
        if d.get (TXN_CTX_STATUS_STATE c) = 1 ∧ !d.on (TXN_CTX_STATUS_OVF c) ∧ d.clock.now < at_ then
          let d := ctxCommit c 5 d
          let d := d.putCtx c { d.ctxAt c with atA := at_ }
          crewSend up 0x22 bcast h.seq [1] (putCc { x with applyAt := at_, voted := true } d)
        else crewSend up 0x22 bcast h.seq [0] d

/-- CC_VOTE on the lead. A vote after catch d counts as missing (R343). -/
def ccVoteFrame (h : Hdr) (prepared : Bool) (d : Dev) : Dev :=
  let r := crewAccept h [2] d
  if r.1 ∧ r.2.isLead then
    let d := r.2
    match d.ccMatch h with
    | none => genDiscard d
    | some _ =>
      if d.get CREW_CC_STATUS_STATE ≠ 2 then d
      else
        let l := d.crew.lead
        keelWork 3 300 { d with crew := { d.crew with lead := { l with
            votes := if prepared then l.votes ++ [h.src % 1024] else l.votes.filter fun i => i != h.src % 1024 } } }
  else r.2

/-- R345: ABORT frees the context of the transaction. -/
def ccAbort (d : Dev) : Dev :=
  match d.crew.cc with
  | none => d
  | some x =>
    let d := match x.ctx with | some c => ctxFree c d | none => d
    ({ d with crew := { d.crew with cc := none, raise := none } }).inc CREW_CC_COUNTS_ABORT_CNT

/-- CC_DECIDE on a target. A GO that comes in the finish window before catch a is too late (R345). -/
def ccDecideFrame (h : Hdr) (go : Bool) (d : Dev) : Dev :=
  onFrame h d fun d =>
    if d.isLead then d
    else match d.ccMatch h with
    | none => genDiscard d
    | some x =>
      if !go then ccAbort d
      else if d.inFinish ∧ x.applyAt ≤ d.clock.endAt then d
      else if x.voted then putCc { x with go := some true } d else d

/-- CC_DECISION: the lead's decision at catch d (R344). -/
def ccDecision (d : Dev) : Dev :=
  match d.crew.cc with
  | none => d
  | some x =>
    if d.get CREW_CC_STATUS_STATE ≠ 2 ∨ !d.isLead then d
    else
      let l := d.crew.lead
      let q := x.serial + 4096 * x.gen
      let go := l.targets.all fun i => !d.inRoster i || l.votes.contains i
      let d := keelWork 3 500 (crewSend 4 0x23 bcast q [q, b2n go] d)
      let d := crewCause 2 (d.set CREW_CC_STATUS_OUTCOME (if go then 1 else 2))
      if go then putCc { x with go := some true } (d.set CREW_CC_STATUS_STATE 3)
      else ccAbort (d.set CREW_CC_STATUS_STATE 0)

/-- The lead at a catch: CC_PREPARE at p, the decision at d (R342, R344). -/
def ccCatch (d : Dev) : Dev :=
  if d.get CREW_CC_STATUS_STATE = 2 then
    let l := d.crew.lead
    let d1 := { d with crew := { d.crew with lead := { l with toP := l.toP - 1, toD := l.toD - 1 } } }
    let d1 := match d.crew.cc with
      | some x => if l.toP = 1 then crewSend 4 0x21 bcast (x.serial + 4096 * x.gen) [x.serial + 4096 * x.gen, x.applyAt] d1 else d1
      | none => d1
    if l.toD = 1 then ccDecision d1 else d1
  else d

/-- R345, R334: catch a at device time `t`, after the contexts have applied: the transaction ends, a raise takes effect, and a
context without GO is discarded where the device is admitted. -/
def ccEnd (t : Nat) (d : Dev) : Dev :=
  match d.crew.cc with
  | none => d
  | some x =>
    if x.go = some true ∧ x.applyAt ≤ t then
      let raise := d.crew.raise
      let d := { d with crew := { d.crew with cc := none, raise := none } }
      let d := if d.isLead then d.set CREW_CC_STATUS_STATE 0 else d
      match raise with | some v => putLevel v d | none => d
    else if d.orphanDue t ∧ d.on CREW_STATUS_ADMITTED then orphan d
    else d

/-! ### Levels (R333, R334) -/

/-- RAISE_LEVEL: a crew commit by Keel raises the level to TARGET at LEVEL_AT. -/
def raiseLevel (d : Dev) : Dev :=
  if !d.isLead then d
  else
    let at_ := (d.get CREW_LEVEL_AT_LO_SEC_LO + 2 ^ 32 * d.get CREW_LEVEL_AT_HI_SEC_HI) * 1000000000
    let v := d.get CREW_LEVEL_TARGET
    if v ≤ d.get CREW_LEVEL_CUR ∨ d.get CREW_CC_STATUS_STATE ≠ 0 ∨ at_ < d.clock.now + 2000000000 then crewCause 6 d
    else
      let r := ccOpen .keel d
      if r.1 then
        match r.2.bound .keel with
        | some c =>
          let d := { r.2 with crew := { r.2.crew with raise := some v } }
          let d := ctxCommit c 5 (crewPrepare c d)
          let d := d.putCtx c { d.ctxAt c with atA := at_ }
          (match d.crew.cc with | some x => putCc { x with applyAt := at_ } d | none => d)
        | none => r.2
      else crewCause 6 d

/-- A member takes the crew level that its upstream reports (R324, R334; log entry 24). -/
def followLevel (d : Dev) : Dev :=
  if d.get CREW_STATUS_ROLE = 2 ∧ d.on CREW_STATUS_ADMITTED then
    match d.crew.up.bind fun u => (d.cport u).adv with
    | some a => putLevel a.level d
    | none => d
  else d

/-! ### The crew reference (R326) -/

def Dev.crewRefOk (d : Dev) : Bool :=
  match d.crew.up with
  | none => false
  | some u =>
    d.get CREW_STATUS_ROLE == 2 && d.pstate u == 2 && d.on CREW_STATUS_ADMITTED && !d.crew.quar &&
    (match (d.cport u).adv with | some a => a.tbState == 2 || a.tbState == 3 | none => false)

/-- R326: the crew reference stops being qualified: the lead's last reported bound, divided by k, is the initial phase uncertainty of the
holdover that follows. -/
def crewLost (d : Dev) : Dev :=
  if d.on CREW_STATUS_CREW_QUAL then
    let d := d.set CREW_STATUS_CREW_QUAL 0
    if d.on TB_REF_SEL_CREW_EN then
      { d with tb := { d.tb with phase0Ps := some (divCeil (16000 * d.crew.leadBound) (d.get TB_ETE_CFG_K)) } }
    else d
  else d

/-- CREW_QUALIFY. -/
def crewQualify (d : Dev) : Dev :=
  match d.crew.qualEnd with
  | some _ => if d.crewRefOk then { d.set CREW_STATUS_CREW_QUAL 1 with crew := { d.crew with qualEnd := none } } else d
  | none => d

/-- The end of a TAI second: the frequency gate, and the score falls after a second without a violation (R103, R104). -/
def crewSecond (d : Dev) : Dev :=
  let bad := d.on TB_STATUS_ETE_VALID && !d.crew.firstRev && d.crewFreqBad
  let d := if bad then crewViolation d else d
  let d := if d.crew.viol ∨ d.get CREW_SCORE_SCORE = 0 then d else d.set CREW_SCORE_SCORE (d.get CREW_SCORE_SCORE - 1)
  { d with crew := { d.crew with viol := false, lastOff := some d.crew.offset, firstRev := !d.crewRefOk && !d.crew.quar } }

/-- The reference at a catch. -/
def crewRef (d : Dev) : Dev :=
  let now := d.clock.now
  let d := match d.crew.holdEnd with
    | some t => if t ≤ now then { d.set CREW_SCORE_SCORE 0 with crew := { d.crew with quar := false, holdEnd := none } } else d
    | none => d
  let d := d.setSat CREW_SCORE_HOLD_REMAIN (match d.crew.holdEnd with | some t => divCeil (t - now) 1000000000 | none => 0)
  let d := if now % 1000000000 = 0 ∧ d.get CREW_STATUS_ROLE = 2 then crewSecond d else d
  if d.crewRefOk then
    if d.on CREW_STATUS_CREW_QUAL then d
    else match d.crew.qualEnd with
    | none => { d with crew := { d.crew with qualEnd := some (now + d.get CREW_QUAL_QUAL_S * 1000000000) } }
    | some t => if t ≤ now then crewQualify d else d
  else
    let d := crewLost d
    { d with crew := { d.crew with qualEnd := none, lastOff := none, firstRev := true } }

/-! ### Doorbells (R347) -/

/-- DB_TX_GO. -/
def dbTx (d : Dev) : Dev :=
  if d.get CREW_STATUS_ROLE = 1 ∨ d.get CREW_STATUS_ROLE = 2 then
    let (q, d) := crewNext d
    let dst := if d.on CREW_DB_TX_BCAST then bcast else d.get CREW_DB_TX_DEST
    if d.isLead ∧ dst ≠ bcast ∧ !d.inRoster dst then d
    else crewSend 4 0x38 dst q [d.get CREW_DB_TX_INDEX, d.get CREW_DB_DATA_DATUM] d
  else d

/-- DOORBELL. -/
def doorbellFrame (h : Hdr) (idx datum : Nat) (d : Dev) : Dev :=
  onFrame h d fun d =>
    let f := crewFresh (16 + h.src % 1024) h.seq d
    if f.1 then
      let d := keelWork 3 80 f.2
      let ok := if idx < 32 then bit (d.get CREW_DB_ALLOW_LO_ALLOW) idx else bit (d.get CREW_DB_ALLOW_HI_ALLOW) (idx - 32)
      if ok ∧ idx ≤ 62 then ring 5 idx datum d else crewCause 8 d
    else f.2

/-- A read of CREW.LEAD_SER_LO latches LEAD_SER_HI (R348). -/
def leadSerLoRead (m : Master) (d : Dev) : Nat × Dev := (d.get CREW_LEAD_SER_LO_LO, d.latchTo m 0x80030 (d.get CREW_LEAD_SER_HI_HI))

/-! ### Catch and warm reset -/

/-- R319: a port at a catch: TIMING missed in the stroke, and its configuration. -/
def portCatch (k : Nat) (d : Dev) : Dev :=
  let p := d.cport k
  if d.pstate k = 0 then d
  else if !d.portUsable k then portDown k d
  else if d.pstate k = 1 then d.putCport k { p with got := false }
  else if p.got then d.putCport k { p with got := false, miss := 0 }
  else if 3 ≤ p.miss + 1 then portDown k d
  else d.putCport k { p with miss := p.miss + 1 }

/-- R320: 24 h of link time. -/
def keyAge (k : Nat) (d : Dev) : Dev :=
  let p := d.cport k
  if p.keyed ∧ p.keyAt + 86400000000000 ≤ d.clock.now then rekeyPort k d else d

/-- R324: a TIMING frame leaves every UP and BLOCKED port. -/
def timingLaunch (k : Nat) (d : Dev) : Dev :=
  if d.pstate k = 2 ∨ d.pstate k = 3 then
    let p := d.cport k
    let refused := d.on CREW_STATUS_REFUSED
    let isolated := refused || d.get CREW_STATUS_ROLE == 0
    let upAdv := d.crew.up.bind fun u => (d.cport u).adv
    let own := d.crew.leadSerial == d.fused.serial
    let tbs := if own then d.get TB_STATUS_STATE else (upAdv.map fun a => a.tbState).getD 0
    let bnd := if own then d.get TB_ETE_BOUND_NS_BOUND else (upAdv.map fun a => a.bound).getD 0xFFFFFFFF
    let d := d.putCport k { p with launch := d.clock.now }
    crewSend k 0x01 0 0 [p.arrive, d.crew.leadSerial, d.crew.leadPrio, if isolated then 255 else d.get CREW_STATUS_HOPS,
      b2n (d.isUp k) + 2 * b2n refused, tbs, bnd, d.get CREW_LEVEL_CUR, d.get CREW_LEVEL_SPAN_MIN, d.get CREW_LEVEL_SPAN_MAX,
      d.clock.strokeNo % 2 ^ 32] d
  else d

/-- R329: the lead's roll call at a catch. -/
def rollCatch (d : Dev) : Dev :=
  if !d.isLead then { d with crew := { d.crew with roll := none, rollReq := none } }
  else match d.crew.roll with
  | some r =>
    let left := r.left - 1
    let d := { d with crew := { d.crew with roll := some { r with left := left } } }
    if left = 0 then rollRound d else d
  | none =>
    match d.crew.rollReq, d.crew.result with
    | some t, none => if d.clock.now % 1000000000 = 0 ∧ t + 2 * d.period ≤ d.clock.now then rollRound d else d
    | _, _ => d

/-- R332: a device clears ADMITTED at the catch at which its upstream port leaves UP. `lost`: the port that was the upstream one is not UP,
or there is none any more. -/
def admittedCatch (lost : Bool) (d : Dev) : Dev :=
  let out : Bool := match d.crew.up with | some u => d.pstate u != 2 | none => false
  if d.on CREW_STATUS_ADMITTED ∧ (lost ∨ out) then d.set CREW_STATUS_ADMITTED 0 else d

/-- Step 1 of a catch: frames of the last stroke are gone, and stroke data replaces the table. -/
def crewStep1 (d : Dev) : Dev := sdReplace { d with crew := { d.crew with sent := [] } }

/-- R372, R375: crew timing at a catch with an UP or BLOCKED port. -/
def crewTimingWork (d : Dev) : Dev :=
  let up := (List.range 4).filter fun k => d.pstate k == 2
  if up.isEmpty ∧ (List.range 4).all fun k => d.pstate k != 3 then d
  else keelWork 0 (40 + 12 * (up.filter fun k => !d.isUp k).length) d

/-- The rest of the crew link at a catch. -/
def crewCatch (d : Dev) : Dev :=
  let was := d.crew.up
  let d := forUpTo 4 (fun k d => keyAge k (portCatch k d)) d
  let down : Bool := match was with | some u => d.pstate u != 2 | none => false
  let d := followLevel (blockPorts (elect d))
  let d := admittedCatch (down || (was.isSome && d.crew.up.isNone)) d
  let d := crewRef (rollCatch (ccCatch d))
  crewTimingWork (forUpTo 4 timingLaunch (sdTake d))

/-- R335: at a warm reset the ports go DOWN and retrain. -/
def crewWarm (d : Dev) : Dev := forUpTo 4 (fun k d => portDown k d) d

/-- A roll call completes at the catch that ends this stroke (R332). -/
def Dev.rollDue (d : Dev) : Bool := match d.crew.result with | some r => r.at_ ≤ d.clock.endAt | none => false

end Sys2Proof.Machine
end

