-- ==== Sys2Proof/Machine/Eth.lean ====
section
/-!
DEFINITION. Sys2Proof/Machine/Eth.lean: the Ethernet timing ports, the PTP clock, ESMC and the host frame path (R349–R371).
Stamps and delays are in 2^-16 ns.
-/
namespace Sys2Proof.Machine

def Dev.ethAt (d : Dev) (n : Nat) : Eth := aget {} n d.eth
def Dev.putEth (d : Dev) (n : Nat) (e : Eth) : Dev := { d with eth := awrite {} n e d.eth }

/-- R349: ports present, PCS options available, and modes with PTP and ESMC. -/
def ethPresent (mode n : Nat) : Bool := (mode == 1 && decide (n < 2)) || ((mode == 2 || mode == 3 || mode == 5) && decide (n < 4))
def pcsAvailable (mode pcs : Nat) : Bool := decide (pcs ≤ 2) || mode == 3
def ptpMode (mode : Nat) : Bool := mode == 1 || mode == 2 || mode == 3

/-- Port `n` can run: present, enabled, and its PCS available. -/
def Dev.ethRuns (d : Dev) (n : Nat) : Bool :=
  ethPresent d.mode n && d.on (ETH_CTRL_ENABLE n) && pcsAvailable d.mode (d.get (ETH_CFG_PCS n))

/-- Hand a frame to port `n`; a PTP message carries the AUTHENTICATION TLV when AUTH.EN is 1 (R366). -/
def ethSend (n kind seq : Nat) (words : List Nat) (d : Dev) : Dev :=
  let spp := if kind < 16 ∧ d.on (ETH_AUTH_EN n) then some (d.get (ETH_AUTH_SPP n)) else none
  { d with ethSent := d.ethSent ++ [⟨n, kind, seq, words, spp⟩] }

/-- Picoseconds in 2^-16 ns. -/
def psU (ps : Nat) : Int := divRound ((ps : Int) * 65536) 1000
/-- 2^-16 ns in picoseconds. -/
def uPs (u : Int) : Int := divRound (u * 1000) 65536

/-- R351: the instants at the ball. -/
def Dev.rxBall (d : Dev) (n : Nat) (mii : Nat) : Int := (mii : Int) - psU (d.get (ETH_TS_RX_PS_CORR n))
def Dev.txBall (d : Dev) (n : Nat) (mii : Nat) : Int := (mii : Int) + psU (d.get (ETH_TS_TX_PS_CORR n))

/-! ### Port states and the BMCA (R353, R360) -/

def Dev.ptpState (d : Dev) (n : Nat) : Nat := d.get (ETH_PORT_STATE_STATE n)
def setPtp (n s : Nat) (d : Dev) : Dev :=
  if d.ptpState n = s then d
  else
    let d := if s = 4 then d.putEth n { d.ethAt n with heardAt := d.clock.now } else d
    (d.set (ETH_PORT_STATE_STATE n) s).cause (ETH_IRQ_STAT_PORT_STATE n)

/-- Ports of the ordinary or boundary clock. -/
def Dev.clockPort (d : Dev) (n : Nat) : Bool := d.get (ETH_PTP_CFG_ROLE n) == 1 || d.get (ETH_PTP_CFG_ROLE n) == 2

/-- R353: the lowest-numbered one gives PROFILE and DOMAIN. -/
def Dev.mainPort (d : Dev) : Option Nat := (List.range 4).find? d.clockPort
def Dev.profile (d : Dev) : Nat := match d.mainPort with | some p => d.get (ETH_PTP_CFG_PROFILE p) | none => 0

/-- R353: a port whose profile or domain differs. -/
def Dev.conflict (d : Dev) (n : Nat) : Bool :=
  match d.mainPort with
  | some p => d.clockPort n &&
      (d.get (ETH_PTP_CFG_PROFILE n) != d.get (ETH_PTP_CFG_PROFILE p) || d.get (ETH_PTP_CFG_DOMAIN n) != d.get (ETH_PTP_CFG_DOMAIN p))
  | none => false

/-- A port takes part in the clock now. -/
def Dev.ptpOn (d : Dev) (n : Nat) : Bool :=
  ptpMode d.mode && d.ethRuns n && d.on (ETH_STATUS_LINK n) && d.clockPort n && !d.conflict n

/-- R361: T-GM when no port is in SLAVE or UNCALIBRATED. -/
def Dev.isTgm (d : Dev) : Bool := (List.range 4).all fun n => d.ptpState n != 8 && d.ptpState n != 9
/-- The port in SLAVE or UNCALIBRATED. -/
def Dev.slavePort (d : Dev) : Option Nat := (List.range 4).find? fun n => d.ptpState n == 8 || d.ptpState n == 9

/-- R361: the clockClass announced. -/
def Dev.clockClass (d : Dev) (tgm : Bool) : Nat :=
  match d.get TB_STATUS_STATE, tgm with
  | 2, true => 6
  | 2, false => (match d.slavePort with | some p => d.get (ETH_PARENT_INFO_GM_CLASS p) | none => 6)
  | 3, true => 7
  | 3, false => 135
  | 4, true => if d.profile = 0 then 52 else 140
  | 4, false => 165
  | _, _ => 248

/-- R362: the clockAccuracy announced. -/
def Dev.clockAccuracy (d : Dev) : Nat :=
  let b := d.get TB_ETE_BOUND_NS_BOUND
  if d.get TB_STATUS_STATE = 0 then 0xFE
  else if b ≤ 100 then 0x21 else if b ≤ 250 then 0x22 else if b ≤ 1000 then 0x23 else if b ≤ 2500 then 0x24
  else if b ≤ 10000 then 0x25 else 0xFE

/-- CLK_CFG.PRIO1; under profiles 1 and 2, 128 whatever is written. -/
def Dev.prio1 (d : Dev) : Nat := if d.profile = 0 then d.get ETH_CLK_CFG_PRIO1 else 128

/-- Lexicographic order of lists. -/
def lexLess : List Nat → List Nat → Bool
  | [], [] => false
  | [], _ => true
  | _, [] => false
  | a :: r, b :: s => decide (a < b) || (a == b && lexLess r s)

/-- The comparison key of a data set (IEEE 1588-2019; in profiles 1 and 2 the alternate BMCA of G.8275; log entry 27). -/
def dataKey (profile prio1 cls acc var prio2 lp gm steps id port : Nat) : List Nat :=
  if profile = 0 then [prio1, cls, acc, var, prio2, gm, steps, id, port] else [cls, acc, var, prio2, lp, gm, steps, id, port]

/-- The own clock. -/
def Dev.ownKey (d : Dev) : List Nat :=
  dataKey d.profile d.prio1 (d.clockClass true) d.clockAccuracy Config.clockVariance (d.get ETH_CLK_CFG_PRIO2) 128 d.fused.clockId 0 d.fused.clockId 0

/-- An Announce heard on port `n`. -/
def Dev.annKey (d : Dev) (n : Nat) (a : AnnMsg) : List Nat :=
  dataKey d.profile a.prio1 a.cls a.accuracy a.variance a.prio2 (d.get (ETH_PTP_CFG_LOCAL_PRIO n)) a.gm (a.steps + 1) a.id a.portNo

/-- R360: the mark on clock `id` holds. -/
def Dev.distrusted (d : Dev) (n id : Nat) : Bool := decide (d.clock.now < aget 0 id (d.ethAt n).distrust)

/-- The best Announce of a port. -/
def Dev.portBest (d : Dev) (n : Nat) : Option AnnMsg :=
  (d.ethAt n).anns.foldl (fun best e =>
    if d.distrusted n e.2.id then best
    else match best with
      | some b => if lexLess (d.annKey n e.2) (d.annKey n b) then some e.2 else best
      | none => some e.2) none

/-- The best Announce over the ports that may be slaves. -/
def Dev.clockBest (d : Dev) : Option (Nat × AnnMsg) :=
  (List.range 4).foldl (fun best n =>
    if d.ptpOn n ∧ d.get (ETH_PTP_CFG_ROLE n) = 2 then
      match d.portBest n, best with
      | some a, some (m, b) => if lexLess (d.annKey n a) (d.annKey m b) then some (n, a) else best
      | some a, none => some (n, a)
      | none, _ => best
    else best) none

/-- R353: the state that the BMCA gives port `n`: a port with ROLE 1 never becomes a slave, and a slave-only clock has no
master. -/
def Dev.bmcaState (d : Dev) (n : Nat) : Nat :=
  let master := if d.on ETH_CLK_CFG_SLAVE_ONLY then 4 else 6
  let own := d.ownKey
  let port := d.portBest n
  let beats := match port with | some a => lexLess (d.annKey n a) own | none => false
  if d.clockClass true ≤ 127 ∧ !d.on ETH_CLK_CFG_SLAVE_ONLY then (if beats then 7 else master)
  else match d.clockBest with
  | none => if beats then 7 else master
  | some (m, b) =>
    if !(lexLess (d.annKey m b) own || d.on ETH_CLK_CFG_SLAVE_ONLY) then (if beats then 7 else master)
    else if m = n then (if d.ptpState n = 9 ∧ (d.ethAt n).parent = some b.id then 9 else 8)
    else match port with
      | some a => if lexLess (d.annKey n a) own && !lexLess (d.annKey m b) (d.annKey n a) then 7
                  else if a.gm = b.gm ∧ lexLess (d.annKey n a) own then 7 else master
      | none => master

/-- The parent of a slave port changes: PARENT registers and cause; after a different clock Keel restarts the tracker (R360). -/
def setParent (n : Nat) (a : AnnMsg) (d : Dev) : Dev :=
  let e := d.ethAt n
  let d := (d.set (ETH_PARENT_INFO_GM_CLASS n) a.cls).set (ETH_PARENT_INFO_STEPS n) (min a.steps 255)
  let d := ((d.set (ETH_PARENT_INFO_PORT_NO n) a.portNo).set (ETH_PARENT_LO_ID_LO n) a.id).set (ETH_PARENT_HI_ID_HI n) (a.id / 2 ^ 32)
  if e.parent = some a.id then d
  else
    let d := (d.cause (ETH_IRQ_STAT_PARENT n)).putEth n
      { e with parent := some a.id, parent0 := some a.id, delays := [], ms := none, syncs := [], delayReqs := [] }
    if e.parent0.isSome ∧ e.parent0 ≠ some a.id ∧ d.on (ETH_PTP_CFG_TRK_EN n) then trkRestart (d.get (ETH_PTP_CFG_TRK n)) d else d

/-- The BMCA over all ports (R353). A port in LISTENING that has heard nothing stays there until its receipt timeout, which `free` names. -/
def bmca (free : Option Nat) (d : Dev) : Dev :=
  let choice := (List.range 4).map fun n =>
    if !d.ptpOn n ∨ (d.ptpState n = 4 ∧ (d.portBest n).isNone ∧ free ≠ some n) then d.ptpState n else d.bmcaState n
  let best := d.clockBest
  forUpTo 4 (fun n d =>
    let s := choice.getD n 3
    let d := setPtp n s d
    if s = 8 ∨ s = 9 then (match best with | some (m, a) => if m = n then setParent n a d else d | none => d)
    else d.putEth n { d.ethAt n with parent := none }) d

/-- Link, role and configuration give the states outside the BMCA (R353, R370). -/
def ptpEnter (n : Nat) (d : Dev) : Dev :=
  let conf := d.conflict n
  let d := if conf ∧ !(d.ethAt n).conf then d.cause (ETH_IRQ_STAT_PROFILE_CONFLICT n) else d
  let d := d.putEth n { d.ethAt n with conf := conf }
  if d.ptpOn n then (if d.ptpState n = 3 ∨ d.ptpState n = 2 ∨ d.ptpState n = 1 then setPtp n 4 d else d)
  else setPtp n 3 (d.putEth n { d.ethAt n with anns := [], annAt := [], parent := none, syncs := [], delayReqs := [], delays := [], ms := none })

/-! ### The link (R349, R352) -/

def setLink (n : Nat) (up : Bool) (d : Dev) : Dev :=
  let d := if d.on (ETH_STATUS_LINK n) = up then d else (d.setB (ETH_STATUS_LINK n) up).cause (ETH_IRQ_STAT_LINK n)
  ptpEnter n d

/-- ETH_LINK_CHANGE: the link comes up or goes down; the receive clock is good while the port holds block lock. -/
def linkChange (n : Nat) (up rxclk : Bool) (d : Dev) : Dev :=
  if d.ethRuns n then setLink n up (d.setB (ETH_STATUS_RXCLK_OK n) (up || rxclk))
  else setLink n false (d.set (ETH_STATUS_RXCLK_OK n) 0)

/-- ETH_RETRAIN: the link restarts at the next catch. -/
def ethRetrain (n : Nat) (d : Dev) : Dev := d.putEth n { d.ethAt n with retrain := (d.ethAt n).retrain.ask d.inFinish }

/-- R352: the correction defaults of a PCS and FEC setting. -/
def tsDefaults (pcs fec : Nat) : Nat × Nat :=
  if pcs ≤ 1 then (146400, 215200) else if pcs = 2 then (38720, 52480) else if fec = 0 then (22160, 31840) else (41360, 118720)

/-! ### Received PTP messages (R353, R355, R364–R366) -/

/-- R366: a discard for authentication. -/
def authFail (n : Nat) (d : Dev) : Dev :=
  ((d.inc (ETH_COUNTS_A_AUTH_FAIL_CNT n)).cause (ETH_IRQ_STAT_AUTH n)).cause TRUST_IRQ_STAT_AUTH

/-- R366: a message passes authentication; a TLV must name an association in force (R486). -/
def Dev.authOk (d : Dev) (n : Nat) (auth : Option PtpAuth) : Bool :=
  !d.on (ETH_AUTH_EN n) || (match auth with
    | none => !d.on (ETH_AUTH_REQUIRE n)
    | some t => t.form && t.icv && d.trust.saLive.contains (t.spp, t.keyId))

/-- R364: a discard for its generation. -/
def genLost (n : Nat) (d : Dev) : Dev := (d.inc (ETH_COUNTS_A_GEN_DISCARD_CNT n)).cause (ETH_IRQ_STAT_GEN n)

/-- R369: refill of the token bucket of port `n`, in 1/1000 bit: RATE_MBPS bits per µs up to 16 KiB. -/
def tokenFill (n : Nat) (d : Dev) : Dev :=
  let e := d.ethAt n
  let now := d.clock.now
  d.putEth n { e with tokens := min 131072000 (e.tokens + (now - e.tokenAt) * d.get (ETH_HOST_CFG_RATE_MBPS n)), tokenAt := now }

/-- Take a frame's bits from the bucket, if it holds them. -/
def tokenTake (n bytes : Nat) (d : Dev) : Bool × Dev :=
  let d := tokenFill n d
  let e := d.ethAt n
  let need := bytes * 8000
  if need ≤ e.tokens then (true, d.putEth n { e with tokens := e.tokens - need }) else (false, d)

/-- R369: a frame for the host path, as bytes. It crosses fabric port 6 to bank 10 (log entry 99). -/
def hostFrame (n : Nat) (bytes : List Nat) (d : Dev) : Dev :=
  if !(d.ethRuns n && d.on (ETH_STATUS_LINK n) && d.on (ETH_HOST_CFG_RX_EN n)) then d
  else
    let r := tokenTake n bytes.length d
    if r.1 then fabCarry .eth 0x1D00000 bytes.length (r.2.putEth n { r.2.ethAt n with rx := (r.2.ethAt n).rx ++ [bytes] })
    else (r.2.inc (ETH_COUNTS_B_HOST_DROP_CNT n)).cause (ETH_IRQ_STAT_HOST_DROP n)

/-- R372, R375: Keel's class and cost for a received PTP message of a kind. -/
def ptpRxWork (kind : Nat) (d : Dev) : Dev :=
  match kind with
  | 0 => keelWork 1 400 d | 8 => keelWork 1 300 d | 1 => keelWork 1 280 d | 9 => keelWork 1 380 d
  | 11 => keelWork 3 2400 d | 12 => keelWork 3 1200 d | _ => d

/-- R372, R375: the same for one that is sent. -/
def ptpTxWork (kind : Nat) (d : Dev) : Dev :=
  match kind with
  | 0 => keelWork 1 350 d | 8 => keelWork 1 250 d | 1 => keelWork 1 300 d | 9 => keelWork 1 320 d
  | 11 => keelWork 3 900 d | 12 => keelWork 3 800 d | _ => d

/-- R355: key of an event message that the transparent clock has forwarded. -/
def fwdKey (kind : Nat) (h : PtpHdr) : Nat := (kind * 256 + h.domain % 256) * 65536 + h.seq % 65536

/-- R355: the transparent clock forwards a message out of every other port of the same domain; `kind` is its messageType. -/
def tcForward (kind : Nat) (h : PtpHdr) (d : Dev) : Dev :=
  let n := h.port
  let event := kind == 0 || kind == 1
  let ok := match kind with
    | 8 => aget 0 (fwdKey 0 h) d.ethFwd != 0
    | 9 => aget 0 (fwdKey 1 h) d.ethFwd != 0
    | _ => true
  if !ok then d
  else
    let d := if event then { d with ethFwd := awrite 0 (fwdKey kind h) (n + 1) d.ethFwd }
      else if kind = 8 then { d with ethFwd := awrite 0 (fwdKey 0 h) 0 d.ethFwd }
      else if kind = 9 then { d with ethFwd := awrite 0 (fwdKey 1 h) 0 d.ethFwd } else d
    let inAt := (d.rxBall n h.mii).toNat
    forUpTo 4 (fun m d =>
      if m ≠ n ∧ d.get (ETH_PTP_CFG_ROLE m) = 3 ∧ d.get (ETH_PTP_CFG_DOMAIN m) = h.domain ∧ d.ethRuns m ∧ d.on (ETH_STATUS_LINK m) then
        ethSend m kind h.seq [inAt, d.get (ETH_PTP_CFG_TWO_STEP m)] d else d) d

/-- R350: a frame with two or more IEEE 802.1Q tags: customer or service tags (PRESUMED, log entry 101). -/
def twoTags (bytes : List Nat) : Bool :=
  let tag (i : Nat) : Bool := (bytes.getD i 0 == 0x81 && bytes.getD (i + 1) 0 == 0) || (bytes.getD i 0 == 0x88 && bytes.getD (i + 1) 0 == 0xA8)
  tag 12 && tag 16

/-- A PTP message of type `kind` on a port: another domain's, or one with two tags (R350), goes to the host (R369); the transparent clock
forwards it; the clock's own go to `f`. -/
def onPtp (kind : Nat) (h : PtpHdr) (d : Dev) (f : Dev → Dev) : Dev :=
  let n := h.port
  if 4 ≤ n ∨ !d.ethRuns n ∨ !d.on (ETH_STATUS_LINK n) then d
  else if !ptpMode d.mode ∨ d.get (ETH_PTP_CFG_ROLE n) = 0 ∨ d.get (ETH_PTP_CFG_DOMAIN n) ≠ h.domain ∨ twoTags h.bytes then
    hostFrame n h.bytes d
  else
    if !d.authOk n h.auth then authFail n d
    else if d.get (ETH_PTP_CFG_ROLE n) = 3 then tcForward kind h (keelWork 1 220 d)
    else if d.ptpOn n then f (ptpRxWork kind d) else d

/-! ### The offset measurement (R356, R357, R359) -/

/-- Mean, rounded to the nearest unit. -/
def meanOf (l : List Int) : Int := divRound (l.foldl (· + ·) 0) (max 1 l.length)

/-- R356: the mean of the last 2^DAVG_LOG2 delays. -/
def Dev.pathDelay (d : Dev) (n : Nat) : Option Int :=
  match (d.ethAt n).delays with
  | [] => none
  | l => some (meanOf (l.take (2 ^ d.get (ETH_PTP_CFG_DAVG_LOG2 n))))

/-- R357, R359: one offset goes to the tracker that the port feeds. -/
def feedOffset (n : Nat) (t2 offset : Int) (d : Dev) : Dev :=
  if !d.on (ETH_PTP_CFG_TRK_EN n) then d
  else
    let k := d.get (ETH_PTP_CFG_TRK n)
    let e := d.ethAt n
    if d.get (TRK_STATE_STATE k) = 0 then d
    else if e.first ∧ d.get TB_STATUS_STATE = 0 ∧ 1000000 * 65536 ≤ offset.natAbs then
      { d.putEth n { e with first := false } with tb := { d.tb with
          tset := some (((d.clock.now : Int) - divRound offset 65536).toNat, d.clock.now), tsetDone := true } }
    else
      let rev := d.anchoredRev k t2
      let next := e.nextRev.getD rev
      if rev < next then (d.putEth n { e with first := false }).inc (ETH_COUNTS_B_LATE_MEAS n)
      else d.putEth n { e with first := false, meas := e.meas ++ [(rev, offset)], nextRev := some next }

/-- R356: a Sync completes. -/
def syncDone (n : Nat) (t1 t2 cs : Int) (d : Dev) : Dev :=
  let ms := t2 - t1 - cs
  let d := d.putEth n { d.ethAt n with ms := some ms }
  match d.pathDelay n with
  | none => d
  | some delay =>
    let offset := ms - delay
    let d := d.setsSat (ETH_OFFSET_PS_OFFSET n) (uPs offset)
    let d := if d.ptpState n = 8 then setPtp n 9 d else d
    feedOffset n t2 offset d

/-- The port is in SLAVE or UNCALIBRATED. -/
def Dev.isSlave (d : Dev) (n : Nat) : Bool := d.ptpState n == 8 || d.ptpState n == 9

/-- PTP_SYNC_RX: a one-step Sync completes at once; a two-step one opens its record (R356, R364). -/
def ptpSync (h : PtpHdr) (t1 cs : Int) (twoStep : Bool) (d : Dev) : Dev :=
  onPtp 0 h d fun d =>
    let n := h.port
    if !d.isSlave n then d
    else
      let t2 := d.rxBall n h.mii
      let i := h.seq % 4096
      if twoStep then d.putEth n { d.ethAt n with syncs := aput i ⟨h.seq / 4096 % 16, t2, cs⟩ (d.ethAt n).syncs }
      else syncDone n t1 t2 cs (d.putEth n { d.ethAt n with syncs := adel i (d.ethAt n).syncs })

/-- PTP_FOLLOW_UP_RX (R364). -/
def ptpFollowUp (h : PtpHdr) (t1 cs : Int) (d : Dev) : Dev :=
  onPtp 8 h d fun d =>
    let n := h.port
    let i := h.seq % 4096
    match (d.ethAt n).syncs.find? fun e => e.1 == i with
    | some (_, r) =>
      if r.gen = h.seq / 4096 % 16 then syncDone n t1 r.t2 (r.cs + cs) (d.putEth n { d.ethAt n with syncs := adel i (d.ethAt n).syncs })
      else genLost n d
    | none => genLost n d

/-- PTP_DELAY_REQ_RX: a master answers with its receive stamp t4. -/
def ptpDelayReq (h : PtpHdr) (d : Dev) : Dev :=
  onPtp 1 h d fun d =>
    let n := h.port
    if d.ptpState n = 6 then ptpTxWork 9 (ethSend n 9 h.seq [(d.rxBall n h.mii).toNat] d) else d

/-- PTP_DELAY_RESP_RX: a delay sample (R356, R364). -/
def ptpDelayResp (h : PtpHdr) (t4 cd : Int) (d : Dev) : Dev :=
  onPtp 9 h d fun d =>
    let n := h.port
    let i := h.seq % 4096
    match (d.ethAt n).delayReqs.find? fun e => e.1 == i with
    | some (_, r) =>
      if r.gen = h.seq / 4096 % 16 then
        let e := d.ethAt n
        let d := d.putEth n { e with delayReqs := adel i e.delayReqs }
        match e.ms with
        | none => d
        | some ms =>
          let e := d.ethAt n
          let d := d.putEth n { e with delays := ((ms + (t4 - r.t3 - cd)) / 2 :: e.delays).take 128 }
          (match d.pathDelay n with | some p => d.setsSat (ETH_PATH_PS_DELAY n) (uPs p) | none => d)
      else genLost n d
    | none => genLost n d

/-- PTP_ANNOUNCE_RX: the BMCA runs; the parent's UTC fields wait for the catch (R353, R363). -/
def ptpAnnounce (h : PtpHdr) (a : AnnMsg) (d : Dev) : Dev :=
  onPtp 11 h d fun d =>
    let n := h.port
    if d.distrusted n a.id then d
    else
      let e := d.ethAt n
      let d := bmca none (d.putEth n { e with anns := aput a.id a e.anns, annAt := aput a.id d.clock.now e.annAt, heardAt := d.clock.now })
      let e := d.ethAt n
      if d.ptpState n = 9 ∧ e.parent = some a.id ∧ d.on (ETH_PTP_CFG_LEAP_FOLLOW n) ∧ a.utcValid then d.putEth n { e with utc := some a } else d

/-- PTP_SIGNALING_RX: unicast negotiation of profile 2: a master port grants the request. -/
def ptpSignaling (h : PtpHdr) (d : Dev) : Dev :=
  onPtp 12 h d fun d => if d.get (ETH_PTP_CFG_PROFILE h.port) = 2 ∧ d.ptpState h.port = 6 then ptpTxWork 12 (ethSend h.port 12 h.seq [] d) else d

/-- PDELAY_RX (R353). -/
def ptpPdelay (h : PtpHdr) (d : Dev) : Dev :=
  if 4 ≤ h.port ∨ !d.ethRuns h.port ∨ !d.on (ETH_STATUS_LINK h.port) ∨ !ptpMode d.mode then d
  else d.inc (ETH_COUNTS_B_UNSUPP_CNT h.port)

/-- R360: a quarantine of the tracker distrusts the parent for the hold time. -/
def parentDistrust (n : Nat) (d : Dev) : Dev :=
  let k := d.get (ETH_PTP_CFG_TRK n)
  let e := d.ethAt n
  match e.parent, (d.trkAt k).holdEnd with
  | some id, some t =>
    if d.on (ETH_PTP_CFG_TRK_EN n) ∧ d.get (TRK_STATE_STATE k) = 5 ∧ aget 0 id e.distrust = 0 then
      let d := d.putEth n { e with distrust := aput id t e.distrust, anns := adel id e.anns, annAt := adel id e.annAt }
      bmca none ((d.set (ETH_PORT_STATE_PARENT_DISTRUST n) 1).cause (ETH_IRQ_STAT_PARENT n))
    else d
  | _, _ => d

/-- The mark ends with the hold time. -/
def distrustEnd (n : Nat) (d : Dev) : Dev :=
  let e := d.ethAt n
  let l := e.distrust.filter fun x => decide (d.clock.now < x.2)
  if l.length = e.distrust.length then d
  else (d.putEth n { e with distrust := l }).setB (ETH_PORT_STATE_PARENT_DISTRUST n) (!l.isEmpty)

/-- PTP_MEASUREMENT_TOOTH: the revolution's mean offset is one edge of the tracker, decided at once; none is a missing tooth. -/
def measurementTooth (n : Nat) (d : Dev) : Dev :=
  let k := d.get (ETH_PTP_CFG_TRK n)
  let e := d.ethAt n
  match e.nextRev with
  | none => d
  | some rev =>
    if !d.on (ETH_PTP_CFG_TRK_EN n) then d
    else
      let l := (e.meas.filter fun x => x.1 == rev).map fun x => x.2
      let d := d.putEth n { e with meas := e.meas.filter fun x => decide (rev < x.1), nextRev := some (rev + 1) }
      let d := if l.isEmpty then d else trkEdge k (d.anchoredTime k rev 0 + meanOf l) (!d.on (TRK_CFG_EDGE k)) 0 d
      if (d.trkAt k).cand.isSome then toothDecision k 0 d
      else if (d.trkAt k).expRev ≤ rev.toNat then syntheticTooth k d else d

/-- R357: the end of the revolution presented next plus RESP_WAIT_MS, in ns. -/
def Dev.measDue (d : Dev) (n : Nat) : Option Int :=
  match (d.ethAt n).nextRev with
  | none => none
  | some rev => some (d.anchoredTime (d.get (ETH_PTP_CFG_TRK n)) (rev + 1) 0 / 65536 + ((d.get (ETH_PTP_RATE_RESP_WAIT_MS n) * 1000000 : Nat) : Int))

/-- Every revolution due at a catch, at most `fuel`. -/
def measCatch (n : Nat) : Nat → Dev → Dev
  | 0, d => d
  | fuel + 1, d =>
    match d.measDue n with
    | none => d
    | some t => if t ≤ (d.clock.now : Int) ∧ d.on (ETH_PTP_CFG_TRK_EN n) then measCatch n fuel (measurementTooth n d) else d

/-! ### Sent messages (R354, R356, R361–R363) -/

/-- SYNC_LAUNCH: a Sync crosses the MII in this cycle. With TWO_STEP 0 it carries its egress stamp; with 1 a Follow_Up does. -/
def syncLaunch (n : Nat) (d : Dev) : Dev :=
  if d.ptpOn n ∧ d.ptpState n = 6 then
    let e := d.ethAt n
    let out := (d.txBall n (d.clock.now * 65536)).toNat
    let d := d.putEth n { e with syncSeq := (e.syncSeq + 1) % 65536 }
    if d.on (ETH_PTP_CFG_TWO_STEP n) then
      ptpTxWork 8 (ptpTxWork 0 (ethSend n 8 e.syncSeq [out] (ethSend n 0 e.syncSeq [0, 1] d)))
    else ptpTxWork 0 (ethSend n 0 e.syncSeq [out, 0] d)
  else d

/-- R354: the catch at `now` is the first at or after a multiple of the interval, the one before being at `before`. -/
def intervalDue (interval before now : Nat) : Bool := decide (before / interval < now / interval) || now % interval == 0

/-- DELAY_REQ_LAUNCH: a slave's Delay_Req crosses the MII at `mii`; its record opens with t3. -/
def delayReqLaunch (n mii : Nat) (d : Dev) : Dev :=
  if d.ptpOn n ∧ d.isSlave n then
    let e := d.ethAt n
    let q := e.reqSeq
    let d := d.putEth n { e with reqSeq := (q + 1) % 65536, delayReqs := aput (q % 4096) ⟨q / 4096, d.txBall n mii⟩ e.delayReqs }
    ptpTxWork 1 (ethSend n 1 q [] d)
  else d

/-- ANNOUNCE_LAUNCH (R361, R362), with ptpTimescale 1. -/
def announceLaunch (n : Nat) (d : Dev) : Dev :=
  if d.ptpOn n ∧ d.ptpState n = 6 then
    let e := d.ethAt n
    let st := d.get TB_STATUS_STATE
    let leap := d.on TB_LEAP_CFG_PENDING
    let dir := d.on TB_LEAP_CFG_DIR
    ptpTxWork 11 <| ethSend n 11 e.annSeq
      [d.clockClass d.isTgm, d.clockAccuracy, d.prio1, d.get ETH_CLK_CFG_PRIO2, d.get ETH_CLK_CFG_TIME_SOURCE, d.get TB_UTC_OFFSET_OFFSET_S,
       1, b2n (st == 2 || st == 3), b2n (leap && !dir), b2n (leap && dir)] (d.putEth n { e with annSeq := (e.annSeq + 1) % 65536 })
  else d

/-- PTP_RATE.ANN_TMO intervals of port `n`, in ns. -/
def Dev.annTmo (d : Dev) (n : Nat) : Nat := d.get (ETH_PTP_RATE_ANN_TMO n) * logNs (d.gets (ETH_PTP_RATE_LOG_ANN n))

/-- The next announce receipt timeout of port `n`: of a clock heard, or of the port in LISTENING. -/
def Dev.annLimit (d : Dev) (n : Nat) : Option Nat :=
  if d.ptpOn n then
    let e := d.ethAt n
    let first (l : Option Nat) (t : Nat) : Option Nat := some (match l with | some x => min x t | none => t)
    (e.annAt.foldl (fun l (x : Nat × Nat) => first l x.2) (if d.ptpState n = 4 then some e.heardAt else none)).map (· + d.annTmo n)
  else none

/-- ANNOUNCE_TIMEOUT: what the port has heard too long ago expires and the BMCA runs. -/
def announceTimeout (n : Nat) (d : Dev) : Dev :=
  let e := d.ethAt n
  let old := (e.annAt.filter fun x => decide (x.2 + d.annTmo n ≤ d.clock.now)).map Prod.fst
  let free := if d.ptpState n = 4 ∧ e.heardAt + d.annTmo n ≤ d.clock.now then some n else none
  bmca free (d.putEth n { e with
    anns := e.anns.filter fun x => !old.contains x.1, annAt := e.annAt.filter fun x => !old.contains x.1
    heardAt := if free.isSome then d.clock.now else e.heardAt })

/-- R363: the UTC fields of the parent's Announce at the catch. -/
def utcUpdate (n : Nat) (d : Dev) : Dev :=
  match (d.ethAt n).utc with
  | none => d
  | some a =>
    let d := keelWork 3 150 ((d.putEth n { d.ethAt n with utc := none }).sets TB_UTC_OFFSET_OFFSET_S a.utc)
    if a.leap61 ∨ a.leap59 then
      let utc : Int := ((d.clock.now / 1000000000 : Nat) : Int) - a.utc
      let at_ := ((utc / 86400 + 1) * 86400 + a.utc).toNat
      let d := (d.set TB_LEAP_CFG_PENDING 1).setB TB_LEAP_CFG_DIR (a.leap59 && !a.leap61)
      (d.set TB_LEAP_TAI_LO_SEC_LO at_).set TB_LEAP_TAI_HI_SEC_HI (at_ / 2 ^ 32)
    else d

/-! ### ESMC (R367, R368) -/

/-- Port `n` feeds a frequency reference that the timebase selects. -/
def Dev.synceRef (d : Dev) (n : Nat) : Bool :=
  (d.on TB_REF_SEL_CNTF0_EN && d.get (CNT_CFG_SRC (d.get TB_REF_SEL_CNTF0)) == 8 + n) ||
  (d.on TB_REF_SEL_CNTF1_EN && d.get (CNT_CFG_SRC (d.get TB_REF_SEL_CNTF1)) == 8 + n)

/-- The port whose SyncE reference is qualified. -/
def Dev.synceQual (d : Dev) : Option Nat :=
  ([(TB_REF_SEL_CNTF0_EN, TB_REF_SEL_CNTF0), (TB_REF_SEL_CNTF1_EN, TB_REF_SEL_CNTF1)].findSome? fun x =>
    let c := d.get x.2
    let src := d.get (CNT_CFG_SRC c)
    if d.on x.1 ∧ 8 ≤ src ∧ src ≤ 11 ∧ d.cntRef c then some (src - 8) else none)

/-- R368: the SSM and eSSM that port `n` sends. -/
def Dev.qlSend (d : Dev) (n : Nat) : Nat × Nat :=
  if d.on (ETH_ESMC_CFG_OVR_EN n) then (d.get (ETH_ESMC_CFG_OVR_SSM n), d.get (ETH_ESMC_CFG_OVR_ESSM n))
  else if d.synceRef n then (0xF, 0xFF)
  else
    let locked := d.get TB_STATUS_STATE == 2
    match d.synceQual with
    | some p => if locked then (d.get (ETH_ESMC_STAT_SSM_RX p), d.get (ETH_ESMC_STAT_ESSM_RX p))
                else (0xB, if d.on (ETH_ESMC_CFG_EXT_TLV n) then 0x22 else 0xFF)
    | none => if locked ∧ d.isTgm then (0x2, 0x20) else (0xB, if d.on (ETH_ESMC_CFG_EXT_TLV n) then 0x22 else 0xFF)

/-- R368: the QL sent; a change sends an event PDU. A port that has not begun to send ESMC shows its reset values. -/
def qlUpdate (n : Nat) (d : Dev) : Dev :=
  if !d.on (ETH_ESMC_CFG_ESMC_TX n) ∨ !ptpMode d.mode ∨ !d.ethRuns n then d
  else
    let q := d.qlSend n
    if d.get (ETH_ESMC_STAT_SSM_TX n) = q.1 ∧ d.get (ETH_ESMC_STAT_ESSM_TX n) = q.2 then d
    else keelWork 3 500 <| ethSend n 17 0 [q.1, q.2] ((d.set (ETH_ESMC_STAT_SSM_TX n) q.1).set (ETH_ESMC_STAT_ESSM_TX n) q.2)

/-- ESMC_PDU_RX: a valid PDU with its eSSM when it carries the TLV. -/
def esmcRx (n ssm : Nat) (essm : Option Nat) (d : Dev) : Dev :=
  if d.ethRuns n ∧ d.on (ETH_STATUS_LINK n) ∧ ptpMode d.mode then
    let e := (essm.getD 0xFF) % 256
    let chg := d.get (ETH_ESMC_STAT_SSM_RX n) ≠ ssm % 16 ∨ d.get (ETH_ESMC_STAT_ESSM_RX n) ≠ e
    let d := keelWork 3 700 (d.putEth n { d.ethAt n with esmcFrom := d.clock.now })
    let d := ((d.set (ETH_STATUS_ESMC_FAILED n) 0).set (ETH_ESMC_STAT_SSM_RX n) ssm).set (ETH_ESMC_STAT_ESSM_RX n) e
    let d := if chg then d.cause (ETH_IRQ_STAT_QL n) else d
    forUpTo 4 qlUpdate d
  else d

/-- ESMC_INFO_PDU. -/
def esmcInfo (n : Nat) (d : Dev) : Dev :=
  if d.on (ETH_ESMC_CFG_ESMC_TX n) ∧ ptpMode d.mode ∧ d.ethRuns n then
    let d := qlUpdate n d
    keelWork 3 500 <| ethSend n 16 0 [d.get (ETH_ESMC_STAT_SSM_TX n), d.get (ETH_ESMC_STAT_ESSM_TX n)] d
  else d

/-- Port `n` will have received no valid PDU for 5 s. -/
def Dev.esmcLimit (d : Dev) (n : Nat) : Option Nat :=
  if ptpMode d.mode && d.ethRuns n && !d.on (ETH_STATUS_ESMC_FAILED n) then some ((d.ethAt n).esmcFrom + 5000000000) else none

/-- ESMC_TIMEOUT: no valid PDU for 5 s. -/
def esmcTimeout (n : Nat) (d : Dev) : Dev :=
  if ptpMode d.mode ∧ d.ethRuns n then forUpTo 4 qlUpdate ((d.set (ETH_STATUS_ESMC_FAILED n) 1).cause (ETH_IRQ_STAT_QL n)) else d

/-! ### Host frames, reads, catch, warm reset -/

/-- HOST_FRAME_SENT (R369, R419): the oldest host frame leaves under the rate limit and its transmit slot becomes free. -/
def hostFrameSent (n : Nat) (d : Dev) : Dev :=
  match (d.ethAt n).tx with
  | [] => d
  | f :: _ =>
    let r := tokenTake n f.length d
    if r.1 then fabCarry .eth 0x1D00000 f.length (ethSend n 18 0 f (r.2.putEth n { r.2.ethAt n with tx := (r.2.ethAt n).tx.tail })) else r.2

/-- A read of PARENT_LO latches PARENT_HI and PARENT_INFO (R371). -/
def parentLoRead (m : Master) (n : Nat) (d : Dev) : Nat × Dev :=
  let info := d.get (ETH_PARENT_INFO_GM_CLASS n) + 256 * d.get (ETH_PARENT_INFO_STEPS n) + 65536 * d.get (ETH_PARENT_INFO_PORT_NO n)
  (d.get (ETH_PARENT_LO_ID_LO n), (d.latchTo m (0x9003c + 0x4000 * n) (d.get (ETH_PARENT_HI_ID_HI n))).latchTo m (0x90040 + 0x4000 * n) info)

/-- A read of CLK_ID_LO latches CLK_ID_HI (R371). -/
def clkIdLoRead (m : Master) (d : Dev) : Nat × Dev :=
  (d.fused.clockId % 2 ^ 32, d.latchTo m 0x90208 (d.fused.clockId / 2 ^ 32 % 2 ^ 32))

/-- Port `n` at a catch; Announces and ESMC information PDUs leave, as Syncs do, at the first catch of each interval (log entry 36).
`pcsChg` tells that the catch changed PCS or FEC, `txW` and `rxW` that it wrote the corrections, and `before` is the device time of the
catch before. -/
def ethCatch (n before : Nat) (pcsChg txW rxW : Bool) (d : Dev) : Dev :=
  let e := d.ethAt n
  let pcs := d.get (ETH_CFG_PCS n)
  let ts := tsDefaults pcs (d.get (ETH_CFG_FEC n))
  let d := if pcsChg ∧ !txW then d.set (ETH_TS_TX_PS_CORR n) ts.1 else d
  let d := if pcsChg ∧ !rxW then d.set (ETH_TS_RX_PS_CORR n) ts.2 else d
  let d := d.setB (ETH_STATUS_SPEED_NA n) (ethPresent d.mode n && !pcsAvailable d.mode pcs)
  let restart := pcsChg || e.retrain.soon
  let d := d.putEth n { e with
    retrain := e.retrain.age, esmcFrom := if d.ethRuns n then e.esmcFrom else d.clock.now,
    first := e.first || d.get (TRK_STATE_STATE (d.get (ETH_PTP_CFG_TRK n))) == 0,
    meas := if d.on (ETH_PTP_CFG_TRK_EN n) then e.meas else [], nextRev := if d.on (ETH_PTP_CFG_TRK_EN n) then e.nextRev else none }
  let d := if restart ∨ !d.ethRuns n then setLink n false (d.set (ETH_STATUS_RXCLK_OK n) 0) else ptpEnter n d
  let d := distrustEnd n (parentDistrust n d)
  let d := qlUpdate n (measCatch n 64 (utcUpdate n d))
  let due (interval : Nat) : Bool := intervalDue interval before d.clock.now
  let d := if due (logNs (d.gets (ETH_PTP_RATE_LOG_SYNC n))) then syncLaunch n d else d
  let d := if due (logNs (d.gets (ETH_PTP_RATE_LOG_ANN n))) then announceLaunch n d else d
  if due 1000000000 then esmcInfo n d else d

/-- R370: at a warm reset Keel's port states restart in LISTENING with their records closed. -/
def ethWarm (n : Nat) (d : Dev) : Dev :=
  let e := d.ethAt n
  let d := d.putEth n { e with syncs := [], delayReqs := [], delays := [], ms := none, anns := [], annAt := [], parent := none, meas := [], nextRev := none, utc := none }
  if d.ptpState n = 3 then d else setPtp n 4 d

end Sys2Proof.Machine
end

