-- ==== Sys2Proof/Machine/DmaCtl.lean ====
section
/-!
DEFINITION. Sys2Proof/Machine/DmaCtl.lean: DMA channels and check units: states, claims, pacing, descriptor checks and
completion (R410–R433). Bursts and scans, which access registers, are in Dma.lean.
-/
namespace Sys2Proof.Machine

def Dev.dmaAt (d : Dev) (c : Nat) : Dma := aget {} c d.dma
def Dev.putDma (d : Dev) (c : Nat) (x : Dma) : Dev := { d with dma := awrite {} c x d.dma }
def Dev.scanAt (d : Dev) (n : Nat) : ChkScan := aget {} n d.chk
def Dev.putScan (d : Dev) (n : Nat) (x : ChkScan) : Dev := { d with chk := awrite {} n x d.chk }

/-- Set a channel's state and its bit of DMA.ACTIVE. -/
def dmaState (c s : Nat) (d : Dev) : Dev := (d.set (DMA_STATUS_STATE c) s).putBit DMA_ACTIVE_ACTIVE c (s != 0)

/-! ### Fields of a descriptor (R412, R413) -/

def DmaDesc.srcMode (x : DmaDesc) : Nat := bits x.ctrl 0 2
def DmaDesc.dstMode (x : DmaDesc) : Nat := bits x.ctrl 2 2
def DmaDesc.chkOp (x : DmaDesc) : Nat := bits x.ctrl 4 2
def DmaDesc.unit (x : DmaDesc) : Nat := bits x.ctrl 6 2
def DmaDesc.irq (x : DmaDesc) : Bool := bit x.ctrl 8
def DmaDesc.keepChk (x : DmaDesc) : Bool := bit x.ctrl 9
def DmaDesc.hold (x : DmaDesc) : Bool := bit x.ctrl 10
def DmaDesc.xfer (x : DmaDesc) : Nat := bits x.ctrl 11 2

/-- R413: byte `i` of an end in its address mode. -/
def modeAddr (mode a i : Nat) : Nat :=
  match mode with
  | 0 => a + i
  | 1 => a - a % 4 + i % 4
  | _ => a - a % 32 + (a + i) % 32

/-- Bytes of RESULT of a check unit (R429). -/
def Dev.chkWidth (d : Dev) (n : Nat) : Nat := crcWidth (d.get (CHK_CFG_CODE n)) / 8

/-! ### Reach (R411) -/

/-- One 64 KiB granule of the address space. -/
def granuleOk (d : Dev) (write : Bool) (g : Nat) : Bool :=
  if g < 0x17 then !(g == 0xA || g == 0xC || g == 0xD || g == 0x11 || g == 0x12 || g == 0x14 || g == 0x15)
  else if g < 0x100 then false
  else if g < 0x180 then true
  else if g < 0x1C0 then !write
  else if g < 0x1D0 then false
  else if g < 0x200 then true
  else if g < 0x8000 then false
  else d.dramMapped (g * 65536)

/-- R411: every byte of `n` bytes from `a` may be addressed. -/
def Dev.reach (d : Dev) (write : Bool) (a n : Nat) : Bool :=
  let g0 := a / 65536
  let g1 := (a + n - 1) / 65536
  let slots := write && ((List.range 2).any fun s =>
    let b := d.get (if s = 0 then RIG_SLOT_BASE_A_BASE else RIG_SLOT_BASE_B_BASE)
    decide (a < b + 0x400000) && decide (b < a + n))
  n == 0 || (!slots && (List.range (g1 - g0 + 1)).all fun i => granuleOk d write (g0 + i))

/-- R413, R414: an end of a descriptor that moves `n` bytes can be reached. -/
def Dev.endOk (d : Dev) (write : Bool) (mode a n : Nat) : Bool :=
  let aligned := !(decide (a < 0x170000)) || a % 4 == 0
  aligned && (match mode with
    | 0 => d.reach write a n
    | 1 => d.reach write (a - a % 4) 4
    | _ => d.reach write (a - a % 32) 32)

/-! ### Check units (R426–R430) -/

/-- Cut VALUE to the code's width and show RESULT and RESIDUE_OK. -/
def chkShow (n : Nat) (d : Dev) : Dev :=
  let code := d.get (CHK_CFG_CODE n)
  let v := d.get (CHK_VALUE_VALUE n) % 2 ^ crcWidth code
  let d := d.set (CHK_VALUE_VALUE n) v
  let d := d.set (CHK_RESULT_RESULT n) (v ^^^ crcFinal code)
  d.setB (CHK_STATUS_RESIDUE_OK n) (v == crcResidue code)

/-- Set VALUE. -/
def chkSet (n v : Nat) (d : Dev) : Dev := chkShow n (d.set (CHK_VALUE_VALUE n) v)

/-- Bytes pass through a unit (R426, R429). -/
def chkTake (n : Nat) (bytes : List Nat) (d : Dev) : Dev :=
  chkSet n (crcRun (d.get (CHK_CFG_CODE n)) (d.get (CHK_VALUE_VALUE n)) bytes) d

/-- R427: a refused write. -/
def chkRefuse (n : Nat) (d : Dev) : Dev := (d.inc (CHK_COUNTS_REFUSED_CNT n)).cause (CHK_IRQ_STAT_REFUSED n)

/-- R428: CTRL.INIT. -/
def chkInit (n : Nat) (d : Dev) : Dev :=
  if d.on (CHK_STATUS_BUSY n) then chkRefuse n d else chkSet n (crcInit (d.get (CHK_CFG_CODE n))) d

/-- R428: the request for the next bytes of a scan, at most 64 up to a 64-byte boundary. -/
def scanNext (n : Nat) (d : Dev) : Dev :=
  let s := d.scanAt n
  dmaPut n .scan false s.addr (min s.left (64 - s.addr % 64)) 0 d

/-- R428: CTRL.GO starts a scan, or is refused. A scan of registers reads whole 32-bit words (R411). -/
def chkGo (n : Nat) (d : Dev) : Dev :=
  if d.on (CHK_STATUS_BUSY n) then chkRefuse n d
  else
    let a := d.get (CHK_SCAN_ADDR_ADDR n)
    let len := d.get (CHK_SCAN_LEN_LEN n)
    if d.mode = 0 ∨ !d.endOk false 0 a len then chkRefuse n d
    else if len = 0 then d.cause (CHK_IRQ_STAT_SCAN_DONE n)
    else scanNext n ((d.putScan n ⟨a, len, none⟩).set (CHK_STATUS_BUSY n) 1)

/-- R427: channel `c` claims unit `u`. -/
def chkClaim (c u : Nat) (d : Dev) : Dev :=
  let d := ((d.set (CHK_STATUS_BUSY u) 1).set (CHK_STATUS_OWNER_DMA u) 1).set (CHK_STATUS_OWNER u) c
  let x := d.dmaAt c
  d.putDma c { x with units := u :: x.units.erase u }

/-- R415: channel `c` becomes ACTIVE: GEN increments and the unit named is claimed and initialised. -/
def dmaActivate (c : Nat) (d : Dev) : Dev :=
  match (d.dmaAt c).desc with
  | none => d
  | some x =>
    let d := dmaState c 3 d
    let d := d.set (DMA_STATUS_GEN c) (d.get (DMA_STATUS_GEN c) + 1)
    let d := d.set (DMA_DONE_BYTES_BYTES c) 0
    if x.chkOp = 0 then d
    else
      let d := chkClaim c x.unit d
      if x.keepChk then d else chkSet x.unit (crcInit (d.get (CHK_CFG_CODE x.unit))) d

/-- Unit `u` is released; the lowest channel that waits for it becomes ACTIVE (R415). -/
def chkRelease (u : Nat) (d : Dev) : Dev :=
  let d := (d.set (CHK_STATUS_BUSY u) 0).set (CHK_STATUS_OWNER_DMA u) 0
  match (List.range 16).find? fun c => d.get (DMA_STATUS_STATE c) == 2 && (match (d.dmaAt c).desc with
      | some x => x.unit == u
      | none => false) with
  | some c => dmaActivate c d
  | none => d

/-- Every unit that channel `c` holds is released (R427). -/
def dmaRelease (c : Nat) (d : Dev) : Dev :=
  let us := (d.dmaAt c).units
  us.foldl (fun d u => chkRelease u d) (d.putDma c { d.dmaAt c with units := [] })

/-! ### Completion (R424) -/

/-- R421: the completion of channel `c` is an event for every channel that chains to it. -/
def dmaChainEvent (c : Nat) (d : Dev) : Dev :=
  forUpTo 16 (fun k d => if d.on (DMA_CFG_EV_CHAIN k) ∧ d.get (DMA_CFG_CHAIN_SRC k) = c then dmaEvent k d else d) d

/-- What the completion sequence of a descriptor at `a` carries along: CHKVAL, STATUS, IRQ, and the unit to release. -/
def endWord (a chk st : Nat) (x : DmaDesc) : Nat :=
  chk + 2 ^ 32 * st + 2 ^ 64 * a + 2 ^ 96 * (b2n x.irq + 2 * b2n (x.chkOp != 0 && !x.hold) + 4 * x.unit)

/-- R424: the descriptor in service ends with a result. Its completion sequence is three requests, each issued when the one before it has
returned: the last address written is read back, bytes 20–31 are written, and the STATUS word is read back. -/
def dmaEnd (c result : Nat) (d : Dev) : Dev :=
  match (d.dmaAt c).desc with
  | none => d
  | some x =>
    let a := d.get (DMA_CUR_ADDR c)
    let chk := if x.chkOp = 0 then 0 else d.get (CHK_RESULT_RESULT x.unit)
    let st := d.get (DMA_DONE_BYTES_BYTES c) + 2 ^ 24 * d.get (DMA_STATUS_GEN c) + 2 ^ 28 * result + 2 ^ 31
    let w := endWord a chk st x
    match (d.dmaAt c).lastDst with
    | some l => dmaPut c .last false l 1 w d
    | none => dmaPut c .back true (a + 20) 12 w d

/-- What channel `c` keeps of a descriptor that has ended. -/
def dmaIdle (c : Nat) (d : Dev) : Dev :=
  d.putDma c { d.dmaAt c with desc := none, burst := none, stop := false, began := false, lastDst := none, frame := [] }

/-- A descriptor ends with a result that stops the chain. -/
def dmaFail (c result : Nat) (d : Dev) : Dev :=
  if (d.dmaAt c).desc.isNone then dmaIdle c (dmaState c 0 d)
  else dmaIdle c ((dmaEnd c result (dmaState c 0 d)).set (DMA_STATUS_LAST_RESULT c) result)

/-- The channel reads the descriptor at `a` (R412, R415). -/
def dmaFetch (c a : Nat) (d : Dev) : Dev := dmaPut c .desc false a 32 0 ((dmaState c 1 d).set (DMA_CUR_ADDR c) a)

/-- R415, R424, steps 4 to 6: the completion sequence that carries `w` ends; a channel in READBACK goes on along its chain. -/
def dmaFinish (c w : Nat) (d : Dev) : Dev :=
  let result := bits w 60 3
  let unit := bits w 98 2
  let d := if result < 3 then d.inc (DMA_COUNTS_A_DESC_CNT c) else d
  let d := if 4 ≤ result then d.inc (DMA_COUNTS_A_ERR_CNT c) else d
  let d := if bit w 96 ∧ result < 2 then d.cause (DMA_IRQ_STAT_DONE c) else d
  let d := if 3 ≤ result then d.cause (DMA_IRQ_STAT_ERR c) else d
  let d := if result = 2 then d.cause (DMA_IRQ_STAT_CHK_FAIL c) else d
  let d := dmaChainEvent c d
  let d := if bit w 97 ∧ (d.dmaAt c).units.contains unit then
      chkRelease unit (d.putDma c { d.dmaAt c with units := (d.dmaAt c).units.erase unit }) else d
  match (d.dmaAt c).desc with
  | none => d
  | some x =>
    if d.get (DMA_STATUS_STATE c) ≠ 4 ∨ 3 ≤ result then d
    else
      let d := dmaIdle c (d.set (DMA_STATUS_LAST_RESULT c) result)
      if x.next = 0 then (dmaState c 0 d).cause (DMA_IRQ_STAT_CHAIN_END c) else dmaFetch c x.next d

/-- R415: the channel stops: the result is written back when a descriptor has been fetched, a fetch under way is given up, and its units
are released. -/
def dmaHalt (c : Nat) (d : Dev) : Dev :=
  let d := if d.get (DMA_STATUS_STATE c) = 1 then d.dropReqs (fun a => a.ofChannel c && decide (DmaKind.ofTag a.tag = .desc)) else d
  dmaRelease c (dmaFail c 3 d)

/-- R415: CTRL.START. -/
def dmaStart (c : Nat) (d : Dev) : Dev :=
  if d.get (DMA_STATUS_STATE c) ≠ 0 ∨ d.mode = 0 then d
  else dmaFetch c (d.get (DMA_DESC_ADDR c)) (d.set (DMA_STATUS_EV_COUNT c) 0)

/-- R415, R422: CTRL.STOP, at the end of the burst in flight. -/
def dmaStop (c : Nat) (d : Dev) : Dev :=
  let s := d.get (DMA_STATUS_STATE c)
  if s = 0 ∨ s = 4 then d
  else if (d.dmaAt c).burst.isSome then d.putDma c { d.dmaAt c with stop := true }
  else dmaHalt c d

/-- CTRL.COUNT_CLEAR. -/
def dmaCountClear (c : Nat) (d : Dev) : Dev :=
  (((d.set (DMA_COUNTS_A_DESC_CNT c) 0).set (DMA_COUNTS_A_ERR_CNT c) 0).set (DMA_COUNTS_B_EV_OVF_CNT c) 0).set (DMA_COUNTS_B_LATE_CNT c) 0

/-! ### Descriptor fetch (R414, R415, R423) -/

/-- R423: the one enabled port whose HOST_CFG names channel `c` for an XFER code. -/
def Dev.xferPort (d : Dev) (c xfer : Nat) : Option Nat :=
  let names (n : Nat) : Bool :=
    if xfer = 1 then d.on (ETH_HOST_CFG_RX_EN n) && d.get (ETH_HOST_CFG_RX_DMA n) == c
    else d.on (ETH_HOST_CFG_TX_EN n) && d.get (ETH_HOST_CFG_TX_DMA n) == c
  match (List.range 4).filter names with
  | [p] => some p
  | _ => none

/-- Bytes that a descriptor writes at its destination (R429, R430). -/
def Dev.dstBytes (d : Dev) (x : DmaDesc) : Nat :=
  match x.chkOp with
  | 2 => x.len + d.chkWidth x.unit
  | 3 => x.len - d.chkWidth x.unit
  | _ => x.len

/-- R414: the result of the first check that fails, 0 for none. -/
def Dev.descCheck (d : Dev) (c : Nat) (x : DmaDesc) : Nat :=
  let nextOk := x.next == 0 || (x.next % 32 == 0 && decide (0x1D00000 ≤ x.next) && decide (x.next < 0x2000000))
  if bits x.len 24 8 ≠ 0 ∨ bits x.len 0 24 = 0 ∨ bits x.ctrl 13 19 ≠ 0 ∨ x.srcMode = 3 ∨ x.dstMode = 3 ∨ x.xfer = 3 ∨ !nextOk
      ∨ (x.chkOp = 3 ∧ x.len ≤ d.chkWidth x.unit) ∨ (x.xfer = 2 ∧ (x.len < 60 ∨ 1514 < x.len)) then 4
  else if (x.xfer ≠ 1 ∧ !d.endOk false x.srcMode x.src x.len) ∨ (x.xfer ≠ 2 ∧ !d.endOk true x.dstMode x.dst (d.dstBytes x)) then 5
  else if x.xfer ≠ 0 ∧ (d.xferPort c x.xfer).isNone then 7
  else 0

/-- The descriptor at `a` has been read for channel `c`; `bad` tells an uncorrectable error of that read (R414, R415). -/
def descFetched (c a : Nat) (bad : Bool) (d : Dev) : Dev :=
  if d.get (DMA_STATUS_STATE c) ≠ 1 then d
  else
    let (v, d) := bankReadWords a (fabricBankPort ((bankOf a).getD 0)) 7 10 d
    let x : DmaDesc := ⟨bits v 0 32, bits v 32 32, bits v 64 32, bits v 96 32, bits v 128 32⟩
    let d := d.putDma c { d.dmaAt c with desc := some x, began := false, lastDst := none, frame := [] }
    let d := d.set (DMA_DONE_BYTES_BYTES c) 0
    if bad then dmaFail c 6 d
    else
      let r := d.descCheck c x
      if r ≠ 0 then dmaFail c r d
      else if x.chkOp = 0 ∨ !d.on (CHK_STATUS_BUSY x.unit) ∨ (d.dmaAt c).units.contains x.unit then dmaActivate c d
      else dmaState c 2 d

/-! ### Pacing (R416–R420) -/

/-- R419: the level of a source and the bytes of its unit; a unit of 0 stands for one frame. -/
def Dev.dmaLevel (d : Dev) (src : Nat) : Nat × Nat :=
  if src < 256 then ((d.chAt src).fifo.items.length, 32)
  else if src < 288 then ((aget {} (src - 256) d.pe : Pe).rx.length, 4)
  else if src < 320 then
    let n := src - 288
    (d.txDepth n - (aget {} n d.pe : Pe).tx.length, 4)
  else if src < 324 then ((d.ethAt (src - 320)).rx.length, 0)
  else if src < 328 then (Config.ethTxSlots - (d.ethAt (src - 324)).tx.length, 0)
  else if src < 336 then ((d.trkAt (src - 328)).fifo.items.length, 32)
  else ((d.cntAt (src - 336)).fifo.items.length, 32)

/-- R423: the frame that a descriptor needs before its first burst is there, or its place in the port. -/
def Dev.frameReady (d : Dev) (c : Nat) (x : DmaDesc) : Bool :=
  match x.xfer, d.xferPort c x.xfer with
  | 0, _ => true
  | 1, some p => !(d.ethAt p).rx.isEmpty
  | 2, some p => decide ((d.ethAt p).tx.length < Config.ethTxSlots)
  | _, _ => false

/-- R418: the request of channel `c`. -/
def Dev.dmaReq (d : Dev) (c : Nat) : Bool :=
  match d.get (DMA_STATUS_STATE c), (d.dmaAt c).desc with
  | 3, some x =>
    let s := d.dmaAt c
    let ev := d.get (DMA_STATUS_EV_COUNT c)
    if s.began && (x.xfer != 0 || d.get (DMA_CFG_PACE c) == 3) then true
    else if !s.began && !d.frameReady c x then false
    else match d.get (DMA_CFG_PACE c) with
      | 0 => true
      | 1 =>
        let l := (d.dmaLevel (d.get (DMA_CFG_LSRC c))).1
        decide (d.get (DMA_CFG_ON c) ≤ l) || (d.on (DMA_STATUS_REQ c) && decide (d.get (DMA_CFG_OFF c) < l))
      | _ => decide (0 < ev)
  | _, _ => false

/-- The request of channel `c` as it stands now; a request that becomes asserted takes its age stamp (R416). -/
def dmaReqShow (c : Nat) (d : Dev) : Dev :=
  let r := d.dmaReq c
  if r == d.on (DMA_STATUS_REQ c) then d
  else
    let d := d.setB (DMA_STATUS_REQ c) r
    if r then d.putDma c { d.dmaAt c with reqAt := d.clock.now } else d

/-- Every channel's request. -/
def dmaEval (d : Dev) : Dev := if d.get DMA_ACTIVE_ACTIVE = 0 ∧ !((List.range 16).any fun c => d.on (DMA_STATUS_REQ c)) then d else forUpTo 16 dmaReqShow d

/-- R416: channel `a` goes before channel `b`. -/
def Dev.dmaBefore (d : Dev) (a b : Nat) : Bool :=
  let p (c : Nat) : Nat := d.get (DMA_CFG_PRIO c)
  let t (c : Nat) : Nat := (d.dmaAt c).reqAt
  decide (p a < p b) || (p a == p b && (decide (t a < t b) || (t a == t b && decide (a < b))))

/-- The channel that is granted the next burst: one burst is in flight at a time (R416, R422). -/
def Dev.dmaWinner (d : Dev) : Option Nat :=
  if (List.range 16).any fun c => (d.dmaAt c).burst.isSome then none
  else ((List.range 16).filter d.dmaReq).foldl (fun best c =>
    match best with
    | none => some c
    | some b => if d.dmaBefore c b then some c else best) none

/-! ### Events (R421) -/

/-- A burst of channel `c` consumes an event; an event of the same TCLK that met the count at 255 takes its place. -/
def eventTake (c : Nat) (d : Dev) : Dev :=
  if d.cyc.evLost.contains c then { d with cyc := { d.cyc with evLost := d.cyc.evLost.erase c } }
  else d.set (DMA_STATUS_EV_COUNT c) (d.get (DMA_STATUS_EV_COUNT c) - 1)

/-- The events of this TCLK that saturation has lost. -/
def eventsLost (d : Dev) : Dev :=
  d.cyc.evLost.foldl (fun d c => (d.inc (DMA_COUNTS_B_EV_OVF_CNT c)).cause (DMA_IRQ_STAT_EV_OVF c)) { d with cyc := { d.cyc with evLost := [] } }

/-! ### Resets (R431) -/

/-- Channel `c` at the start of a warm reset or at entry to MOORED. Its requests are abandoned; each read among them will still be
answered (R425). -/
def dmaWarm (c : Nat) (d : Dev) : Dev :=
  let x := d.dmaAt c
  let late := List.replicate (d.countReqs fun a => a.ofChannel c && !a.write) (d.get (DMA_STATUS_GEN c))
  let d := (d.dropReqs (Access.ofChannel c)).putDma c { stale := x.stale ++ late, reqAt := x.reqAt }
  if d.get (DMA_STATUS_STATE c) = 0 then d
  else (((dmaState c 0 d).set (DMA_STATUS_LAST_RESULT c) 3)).cause (DMA_STATUS_RESET c)

/-- Check unit `n` then: its scan is abandoned and its claim released; VALUE holds the value after the last byte processed. -/
def chkWarm (n : Nat) (d : Dev) : Dev :=
  (((d.dropReqs (Access.ofScan n)).putScan n {}).set (CHK_STATUS_BUSY n) 0).set (CHK_STATUS_OWNER_DMA n) 0

/-- R425: LATE_RESPONSE: a response to a request that a warm reset abandoned. -/
def lateResponse (c : Nat) (d : Dev) : Dev :=
  match (d.dmaAt c).stale with
  | [] => d
  | g :: r =>
    let d := d.putDma c { d.dmaAt c with stale := r }
    if g = d.get (DMA_STATUS_GEN c) then d else d.inc (DMA_COUNTS_B_LATE_CNT c)

end Sys2Proof.Machine
end

