-- ==== Sys2Proof/Machine/Bist.lean ====
section
/-!
DEFINITION. Sys2Proof/Machine/Bist.lean: self-test in slices and the full run (R533–R541).
-/
namespace Sys2Proof.Machine

/-- R533: the conditions under which slices run. -/
def Dev.bistOn (d : Dev) : Bool :=
  d.on BIST_CTRL_EN && (d.lc == 1 || d.lc == 2) && decide (1 ≤ d.mode) && decide (d.mode ≤ 4)

/-- R536: the preconditions. -/
def Dev.precond (d : Dev) : Bool :=
  (List.range 16).all d.supInTest && decide (d.pwr.deg16 / 16 < (d.get PWR_THERM_WARN_C : Int)) &&
  !(d.oscAt (d.get TB_STATUS_CARRIER)).faulty && !d.on TB_STATUS_NO_OSC

/-- R534: slices of a unit. -/
def unitSlices (u : Nat) : Nat :=
  if 288 ≤ u ∧ u < 296 then 17
  else if 296 ≤ u ∧ u < 308 then (if u = 304 then 1024 else if u = 306 then 512 else 256)
  else if u = 325 then 17
  else if u = 326 then 64
  else 1

/-- R534: a unit is free. -/
def Dev.unitFree (d : Dev) (u : Nat) : Bool :=
  if u < 256 then
    let c := d.chAt u
    c.queue.isEmpty && c.train.isNone && c.ret.isNone && !d.on (CH_STATUS_CAP_OPEN u) && !d.on (CH_STATUS_KA_RUN u)
  else if u < 288 then d.get (PE_STATUS_RUN (u - 256)) == 0 || d.get (PE_STATUS_RUN (u - 256)) == 3
  else if u < 296 then
    let r := d.get (CE_STATUS_RUN (u - 288))
    r == 0 || r == 5 || r == 6
  else if u < 308 then true
  else if u < 312 then !d.on (CHK_STATUS_BUSY (u - 308))
  else if u = 312 then d.get DMA_ACTIVE_ACTIVE == 0
  else if u < 317 then d.get (SYN_STATUS_STATE (u - 313)) == 0
  else if u < 321 then !d.on (ETH_CTRL_ENABLE (u - 317))
  else if u < 325 then !d.on (CREW_PORT_CFG_EN (u - 321))
  else true

def Dev.slotAt (d : Dev) (i : Nat) : Slot := if i = 0 then d.bist.slot0 else d.bist.slot1

/-- Set a test slot and show its unit. -/
def putSlot (i : Nat) (s : Slot) (d : Dev) : Dev :=
  if i = 0 then { d with bist := { d.bist with slot0 := s } }.set BIST_STATUS_UUT0 s.unit
  else { d with bist := { d.bist with slot1 := s } }.set BIST_STATUS_UUT1 s.unit

/-- The slices that a unit has run are kept for its next turn. -/
def sliceKeep (u k : Nat) (d : Dev) : Dev := { d with bist := { d.bist with done := awrite 0 u k d.bist.done } }

/-- R537: the slice that runs in slot `i` is abandoned; it runs again from its start in the next pass. -/
def sliceAbandon (i : Nat) (d : Dev) : Dev :=
  let s := d.slotAt i
  if s.unit = 1023 then d
  else
    let d := putSlot i {} (sliceKeep s.unit s.slice d)
    if s.started then d.inc BIST_COUNTS2_ABANDON_CNT else d

/-- R536, R537: a running slice whose unit is no longer free, or whose preconditions fail, is abandoned in that cycle. -/
def bistCheck (d : Dev) : Dev :=
  let one (i : Nat) (d : Dev) : Dev :=
    let s := d.slotAt i
    if s.started && !(d.unitFree s.unit && d.precond) then sliceAbandon i d else d
  let d := d.setB BIST_STATUS_PRECOND_OK d.precond
  if d.bist.slot0.unit = 1023 ∧ d.bist.slot1.unit = 1023 then d else one 1 (one 0 d)

/-- R535: a pass begins. -/
def passBegin (d : Dev) : Dev :=
  let units := (List.range 327).filter fun u => bit (d.get (BIST_MASK_MASK (u / 32))) (u % 32)
  let b := { d.bist with pass := true, order := units, second := [], untested := 0,
                         nextPass := d.clock.now + d.get BIST_CFG_PASS_S * 1000000000 }
  { d with bist := b }.set BIST_STATUS_STATE 1

/-- R535: a pass with nothing left to take ends. -/
def passEnd (d : Dev) : Dev :=
  let b := d.bist
  if b.pass && b.order.isEmpty && b.second.isEmpty && b.slot0.unit == 1023 && b.slot1.unit == 1023 then
    let d := { d with bist := { b with pass := false } }.set BIST_STATUS_STATE 2
    let d := (d.inc BIST_COUNTS_PASS_CNT).cause BIST_IRQ_STAT_PASS_DONE
    let d := d.setSat BIST_COUNTS3_UNTESTED b.untested
    if b.untested ≠ 0 then d.cause BIST_IRQ_STAT_UNTESTED else d
  else d

/-- PASS_START: PASS_S seconds after the start of the pass before, or at its end if that comes later. -/
def passStart (d : Dev) : Dev := if d.bistOn && !d.bist.pass && decide (d.bist.nextPass ≤ d.clock.now) then passBegin d else d

/-- R535: a unit that is not free at its turn is passed over: after its first turn it waits for its second, after that it is
untested. -/
def passOverUnit (u : Nat) (first : Bool) (d : Dev) : Dev :=
  if first then { d with bist := { d.bist with second := d.bist.second ++ [u] } }
  else { d with bist := { d.bist with untested := d.bist.untested + 1 } }

/-- The next free unit in turn, at most `fuel` looked at. -/
def takeUnit : Nat → Dev → Option Nat × Dev
  | 0, d => (none, d)
  | n + 1, d =>
    match d.bist.order, d.bist.second with
    | u :: r, _ =>
      let d := { d with bist := { d.bist with order := r } }
      if d.unitFree u then (some u, d) else takeUnit n (passOverUnit u true d)
    | [], u :: r =>
      let d := { d with bist := { d.bist with second := r } }
      if d.unitFree u then (some u, d) else takeUnit n (passOverUnit u false d)
    | [], [] => (none, d)

/-- Start the slice of slot `i`. -/
def sliceStart (i : Nat) (d : Dev) : Dev :=
  putSlot i { d.slotAt i with started := true } { d with bist := { d.bist with gap := d.get BIST_CFG_GAP } }

/-- A slot whose unit has further slices goes on if the unit is free, and otherwise leaves the unit for its second turn. -/
def slotTurn (i : Nat) (d : Dev) : Bool × Dev :=
  let s := d.slotAt i
  if s.unit = 1023 ∨ s.started then (false, d)
  else if d.unitFree s.unit then (true, d)
  else (false, passOverUnit s.unit true (putSlot i {} (sliceKeep s.unit s.slice d)))

/-- R535: the slice that a catch starts. -/
def sliceCatch (d : Dev) : Dev :=
  let (go0, d) := slotTurn 0 d
  if go0 then sliceStart 0 d
  else
    let (go1, d) := slotTurn 1 d
    if go1 then sliceStart 1 d
    else
      let free := if d.bist.slot0.unit = 1023 then some 0 else if d.bist.slot1.unit = 1023 then some 1 else none
      match free with
      | none => d
      | some i =>
        match takeUnit 700 d with
        | (some u, d) => sliceStart i (putSlot i { unit := u, slice := aget 0 u d.bist.done } d)
        | (none, d) => d

/-- Something is left to start. -/
def Dev.bistWork (d : Dev) : Bool :=
  let b := d.bist
  (b.slot0.unit != 1023 && !b.slot0.started) || (b.slot1.unit != 1023 && !b.slot1.started) ||
  ((b.slot0.unit == 1023 || b.slot1.unit == 1023) && !(b.order.isEmpty && b.second.isEmpty))

/-- R533–R536: self-test at a catch, after step 1. -/
def bistCatch (d : Dev) : Dev :=
  if d.bist.full then d
  else if !d.bistOn then
    let d := sliceAbandon 1 (sliceAbandon 0 d)
    if d.get BIST_STATUS_STATE = 3 then d else d.set BIST_STATUS_STATE 0
  else
    let d := { d with bist := { d.bist with gap := d.bist.gap - 1 } }
    let d := passStart d
    let d := if d.bist.pass then d.set BIST_STATUS_STATE 1 else d.set BIST_STATUS_STATE 2
    if !d.bist.pass then d
    else if d.bist.gap ≠ 0 ∨ !d.bistWork then passEnd d
    else if !d.precond then (if (sliceCatch d).bist.gap = 0 then d else d.inc BIST_COUNTS2_PRECOND_CNT)
    else passEnd (sliceCatch d)

/-- R538: a fault of unit `u`. -/
def bistFail (u : Nat) (d : Dev) : Dev :=
  if 327 ≤ u then d
  else ((d.causeBit (BIST_FAIL_FAIL (u / 32)) (u % 32)).inc BIST_COUNTS_FAIL_CNT).cause BIST_IRQ_STAT_FAIL

/-- SLICE_END: the slice of slot `i` ends; `fault` tells that it found one. -/
def sliceEnd (i : Nat) (fault : Bool) (d : Dev) : Dev :=
  let s := d.slotAt i
  if s.unit = 1023 ∨ !s.started then d
  else
    let d := if fault then bistFail s.unit d else d
    if s.slice + 1 < unitSlices s.unit then putSlot i { s with slice := s.slice + 1, started := false } d
    else passEnd (putSlot i {} (sliceKeep s.unit 0 d))

/-- R539: CTRL.FULL. -/
def bistFull (d : Dev) : Dev :=
  if d.mode = 5 ∧ d.precond ∧ !d.bist.full ∧ !d.bist.reapply then { d with bist := { d.bist with full := true } }.set BIST_STATUS_STATE 3 else d

/-- R540: CTRL.STRUCT. What a structural test does is the vendor's. -/
def bistStruct (d : Dev) : Dev :=
  if d.lc = 0 ∨ d.lc = 4 then { d with bist := { d.bist with struct := true } } else d.inc BIST_COUNTS3_STRUCT_DENY_CNT

/-- R541: the start of a warm reset; the pass in progress begins again at the first catch after it. -/
def bistWarm (d : Dev) : Dev :=
  let d := sliceAbandon 1 (sliceAbandon 0 d)
  let b := d.bist
  let d := { d with bist := { b with full := false, reapply := b.reapply || b.full, pass := false, order := [], second := [], nextPass := if b.pass then 0 else b.nextPass } }
  if b.full then d.set BIST_STATUS_STATE 0 else d

end Sys2Proof.Machine
end

