-- ==== Sys2Proof/Machine/Trust.lean ====
section
/-!
DEFINITION. Sys2Proof/Machine/Trust.lean: the trust core: commands, tokens, keys, life cycle and tamper (R468–R495).
Results of signature checks and the plaintext of a key package are operands of the commands.
-/
namespace Sys2Proof.Machine

/-- The address lies in bank 10 with `n` bytes (R477). -/
def inBank10 (a n : Nat) : Bool := decide (0x1D00000 ≤ a) && decide (a + n ≤ 0x1F00000)

/-! ### Commands (R477) -/

/-- R477: a write of TRUST.CMD. The trust core reads the argument through fabric port 1 (log entry 99). -/
def trustCmd (op : Nat) (d : Dev) : Dev :=
  if d.on TRUST_STATUS_BUSY then d.set TRUST_RESULT_CODE 2
  else if op = 0 ∨ 6 ≤ op then (d.set TRUST_RESULT_CODE 3).set TRUST_RESULT_OUT_LEN 0
  else
    let a := d.get TRUST_ARG_ADDR_ADDR
    let n := d.get TRUST_ARG_LEN_LEN
    fabCarry .trust a (if inBank10 a n then n else 0) ({ d with trust := { d.trust with cmd := some (op, a, n) } }.set TRUST_STATUS_BUSY 1)

/-- R477: a command completes with a code. -/
def trustDone (code out : Nat) (d : Dev) : Dev :=
  let d := { d with trust := { d.trust with cmd := none } }.set TRUST_STATUS_BUSY 0
  ((d.set TRUST_RESULT_CODE code).set TRUST_RESULT_OUT_LEN out).cause TRUST_IRQ_STAT_CMD_DONE

/-- R480: the command in progress is abandoned. -/
def trustAbandon (d : Dev) : Dev :=
  if d.on TRUST_STATUS_BUSY then
    (({ d with trust := { d.trust with cmd := none } }.set TRUST_STATUS_BUSY 0).set TRUST_RESULT_CODE 10).set TRUST_RESULT_OUT_LEN 0
  else d

/-- R472: a life-cycle change waits for its catch. -/
def lcChange (s : Nat) (d : Dev) : Dev := { d with trust := { d.trust with lcNext := some s } }

/-! ### Owner keys (R474–R476) -/

/-- R474: a key record is valid: ALGS names a key, and an absent key is zeros. -/
def recordOk (r : List Nat) : Bool :=
  let algs := r.getD 0 0
  r.length == 2052 && decide (1 ≤ algs) && decide (algs ≤ 3) && (r.drop 1 |>.take 3).all (· == 0) &&
  (bit algs 0 || (r.drop 4 |>.take 96).all (· == 0)) && (bit algs 1 || (r.drop 100).all (· == 0))

/-- A record is written into slot `k`, which becomes ACTIVE. -/
def keyWrite (k : Nat) (r : List Nat) (d : Dev) : Dev :=
  let d := { d with trust := { d.trust with records := awrite [] k r d.trust.records } }
  (d.set (TRUST_KEYSLOT_STATE k) 1).set (TRUST_KEYSLOT_ALGS k) (r.getD 0 0)

/-- ACTIVE slots other than `k`. -/
def Dev.otherActive (d : Dev) (k : Nat) : Bool := (List.range 4).any fun i => i != k && d.get (TRUST_KEYSLOT_STATE i) == 1

/-! ### Key store (R484–R486) -/

def Dev.saHeld (d : Dev) (i : Nat) : Bool := d.on (TRUST_SA_INFO_VALID i)

/-- The association of a pair. -/
def Dev.saFind (d : Dev) (spp keyId : Nat) : Option Nat :=
  (List.range 64).find? fun i => d.saHeld i && d.get (TRUST_SA_INFO_SPP i) == spp && d.get (TRUST_SA_ID_KEYID i) == keyId

def saCount (d : Dev) : Dev := d.set TRUST_KEYINFO_SA_COUNT ((List.range 64).filter d.saHeld).length

/-- Forget association `i`. -/
def saErase (i : Nat) (d : Dev) : Dev :=
  let d := ((d.set (TRUST_SA_ID_KEYID i) 0).set (TRUST_SA_INFO_SPP i) 0).set (TRUST_SA_INFO_VALID i) 0
  { d with trust := { d.trust with saKeys := adel i d.trust.saKeys } }

/-- The crew key and every association are erased. -/
def storeErase (d : Dev) : Dev :=
  let d := forUpTo 64 saErase d
  saCount ({ d with trust := { d.trust with crewKey := 0, saLive := [] } }.set TRUST_KEYINFO_CREW_KEY 0)

/-- R486: from a catch on the associations that the store then holds are in force. -/
def saCatch (d : Dev) : Dev :=
  if d.get TRUST_KEYINFO_SA_COUNT = 0 ∧ d.trust.saLive.isEmpty then d
  else { d with trust := { d.trust with
    saLive := ((List.range 64).filter d.saHeld).map fun i => (d.get (TRUST_SA_INFO_SPP i), d.get (TRUST_SA_ID_KEYID i)) } }

/-- R489, R486: every session key is erased; a port without one leaves UP. -/
def sessionErase (d : Dev) : Dev := forUpTo 4 (fun k d => if d.pstate k = 0 then d else portDown k d) d

/-- A record of a key package (R485). -/
inductive KeyRec where
  | setCrew (key : Nat)
  | setSa (spp keyId key : Nat)
  | delSa (spp keyId : Nat)
  | delCrew
deriving DecidableEq, Repr

/-- A little-endian number in a list of bytes. -/
def leNum : List Nat → Nat
  | [] => 0
  | b :: r => b % 256 + 256 * leNum r

/-- R485: the records of a plaintext; none when one is malformed. -/
def keyRecs : Nat → List Nat → Option (List KeyRec)
  | 0, p => if p.isEmpty then some [] else none
  | n + 1, p =>
    if p.isEmpty then some []
    else if (p.drop 1 |>.take 3) ≠ [0, 0, 0] then none
    else
      let (r, len) : Option KeyRec × Nat := match p.getD 0 0 with
        | 1 => (some (.setCrew (leNum (p.drop 4 |>.take 32))), 36)
        | 2 => (if (p.drop 5 |>.take 3) = [0, 0, 0] then some (.setSa (p.getD 4 0) (leNum (p.drop 8 |>.take 4)) (leNum (p.drop 12 |>.take 32))) else none, 44)
        | 3 => (if (p.drop 5 |>.take 3) = [0, 0, 0] then some (.delSa (p.getD 4 0) (leNum (p.drop 8 |>.take 4))) else none, 12)
        | 4 => (some .delCrew, 4)
        | _ => (none, 0)
      match r with
      | none => none
      | some x => if p.length < len then none else (keyRecs n (p.drop len)).map fun l => x :: l

/-- One record takes effect; none when no place is left for an association. -/
def keyApply (d : Dev) (r : KeyRec) : Option Dev :=
  match r with
  | .setCrew k => some ({ d with trust := { d.trust with crewKey := k } }.set TRUST_KEYINFO_CREW_KEY 1)
  | .delCrew => some ({ d with trust := { d.trust with crewKey := 0 } }.set TRUST_KEYINFO_CREW_KEY 0)
  | .delSa spp id => match d.saFind spp id with
    | some i => some (saCount (saErase i d))
    | none => some d
  | .setSa spp id k =>
    let place := match d.saFind spp id with
      | some i => some i
      | none => (List.range 64).find? fun i => !d.saHeld i
    match place with
    | none => none
    | some i =>
      let d := ((d.set (TRUST_SA_ID_KEYID i) id).set (TRUST_SA_INFO_SPP i) spp).set (TRUST_SA_INFO_VALID i) 1
      some (saCount { d with trust := { d.trust with saKeys := aput i k d.trust.saKeys } })

/-- R485: a package applies whole or not at all. -/
def keysApply (d : Dev) (l : List KeyRec) : Option Dev := l.foldl (fun o r => match o with | some d => keyApply d r | none => none) (some d)

/-- A result of the operation of a token or command: a code, or the changed state. -/
abbrev TrustOut := Except Nat Dev

/-- R485: KEYS. `plain` is the plaintext that the package unwraps to; none when its tag fails. -/
def opKeys (plain : Option (List Nat)) (body len : Nat) (d : Dev) : TrustOut :=
  let ct := d.mem.read (body + 108) 4
  if len < 128 ∨ len ≠ 128 + ct then .error 3
  else match plain with
    | none => .error 3
    | some p =>
      if p.length ≠ ct then .error 3
      else match keyRecs (ct + 1) p with
        | none => .error 3
        | some l => match keysApply d l with
          | none => .error 11
          | some d => .ok (d.set TRUST_STATUS_KS_ERR 0)

/-! ### Tokens (R478–R482) -/

/-- R481: the state and mode permit token operation `op`. -/
def Dev.tokenPermitted (d : Dev) (op : Nat) : Bool :=
  let keyOps := d.lc == 1 || ((d.lc == 2 || d.lc == 3) && d.mode == 5)
  match op with
  | 1 => d.lc == 1 || d.lc == 3
  | 2 => d.lc == 2
  | 3 => d.lc == 2
  | 8 => d.lc != 5
  | 10 => d.lc == 1 || d.lc == 2 || d.lc == 3
  | 11 => d.lc != 5
  | _ => keyOps

/-- R473, R475: the signer of a token is permitted and its algorithms suffice. -/
def Dev.tokenSigner (d : Dev) (op signer alg : Nat) : Bool :=
  if d.lc = 0 ∨ d.lc = 4 then op == 11 && signer == 255 && decide (alg ≤ 2) && decide (d.get TRUST_POLICY_MIN_ALG ≤ alg)
  else d.rigKeyOk signer alg

/-- R478: bytes of the body with its padding. -/
def padded (n : Nat) : Nat := (n + 3) / 4 * 4

/-- R479: the checks of a token in order; the code of the first failure, or none. -/
def Dev.tokenCheck (d : Dev) (a len : Nat) (sigOk : Bool) : Option Nat :=
  let m := d.mem
  let op := m.read (a + 4) 2
  let signer := m.read (a + 6) 1
  let alg := m.read (a + 7) 1
  let body := m.read (a + 26) 2
  let sigs := a + 28 + padded body
  let seq := m.read (a + 16) 4
  let after := m.read (a + 20) 6
  let timed := d.get TB_STATUS_STATE == 2 || d.get TB_STATUS_STATE == 3
  if !inBank10 a len then some 3
  else match (if len < 28 + padded body then none else readSigs m (a + len) (if alg = 2 then 2 else 1) sigs) with
    | none => some 3
    | some l =>
      if m.read a 4 ≠ 0x534B544B ∨ op = 0 ∨ 11 < op ∨ m.read (a + 28 + body) (padded body - body) ≠ 0 then some 3
      else if m.read (a + 8) 8 ≠ d.fused.serial then some 7
      else if !d.tokenPermitted op then some 6
      else if !(d.tokenSigner op signer alg && l == sigShape alg && sigOk) then some 4
      else if seq ≤ d.get TRUST_COUNTER_TOKEN_VALUE then some 5
      else if after ≠ 0 ∧ timed ∧ after < d.clock.now / 1000000000 then some 8
      else none

/-- SET_TAMPER: the six words of TAMP_CFG. -/
def tampWrite (i w : Nat) (d : Dev) : Dev :=
  let d := (d.set (TRUST_TAMP_CFG_EN i) (bits w 0 1)).set (TRUST_TAMP_CFG_POL i) (bits w 1 1)
  (d.setClamped (TRUST_TAMP_CFG_RESPONSE i) (bits w 2 2)).setClamped (TRUST_TAMP_CFG_DEBOUNCE i) (bits w 4 16)

/-- R477, R481: POLICY takes a word in its layout. -/
def policyWrite (w : Nat) (d : Dev) : Dev :=
  ((d.setClamped TRUST_POLICY_MIN_ALG (bits w 0 2)).set TRUST_POLICY_ENDORSE (bits w 2 1)).set TRUST_POLICY_CREW_LOCK (bits w 3 1)

/-- R472: RELEASE and SCRAP erase the owner slots, the key store and the session keys. -/
def ownerErase (d : Dev) : Dev :=
  let d := forUpTo 4 (fun k d => (d.set (TRUST_KEYSLOT_STATE k) 0).set (TRUST_KEYSLOT_ALGS k) 0) d
  sessionErase (storeErase { d with trust := { d.trust with records := [] } })

def opDeploy (_body len : Nat) (d : Dev) : TrustOut := if len ≠ 0 then .error 3 else .ok (lcChange 2 d)
def opService (_body len : Nat) (d : Dev) : TrustOut := if len ≠ 0 then .error 3 else .ok (lcChange 3 d)
def opBoathouse (_body len : Nat) (d : Dev) : TrustOut := if len ≠ 0 then .error 3 else .ok (d.set TRUST_STATUS_BH_PERMIT 1)

/-- R476: ADD_KEY; a slot that is ACTIVE takes no new record. -/
def opAddKey (body len : Nat) (d : Dev) : TrustOut :=
  let k := d.mem.read body 4
  let r := d.mem.bytes (body + 4) 2052
  if len ≠ 2056 ∨ 4 ≤ k ∨ !recordOk r ∨ d.get (TRUST_KEYSLOT_STATE k) = 1 then .error 3 else .ok (keyWrite k r d)

def opRevokeKey (body len : Nat) (d : Dev) : TrustOut :=
  let k := d.mem.read body 4
  if len ≠ 4 ∨ 4 ≤ k then .error 3
  else if !d.otherActive k then .error 9
  else .ok (d.set (TRUST_KEYSLOT_STATE k) 2)

def opTokenPolicy (body len : Nat) (d : Dev) : TrustOut := if len ≠ 4 then .error 3 else .ok (policyWrite (d.mem.read body 4) d)
def opSetTamper (body len : Nat) (d : Dev) : TrustOut :=
  if len ≠ 24 then .error 3 else .ok (forUpTo 6 (fun i d => tampWrite i (d.mem.read (body + 4 * i) 4) d) d)
def opClearTamper (_body len : Nat) (d : Dev) : TrustOut := if len ≠ 0 then .error 3 else .ok (d.set TRUST_TAMP_STAT_LATCH 0)
def opRelease (_body len : Nat) (d : Dev) : TrustOut := if len ≠ 0 then .error 3 else .ok (lcChange 4 (ownerErase d))
def opScrap (_body len : Nat) (d : Dev) : TrustOut := if len ≠ 0 then .error 3 else .ok (lcChange 5 (ownerErase d))

/-- R481: the operation of a token. -/
def tokenOp (op : Nat) (plain : Option (List Nat)) (body len : Nat) (d : Dev) : TrustOut :=
  match op with
  | 1 => opDeploy body len d
  | 2 => opService body len d
  | 3 => opBoathouse body len d
  | 4 => opAddKey body len d
  | 5 => opRevokeKey body len d
  | 6 => opTokenPolicy body len d
  | 7 => opSetTamper body len d
  | 8 => opClearTamper body len d
  | 9 => opKeys plain body len d
  | 10 => opRelease body len d
  | _ => opScrap body len d

/-- R479: a token that passes every check and completes its operation raises the token counter and is written to the journal. -/
def tokenRun (a len : Nat) (sigOk : Bool) (plain : Option (List Nat)) (d : Dev) : Dev :=
  match d.tokenCheck a len sigOk with
  | some c => trustDone c 0 d
  | none =>
    match tokenOp (d.mem.read (a + 4) 2) plain (a + 28) (d.mem.read (a + 26) 2) d with
    | .error c => trustDone c 0 d
    | .ok e => trustDone 1 0 ((e.set TRUST_COUNTER_TOKEN_VALUE (d.mem.read (a + 16) 4)).journalFree 0x02 0)

/-! ### The other commands -/

/-- R477: PROVISION. -/
def cmdProvision (a len : Nat) (d : Dev) : Dev :=
  let r := d.mem.bytes a 2052
  if !inBank10 a len then trustDone 3 0 d
  else if d.lc ≠ 0 then trustDone 6 0 d
  else if len ≠ 2052 ∨ !recordOk r then trustDone 3 0 d
  else trustDone 1 0 (lcChange 1 (keyWrite 0 r d))

/-- R483: the report and its signature entries. -/
def Dev.attestReport (d : Dev) (nonce : List Nat) : List Nat :=
  let tampered := d.get TRUST_TAMP_STAT_LATCH != 0
  let ver := match d.activeSlot with
    | some s => (match d.slotImage s with | some im => im.imgVer | none => 0)
    | none => 0
  let free (o n : Nat) : List Nat := (List.range n).map fun i => Config.attestByte d.fresh (o + i) % 256
  leBytes d.fused.serial 8 ++ [d.lc, b2n (d.on TRUST_STATUS_GOOD) + 2 * b2n tampered + 4 * d.get TRUST_STATUS_LC_REPAIR + 8 * d.get TRUST_STATUS_KS_ERR, 0, 0]
    ++ leBytes (d.get TRUST_COUNTER_RIG_VALUE) 4 ++ leBytes (d.get TRUST_COUNTER_PATCH_VALUE) 4 ++ leBytes (d.get TRUST_COUNTER_TOKEN_VALUE) 4
    ++ leBytes (d.get KEEL_VER_PATCH_PATCH_VER) 4 ++ leBytes ver 4 ++ free 0 48 ++ nonce ++ stampBytes (d.clock.now * 65536) ++ leBytes 0 4
    ++ leBytes 0 2 ++ leBytes 96 2 ++ free 48 96 ++ leBytes 1 2 ++ leBytes 3309 2 ++ free 144 3309 ++ [0, 0, 0]

/-- R477, R483: ATTEST. -/
def cmdAttest (a len : Nat) (d : Dev) : Dev :=
  if !inBank10 a (len + 3544) then trustDone 3 0 d
  else if d.lc = 5 then trustDone 6 0 d
  else if len ≠ 32 then trustDone 3 0 d
  else
    let out := d.attestReport (d.mem.bytes a 32)
    trustDone 1 3544 (healRange (a + len) 3544 { d with mem := d.mem.puts (a + len) out }.tick1)

/-- R477: SET_POLICY. -/
def cmdSetPolicy (a len : Nat) (d : Dev) : Dev :=
  if !inBank10 a len then trustDone 3 0 d
  else if d.lc ≠ 1 then trustDone 6 0 d
  else if len ≠ 4 then trustDone 3 0 d
  else trustDone 1 0 (policyWrite (d.mem.read a 4) d)

/-- R477: CLEAR_TAMPER. -/
def cmdClearTamper (d : Dev) : Dev := if d.lc ≤ 1 then trustDone 1 0 (d.set TRUST_TAMP_STAT_LATCH 0) else trustDone 6 0 d

/-- The command in progress runs and completes. -/
def trustRun (sigOk : Bool) (plain : Option (List Nat)) (d : Dev) : Dev :=
  match d.trust.cmd with
  | none => d
  | some (op, a, len) => match op with
    | 1 => cmdProvision a len d
    | 2 => tokenRun a len sigOk plain d
    | 3 => cmdAttest a len d
    | 4 => cmdSetPolicy a len d
    | _ => cmdClearTamper d

/-- A host gives command `op` to an idle trust core, or the command is already in progress; then it runs. While another command
is in progress the write is refused with BUSY (R477). -/
def trustCall (op : Nat) (d : Dev) : Dev :=
  match d.trust.cmd with
  | none => trustRun false none (trustCmd op d)
  | some (o, _, _) => if o = op then trustRun false none d else trustCmd op d

/-- The same for a TOKEN command; it runs when the token's operation is `op`. -/
def tokenCall (op : Nat) (sigOk : Bool) (plain : Option (List Nat)) (d : Dev) : Dev :=
  let e := match d.trust.cmd with | none => trustCmd 2 d | some _ => d
  match e.trust.cmd with
  | some (2, a, _) => if e.mem.read (a + 4) 2 = op then trustRun sigOk plain e else d
  | some _ => trustCmd 2 d
  | none => d

/-! ### The catch (R472) -/

/-- R472, R486: in step 1 of a catch a life-cycle change applies, and the key store's associations come into force. -/
def lcCatch (d : Dev) : Dev :=
  let d := saCatch d
  match d.trust.lcNext with
  | none => d
  | some s =>
    let d := { d with trust := { d.trust with lcNext := none } }
    let d := if s = 3 then d.set TRUST_STATUS_BH_PERMIT 0 else d
    ((d.set TRUST_STATUS_LC s).cause TRUST_IRQ_STAT_LC).journalFree 0x01 0

/-! ### Tamper (R488–R490) -/

/-- R490: a key agreement in progress on port `k` is abandoned: a port that is not yet UP goes DOWN. -/
def agreeAbandon (k : Nat) (d : Dev) : Dev :=
  if !(d.cport k).agreeing then d
  else if d.pstate k = 1 then portDown k d
  else d.putCport k { d.cport k with agreeing := false, peerNonce := none, peerConf := false, ownConf := false }

/-- R490: a tamper response takes precedence over the work in progress; a load in progress ends REJECTED with code 7. RESPONSE 0 is the
latch and the journal entry only (R489; log entry 55). -/
def tamperAbandon (d : Dev) : Dev :=
  let d := keelDrop .patchLoad (keelDrop .rigLoad (forUpTo 4 agreeAbandon (trustAbandon d)))
  let d := match d.rig.load with | some (s, _, _) => rigReject s 7 d | none => d
  if d.keel.load.isSome then
    keelRing 3 ({ (d.set KEEL_STATUS_STAGE 3).set KEEL_STATUS_REJECT 7 with keel := { d.keel with load := none } }) else d

/-- R489: input or detector `i` fires: its latch, a journal entry and its response. -/
def tamperFire (i : Nat) (d : Dev) : Dev :=
  if 6 ≤ i ∨ !d.on (TRUST_TAMP_CFG_EN i) then d
  else
    let d := (d.setBit TRUST_TAMP_STAT_LATCH i).journalFree 0x03 i
    let d := if d.get (TRUST_TAMP_CFG_RESPONSE i) = 0 then d else tamperAbandon d
    if d.get (TRUST_TAMP_CFG_RESPONSE i) = 2 then sessionErase (storeErase d) else d

/-- A read of SERIAL_LO latches SERIAL_HI (R494). -/
def serialLoRead (m : Master) (d : Dev) : Nat × Dev := (d.fused.serial % 2 ^ 32, d.latchTo m 0x110008 (d.fused.serial / 2 ^ 32 % 2 ^ 32))

/-- R480, R481: the trust core at the start of a warm reset. -/
def trustWarm (d : Dev) : Dev := (trustAbandon d).set TRUST_STATUS_BH_PERMIT 0

end Sys2Proof.Machine
end

