-- ==== Sys2Proof/Machine/Power.lean ====
section
/-!
DEFINITION. Sys2Proof/Machine/Power.lean: mode changes, MOORED, wake and thermal limits (R496–R511).
-/
namespace Sys2Proof.Machine

/-- R498: the change from the mode in effect to `m` is permitted; `trip` marks the thermal trip (R510). -/
def Dev.modePermitted (d : Dev) (m : Nat) (trip : Bool) : Bool :=
  let running := decide (1 ≤ d.mode) && decide (d.mode ≤ 4)
  if m = 0 then running || (d.mode == 5 && trip)
  else if m = 5 then running && (d.lc == 3 || (d.lc == 2 && d.on TRUST_STATUS_BH_PERMIT))
  else running || d.mode == 5

/-- R73: oscillator that carries MOORED: the carrier itself, or the lower of OSC[0] and OSC[1] that is enabled and not faulty, also in place
of a faulty one of the two and under AUTO_SWITCH 0 (DESIGN CHOICE, log entry 95). -/
def Dev.mooredCarrier (d : Dev) : Option Nat :=
  let c := d.get TB_STATUS_CARRIER
  if c ≤ 1 ∧ d.oscGood c then some c else (List.range 2).find? d.oscGood

/-- R499: a refused change. -/
def modeDeny (d : Dev) : Dev :=
  let d := d.set PWR_MODE_TARGET d.mode
  ((d.cause PWR_STATUS_DENIED).cause PWR_IRQ_STAT_DENIED).inc PWR_COUNTS_DENIED_CNT

/-! ### Wake (R502, R503) -/

/-- R503: device time of WAKE_AT. -/
def Dev.wakeAt (d : Dev) : Nat := (d.get PWR_WAKE_AT_LO_SEC_LO + 2 ^ 32 * d.get PWR_WAKE_AT_HI_SEC_HI) * 1000000000

/-- R503: a wake source that holds now, with its code and interrupt source; the first row of the table first. -/
def Dev.wakeNow (d : Dev) : Option (Nat × Nat) :=
  match d.pendList.find? fun n => mooredSrc n && d.on (IRQ_SRC_CFG_WAKE n) with
  | some n => some (1, n)
  | none =>
    if d.on PWR_WAKE_CFG_TIMER_EN && decide (d.wakeAt ≤ d.clock.now) then some (2, 0)
    else if d.on PWR_WAKE_CFG_PERST_EN && d.pwr.perstAt == some d.clock.now then some (3, 0)
    else if d.on PWR_WAKE_CFG_GTIO1_EN && d.pwr.gtio1At == some d.clock.now then some (4, 0)
    else none

/-- A wake request that first appears in the wind-down takes effect at its end (R502), and one in MOORED when WAKE comes or the die has
cooled (R510). -/
def wakeNote (d : Dev) : Dev :=
  if (d.clock.phase = .windDown ∨ d.clock.phase = .moored) ∧ d.pwr.early.isNone then { d with pwr := { d.pwr with early := d.wakeNow } } else d

/-- R502: the entry to MOORED loses against a wake request. -/
def wakeWon (d : Dev) : Dev :=
  ((d.set PWR_MODE_TARGET d.mode).cause PWR_STATUS_WAKE_WON).cause PWR_IRQ_STAT_WAKE_WON

/-- GTIO1_WAKE: 16 consecutive samples of GTIO1 at its active level (R503). -/
def gtio1Wake (d : Dev) : Dev :=
  if d.on PWR_WAKE_CFG_GTIO1_EN then wakeNote { d with pwr := { d.pwr with gtio1At := some d.clock.now } } else d

/-! ### Entry to MOORED (R501) -/

/-- The units that R501 names, at the catch of an entry to MOORED; the monitor's triggers and scan rounds stop (R529). -/
def mooredUnits (d : Dev) : Dev :=
  let d := forUpTo 8 gateForceClose d
  let d := txnDiscard d
  let d := forUpTo 256 (fun n d =>
    let d := flushQueue n d
    let c := d.chAt n
    chShow n (d.putCh n { c with fifo := { c.fifo with items := [], ovf := false } })) d
  let d := forUpTo 8 (fun n d => ceHalt n 6 d) d
  let d := forUpTo 32 (fun n d => peStop n 3 d) d
  let d := forUpTo 4 chkWarm (forUpTo 16 dmaWarm d)
  let d := forUpTo 4 (fun k d => if d.pstate k = 0 then d else portDown k d) d
  let d := forUpTo 4 (fun n d => setLink n false d) d
  let d := { d with mon := { d.mon with conv := none, held := [] } }
  d.set TRUST_STATUS_BH_PERMIT 0

/-- R501: MOORED is entered at this catch, the last one until it is left. -/
def mooredEnter (d : Dev) : Dev :=
  let d := match d.mooredCarrier with | some c => if c = d.get TB_STATUS_CARRIER then d else moveCarrier c d | none => d
  let d := mooredUnits d
  { d with clock := { d.clock with phase := .windDown }, pwr := { d.pwr with early := none } }

/-- WIND_DOWN_END: models are saved, the banks lose their contents, DRAM rests or is lost, and TCLK stops (R501, R446). -/
def windDownEnd (d : Dev) : Dev :=
  if d.clock.phase ≠ .windDown then d
  else
    let d := memMooredOff (memMoored (modelSave d))
    { d with
      clock := { d.clock with phase := .moored }, fab := {}, pwr := { d.pwr with bankLost := true }
      keel := { d.keel with cur := none, frames := [], queue := [], wordEnd := d.clock.now, install := false } }

/-! ### Thermal limits (R510) -/

/-- R510: what the die temperature asks for. -/
def thermal (d : Dev) : Dev :=
  let t := d.pwr.deg16
  let warn : Int := 16 * d.get PWR_THERM_WARN_C
  let hot : Int := 16 * d.get PWR_THERM_HOT_C
  let d := if t ≥ warn then (d.set PWR_STATUS_WARN 1).cause PWR_IRQ_STAT_WARN else if t ≤ warn - 80 then d.set PWR_STATUS_WARN 0 else d
  let d := if t ≤ warn - 80 then { d with pwr := { d.pwr with hotHold := false } } else d
  let d := if t ≥ hot then
      let d := (d.set PWR_STATUS_HOT 1).cause PWR_IRQ_STAT_HOT
      if d.on PWR_THERM_STEP_DOWN ∧ d.mode = 3 ∧ d.pwr.stepDown.isNone then { d with pwr := { d.pwr with stepDown := some d.inFinish } } else d
    else if t ≤ hot - 80 then d.set PWR_STATUS_HOT 0 else d
  if t ≥ 2080 then
    { ((d.cause PWR_STATUS_TRIP).cause PWR_IRQ_STAT_TRIP) with pwr := { d.pwr with trip := decide (d.mode ≠ 0), hotHold := true } }
  else d

/-- TEMP_SAMPLE: the four die sensors are read; a sensor without a valid reading gives none (R530). -/
def tempSample (t : List (Option Int)) (d : Dev) : Dev :=
  thermal (dieTemp (forUpTo 4 (fun k d => tempRead k (t.getD k none) d) d))

/-! ### Pins -/

/-- R456: WAKE_N is driven low from the start of a wake until PERST_N is released. -/
def Dev.wakeNLow (d : Dev) : Bool := d.pwr.wakeN

/-- PERST_N_RISE (R503, R456). -/
def perstRise (d : Dev) : Dev :=
  wakeNote { d with pwr := { d.pwr with perstLow := false, perstAt := some d.clock.now, wakeN := false } }

end Sys2Proof.Machine
end

