-- ==== Sys2Proof/Machine/Reset.lean ====
section
/-!
DEFINITION. Sys2Proof/Machine/Reset.lean: power-on reset and boot, warm reset, wake, and the end of a full self-test run
(R512–R525, R504, R539).
-/
namespace Sys2Proof.Machine

/-! ### Power-on reset -/

/-- The registers that the logbook and the fuses hold (R468, R471, R474, R482, R484, R489, R492). -/
def logFields : List Field :=
  [TRUST_STATUS_LC, TRUST_COUNTER_RIG_VALUE, TRUST_COUNTER_PATCH_VALUE, TRUST_COUNTER_TOKEN_VALUE, TRUST_KEYINFO_CREW_KEY,
   TRUST_KEYINFO_SA_COUNT, TRUST_TAMP_STAT_LATCH, LOG_JHEAD_INDEX, LOG_JCOUNT_COUNT, LOG_STATUS_WRAPPED, LOG_WEAR_WEAR_PM] ++
  ((List.range 4).flatMap fun k => [TRUST_KEYSLOT_STATE k, TRUST_KEYSLOT_ALGS k]) ++
  ((List.range 64).flatMap fun i => [TRUST_SA_ID_KEYID i, TRUST_SA_INFO_SPP i, TRUST_SA_INFO_VALID i])

/-- R513, R514: the device while an internal power-on reset is held: what survives, and everything else at its Reset value.
RELEASE and SCRAP leave the device in their state whenever the power goes (R472). -/
def powerHeld (cause : Nat) (d : Dev) : Dev :=
  let e : Dev :=
    { fused := d.fused, log := d.log, tap := d.tap, fresh := d.fresh, clock := { phase := .held }
      pwr := { perstLow := d.pwr.perstLow }
      trust := { records := d.trust.records, crewKey := d.trust.crewKey, saKeys := d.trust.saKeys } }
  let e := logFields.foldl (fun e f => e.set f (d.get f)) e
  let e := match d.trust.lcNext with
    | some s => if 4 ≤ s then e.set TRUST_STATUS_LC s else e
    | none => e
  e.set SYS_RST_STATUS_CAUSE cause

/-- Put an image's bytes in DRAM and load them into slot `s` (R518, stage 5). -/
def bootLoad (s a : Nat) (img : Option (List Nat × Bool)) (d : Dev) : Dev :=
  match img with
  | none => d
  | some (bytes, sigOk) =>
    if bytes.isEmpty then d
    else
      let d := { d with mem := d.mem.puts a bytes }
      match d.rigCheck s a bytes.length sigOk with
      | .ok im => rigVerify s im d
      | .error c => (rigReject s c d).set (if s = 0 then SYS_BOOT_STATUS_REJ_A else SYS_BOOT_STATUS_REJ_B) c

/-- R518, stages 4 and 5: DRAM_CFG and the slot bases from the directory, training, and the images, the preferred slot first.
Image B lies behind image A (R518 names only where they begin). -/
def bootImages (pref : Nat) (dir : Option BootDir) (d : Dev) : Dev :=
  let d := match dir with
    | some b =>
      let d := ((d.setClamped MEM_DRAM_CFG_DENSITY (bits b.dramCfg 0 2)).setClamped MEM_DRAM_CFG_ECC_EN (bits b.dramCfg 2 1))
      let d := d.setClamped MEM_DRAM_CFG_RATE (bits b.dramCfg 3 2)
      (d.setClamped RIG_SLOT_BASE_A_BASE b.baseA).setClamped RIG_SLOT_BASE_B_BASE b.baseB
    | none => d
  let d := dramTrained { d with memc := { d.memc with training := true } }
  match dir with
  | none => d
  | some b =>
    let lenA := match b.imgA with | some (l, _) => l.length | none => 0
    let one (s : Nat) (d : Dev) : Dev :=
      if s = 0 then bootLoad 0 0x80000000 b.imgA d else bootLoad 1 (0x80000000 + 4 * divCeil lenA 4) b.imgB d
    one (1 - pref) (one pref d)

/-- R519: the slot that becomes ACTIVE. -/
def Dev.bootSlot (d : Dev) (pref : Nat) : Option Nat :=
  if d.get (slotState pref) = 2 then some pref else if d.get (slotState (1 - pref)) = 2 then some (1 - pref) else none

/-- R519, R520: slot `s` becomes ACTIVE at boot, or none does. -/
def bootActivate (pref : Nat) (d : Dev) : Dev :=
  let d := d.set SYS_BOOT_STATUS_PREF pref
  match d.bootSlot pref with
  | none => d.set SYS_BOOT_STATUS_NO_RIG 1
  | some s =>
    let d := ((d.set (slotState s) 4).set RIG_STATUS_ACTIVE s).set RIG_CTRL_ACTIVE_SEL s
    let d := (d.setB SYS_BOOT_STATUS_FALLBACK (s != pref)).journalFree 0x07 s
    { d with log := { d.log with active := s } }

/-- The active image applied as R306 with the code of every engine in place. -/
def reapplyImage (d : Dev) : Dev :=
  match d.activeSlot with
  | none => d
  | some s =>
    let d := clampImage (applyImage ((d.slotImage s).getD {}) d)
    let d := forUpTo 40 copyCode d
    { d with rig := { d.rig with copyQ := [], copied := [], blocked := 0 } }

/-- R298, R516, R520: start-up mode and stroke period. -/
def bootMode (d : Dev) : Dev :=
  let (m, p) : Nat × Nat := match d.activeSlot with
    | some s => ((d.slotImage s).getD {}).mode.getD (2, 4000)
    | none => (2, 4000)
  let m := if d.on SYS_BOOT_STATUS_STRAP2 then 1 else m
  ((d.set PWR_MODE_TARGET m).set PWR_MODE_CUR m).set SYS_STROKE_CFG_PERIOD_NS (clampPeriod m p)

/-- The first TAI second boundary after device time `t` (R31, R518). -/
def nextSecond (t : Nat) : Nat := (t / 1000000000 + 1) * 1000000000

/-- TCLK runs from device time `t`, and the first catch comes at the next TAI second boundary (R31). -/
def waitFirst (t : Nat) (d : Dev) : Dev :=
  { d with clock := { now := t, openAt := t, endAt := nextSecond t, phase := .waitFirst } }

/-- R518, stage 2: the logbook's records. -/
def bootLogbook (b : BootIn) (d : Dev) : Dev :=
  let repair (d : Dev) : Dev := (d.set TRUST_STATUS_LC_REPAIR 1).cause TRUST_IRQ_STAT_LC_REPAIR
  let d := if d.lc ≠ 0 ∧ d.lc < 4 ∧ !b.lcOk then repair (d.set TRUST_STATUS_LC 2) else d
  let lost (ok : Bool) (f : Field) (d : Dev) : Dev := if ok then d else repair ((d.set f 0xFFFFFFFF).cause LOG_IRQ_STAT_CRC_ERR)
  let d := lost b.tokenOk TRUST_COUNTER_TOKEN_VALUE (lost b.patchOk TRUST_COUNTER_PATCH_VALUE (lost b.rigOk TRUST_COUNTER_RIG_VALUE d))
  let d := if b.storeOk then d else ((storeErase d).set TRUST_STATUS_KS_ERR 1).cause TRUST_IRQ_STAT_KS_ERR
  d.set LOG_STATUS_READY 1

/-- R518, stage 3: the patch package, read to bank 10. -/
def bootPatch (dir : Option BootDir) (d : Dev) : Dev :=
  match dir with
  | none => d
  | some b =>
    match b.patch with
    | none => d
    | some (bytes, vendorOk, endorseOk) =>
      if bytes.isEmpty then d
      else
        let d := { d with mem := d.mem.puts 0x1D00000 bytes }
        match d.patchCheck 0x1D00000 bytes.length vendorOk endorseOk with
        | .ok p => (patchInstall p (keelRing 2 d)).set SYS_RST_STATUS_INSTALLED 1
        | .error c => (keelRing 3 ((d.set KEEL_STATUS_STAGE 3).set KEEL_STATUS_REJECT c)).set SYS_BOOT_STATUS_PATCH_REJ c

/-- POWER_ON_RESET: the rise of PORST_N samples the straps and runs the boot stages (R516–R521). -/
def powerOn (b : BootIn) (d : Dev) : Dev :=
  let d := powerHeld (if d.clock.phase = .held then d.get SYS_RST_STATUS_CAUSE else 1) d
  let d := (d.set SYS_BOOT_STATUS_STRAP b.strap).setB SYS_BOOT_STATUS_STRAP2 b.strap2
  let flash := b.strap % 4 ≠ 2
  let dir := if flash then b.dir else none
  let d := if flash then (d.setB SYS_BOOT_STATUS_NO_DIR b.dir.isNone).setB SYS_BOOT_STATUS_DIR_BACKUP
      (match dir with | some x => x.backup | none => false) else d
  let d := bootPatch dir (bootLogbook b d)
  let d := bootActivate d.log.active (bootImages d.log.active dir d)
  let d := forUpTo 4 modelRestore (bootMode (reapplyImage d))
  waitFirst b.took (d.set SYS_BOOT_STATUS_STAGE 7)

/-! ### Warm reset (R514, R515, R522, R523) -/

/-- The units in the cycle in which a warm reset begins (R522). -/
def warmUnits (d : Dev) : Dev :=
  let d := forUpTo 256 chWarm d
  let d := forUpTo 8 (fun n d => if d.get (CE_STATUS_RUN n) = 6 then d else
    let d := ceHalt n 0 d
    d.putCe n { d.ceAt n with closed := [] }) d
  let d := forUpTo 32 peWarm d
  let d := forUpTo 4 chkWarm (forUpTo 16 dmaWarm d)
  let d := rigWarm (crewWarm d)
  let d := txnDiscard (trustWarm d)
  let d := coxWarm (irqWarm d)
  let d := forUpTo 8 (fun n d => gateWarm n (d.putGate n { d.gateAt n with openReq := {}, closeReq := {} })) d
  let d := forUpTo 4 ethWarm d
  let d := keelWarm (bistWarm (monWarm (tbWarm d)))
  { d with
    txn := { d.txn with unbound := [] }
    rig := { d.rig with copyQ := [] }
    tb := { d.tb with
      upd := none
      carrierReq := if d.tb.carrierDone then d.tb.carrierReq else none
      tset := if d.tb.tsetDone then d.tb.tset else none } }

/-- A warm reset begins; `cause` is 2 for WRST_N and 3 for a WARM write. One in progress takes the request in, and in MOORED it is
ignored (R515). -/
def warmBegin (cause : Nat) (d : Dev) : Dev :=
  if d.clock.phase = .held then d
  else if d.on SYS_RST_STATUS_WARM_BUSY ∨ !d.tclkRuns then d.inc SYS_RST_COUNTS_IGNORED_CNT
  else
    let d := (warmUnits d).set SYS_RST_STATUS_CAUSE cause
    (d.set SYS_RST_STATUS_WARM_BUSY 1).inc SYS_RST_COUNTS_WARM_CNT

/-- WARM_RESET_COMPLETE (R523): the fabric resumes, discarded code copies are queued again (R307), enabled pin engines
may start from the next catch (R273), and Keel rings datum 1. -/
def warmComplete (d : Dev) : Dev :=
  if !d.on SYS_RST_STATUS_WARM_BUSY then d
  else
    let d := d.set SYS_RST_STATUS_WARM_BUSY 0
    let d := copyAsk { d with rig := { d.rig with
      copyQ := (List.range 40).filter fun i => bit d.rig.blocked i
      copied := (List.range 32).map fun n => 8 + n } }
    fabEnter 64 (keelRing 1 d)

/-! ### Wake (R504, R524) -/

/-- R524: a stored field that keeps its value across MOORED; `sr`: the slots stay in DRAM. -/
def mooredKeeps (sr : Bool) (key : Nat) : Bool :=
  let a := key / 32
  let b := a / 0x10000
  b == 0x1 || b == 0x15 || b == 0x11 || b == 0x12 || (decide (0x20000 ≤ a) && decide (a < 0x20200)) ||
  key == RIG_CTRL_ACTIVE_SEL.key ||
  [MEM_CTRL_SCRUB_EN, MEM_CTRL_MOORED_SR, MEM_SCRUB_INTERVAL, MEM_DRAM_CFG_DENSITY, MEM_DRAM_CFG_ECC_EN, MEM_DRAM_CFG_RATE,
   MEM_DRAM_CAP_CAP_MIB, MEM_DRAM_STAT_TRAINED, SYS_BOOT_STATUS_STRAP, SYS_BOOT_STATUS_STRAP2].any (fun f => f.key == key) ||
  (sr && [RIG_STATUS_ACTIVE, RIG_STATUS_STATE_A, RIG_STATUS_STATE_B].any fun f => f.key == key)

/-- Take the kept fields of `old` into `new`. -/
def keepRegs (sr : Bool) (old new : Store) : Store :=
  (old.filter fun e => mooredKeeps sr e.1).foldr (fun e r => aput e.1 e.2 r) (new.filter fun e => !mooredKeeps sr e.1)

/-- R524: the registers and units after MOORED: what is kept, everything else at its Reset value. -/
def mooredReset (sr : Bool) (d : Dev) : Dev :=
  { regs := keepRegs sr d.regs []
    clock := d.clock, mem := d.mem, tb := d.tb, trk := d.trk.filter fun e => decide (e.1 = 0)
    tap := d.tap, sync := d.sync, log := d.log, fused := d.fused, pwr := d.pwr, trust := d.trust, fresh := d.fresh
    rig := if sr then { imgA := d.rig.imgA, imgB := d.rig.imgB } else {}
    keel := { pram := d.keel.pram }, mon := { outRun := d.mon.outRun, inRun := d.mon.inRun } }

/-- R524: Keel's work after TCLK restarts. TB, TRK[0] and the other kept registers hold their values against the image. -/
def mooredReload (dir : Option BootDir) (d : Dev) : Dev :=
  let sr := d.on MEM_CTRL_MOORED_SR
  let pref := d.get RIG_STATUS_ACTIVE
  let e := mooredReset sr d
  let e := if sr then slotShow 1 (slotShow 0 e) else bootActivate pref (bootImages pref dir e)
  let f := reapplyImage e
  let trk0 := d.trkAt 0
  let f := { f with regs := keepRegs sr e.regs f.regs }.putTrk 0 trk0
  if sr then f else forUpTo 4 modelRestore f

/-- WAKE: a wake takes effect in MOORED (R502–R504). `took`: the time until Keel's work is done, in ns; `dir`: what the boot flash
holds. The wake mode applies at the first catch. -/
def wake (took : Nat) (dir : Option BootDir) (d : Dev) : Dev :=
  if d.clock.phase ≠ .moored ∨ d.pwr.hotHold then d
  else
    match (match d.pwr.early with | some w => some w | none => d.wakeNow) with
    | none => d
    | some (code, src) =>
      let d := (d.set PWR_STATUS_WAKE_SRC code).set PWR_STATUS_WAKE_IRQ (if code = 1 then src else 0)
      let d := mooredReload dir d
      let d := { d with pwr := { d.pwr with early := none, gtio1At := none, perstAt := none, bankLost := false, wakeN := code != 3 } }
      waitFirst (d.clock.now + took) d

/-! ### End of a full run (R539) -/

/-- FULL_RUN_DONE: units in `failed` have faults; banks 0–8 and the engines' instruction memories have lost their contents, and the
active image is reapplied. -/
def fullRunDone (failed : List Nat) (d : Dev) : Dev :=
  if !d.bist.full ∧ !d.bist.reapply then d
  else
    let whole := d.bist.full
    let d := if whole then failed.foldl (fun d u => bistFail u d) d else d
    let d := { d with
      mem := d.mem.filter fun c => decide (c.1 < 0x800000) || (decide (0xA00000 ≤ c.1) && decide (c.1 < 0x1000000)) || decide (0x1C00000 ≤ c.1)
      memc := { d.memc with bad := d.memc.bad.filter fun a => decide (0x1C00000 ≤ a) }
      bist := { d.bist with full := false, reapply := false } }
    let d := reapplyImage d
    let d := { d with rig := { d.rig with copyQ := [], copied := List.range 40, blocked := 0 } }
    let d := d.set BIST_STATUS_STATE 0
    if whole then d.cause BIST_IRQ_STAT_FULL_DONE else d

end Sys2Proof.Machine
end

