-- ==== Sys2Proof/Machine/Access.lean ====
section
/-!
DEFINITION. Sys2Proof/Machine/Access.lean: reads and writes of registers by a master (R11–R18, R34, R580), with the side effects
that the chapters give them, the SK-640 window (R507, R508), and accesses to the whole device address space (R33–R36).
-/
namespace Sys2Proof.Machine

/-! ### Reads -/

/-- The part of a register that a read returns: its low half, its high half, or the whole word (R219). -/
def halfOf (half v : Nat) : Nat := if half = 0 then v % 65536 else if half = 1 then v / 65536 % 65536 else v % 2 ^ 32

/-- A register's fields as they stand; WO fields read 0 (R12). -/
def Dev.plainWord (d : Dev) (addr : Nat) : Nat :=
  (fieldsAt addr).foldl (fun v f => if f.acc = .wo then v else v + d.get f * 2 ^ f.lo) 0

/-- Word `k` of a split FIFO; the read that returns bits [31:16] of word 7 pops the head (R122). -/
def fifoRead (f : Fifo) (k : Nat) (hi : Bool) : Nat × Fifo := (f.peek k, if k = 7 ∧ hi then f.pop else f)

def readSys (m : Master) (a : Nat) (d : Dev) : Nat × Dev :=
  if a = 0x0 then (d.plainWord a + (d.fused.variant % 16) * 16, d)
  else if a = 0x14 then (d.clock.strokeNo % 2 ^ 32, d.latchTo m 0x18 (d.clock.strokeNo / 2 ^ 32 % 2 ^ 32))
  else if a = 0x18 then (d.latched m a, d)
  else if a = 0x1c then ((d.clock.now - d.clock.openAt) % 2 ^ 20 + 2 ^ 31 * b2n d.inFinish, d)
  else (d.plainWord a, d)

def readTb (m : Master) (a : Nat) (d : Dev) : Nat × Dev :=
  if a = 0x10010 then readTimeSecLo m d
  else if a = 0x10014 ∨ a = 0x10018 ∨ a = 0x1004c then (d.latched m a, d)
  else if a = 0x10048 then readFfoLo m d
  else if 0x10100 ≤ a ∧ a % 0x40 = 0xc then readFreqLo m ((a - 0x10100) / 0x40) d
  else if 0x10100 ≤ a ∧ a % 0x40 = 0x10 then (d.latched m a, d)
  else (d.plainWord a, d)

def readRef (m : Master) (a : Nat) (hi : Bool) (d : Dev) : Nat × Dev :=
  if a < 0x22000 then
    let n := (a - 0x20000) / 0x200
    let o := a % 0x200
    if o = 0x88 then revNoLoRead m n d
    else if o = 0x8c then (d.latched m a, d)
    else if o = 0x104 then ttRead n false d
    else if o = 0x108 then ttRead n true d
    else if 0x1e0 ≤ o then
      let r := fifoRead (d.trkAt n).fifo ((o - 0x1e0) / 4) hi
      (r.1, d.putTrk n { d.trkAt n with fifo := r.2 })
    else (d.plainWord a, d)
  else
    let n := (a - 0x22000) / 0x80
    let o := a % 0x80
    if o = 0x14 then countLoRead m n d
    else if o = 0x18 then (d.latched m a, d)
    else if 0x60 ≤ o then
      let r := fifoRead (d.cntAt n).fifo ((o - 0x60) / 4) hi
      (r.1, d.putCnt n { d.cntAt n with fifo := r.2 })
    else (d.plainWord a, d)

def readCe (a : Nat) (d : Dev) : Nat × Dev :=
  let n := (a - 0x50000) / 0x2000
  let o := a % 0x2000
  let d := landTo n d.clock.now d
  if 0x800 ≤ o ∧ o < 0x880 then (d.readSpec n ((o - 0x800) / 4) d.clock.now, d) else (d.plainWord a, d)

def readPe (a : Nat) (hi : Bool) (d : Dev) : Nat × Dev :=
  let n := (a - 0x60000) / 0x800
  let o := a % 0x800
  if o = 0x44 then
    let d := peFirst n d
    (d.plainWord a, if hi then rxqPop n d else d)
  else if o = 0x780 then (d.gflags n, d)
  else (d.plainWord a, d)

def readRigTxn (m : Master) (a : Nat) (d : Dev) : Nat × Dev :=
  if a = 0x71000 then txnAlloc m d
  else if a = 0x71008 then (aget 0 m.num d.txn.last, d)
  else (d.plainWord a, d)

def readEth (m : Master) (a : Nat) (d : Dev) : Nat × Dev :=
  let n := (a - 0x90000) / 0x4000
  let o := a % 0x4000
  if a = 0x90204 then clkIdLoRead m d
  else if a = 0x90208 ∨ o = 0x3c ∨ o = 0x40 then (d.latched m a, d)
  else if o = 0x38 then parentLoRead m n d
  else (d.plainWord a, d)

/-- R399, R400: a read of ACK: targets 2 to 10 claim by other means. -/
def readIrq (a : Nat) (d : Dev) : Nat × Dev :=
  if 0xb2000 ≤ a ∧ a < 0xb3000 ∧ a % 0x40 = 4 then
    let t := (a - 0xb2000) / 0x40
    if 2 ≤ t then (1023, d) else let r := irqClaim t d; (r.1.1 + 1024 * r.1.2, r.2)
  else (d.plainWord a, d)

def readHost (a : Nat) (d : Dev) : Nat × Dev :=
  if a = 0xf0064 then uartRead d
  else if 0xf0100 ≤ a ∧ a < 0xf0200 ∧ d.on HOST_QSPI_STAT_BUSY then (0, qspiDiscard d)
  else (d.plainWord a, d)

/-- R122, R178: a channel's split FIFO; while it streams to DMA its words read 0 and nothing pops. -/
def readCh (a : Nat) (hi : Bool) (d : Dev) : Nat × Dev :=
  let n := (a - 0x100000) / 0x100
  let o := a % 0x100
  if 0xe0 ≤ o then
    if d.on (CH_SPLIT_CFG_STREAM n) then (0, d)
    else
      let r := fifoRead (d.chAt n).fifo ((o - 0xe0) / 4) hi
      (r.1, chShow n (d.putCh n { d.chAt n with fifo := r.2 }))
  else (d.plainWord a, d)

/-- The SK-640 window in FORERUNNER (R507, R508). -/
def readSkw (m : Master) (a : Nat) (d : Dev) : Nat × Dev :=
  if a < 0x160800 then
    let k := (a - 0x160000) / 0x20
    let o := a % 0x20
    if o = 0xc then
      (d.get (CH_HEV_CTRL_DONE k) + 2 * d.get (CH_HEV_CTRL_LATE k) + 4 * d.get (CH_HEV_CTRL_FULL k)
        + 8 * b2n (!(d.chAt k).fifo.items.isEmpty) + 16 * d.get (CH_STATUS_LEVEL k), d)
    else if o = 0x10 then
      match (d.chAt k).fifo.items with
      | [] => (0, d)
      | s :: _ =>
        let t := s.stampU / 65536
        (t % 2 ^ 32, chShow k ((d.putCh k { d.chAt k with fifo := (d.chAt k).fifo.pop }).latchTo m (a + 4) (t / 2 ^ 32 % 2 ^ 32)))
    else if o = 0x14 then (d.latched m a, d)
    else (d.plainWord a, d)
  else if a = 0x160804 then (d.clock.now % 2 ^ 32, d.latchTo m 0x160808 (d.clock.now / 2 ^ 32 % 2 ^ 32))
  else if a = 0x160808 then (d.latched m a, d)
  else if a = 0x16080c then (d.get (IRQ_PEND_PEND 0), d)
  else if a = 0x160810 then (d.get (IRQ_PEND_PEND 1), d)
  else if a = 0x160814 then let r := irqClaim 0 d; (if r.1.1 = 1023 then 0xFF else r.1.1, r.2)
  else if a = 0x16081c then (d.get (IRQ_T_CTRL_EN 0), d)
  else (d.plainWord a, d)

/-- The 32-bit word that a read of register `a` meets; `hi` tells that the read returns bits [31:16]. -/
def regWordRead (m : Master) (a : Nat) (hi : Bool) (d : Dev) : Nat × Dev :=
  match a / 0x10000 with
  | 0x0 => readSys m a d
  | 0x1 => readTb m a d
  | 0x2 => readRef m a hi d
  | 0x3 => if a = 0x30008 then armedLoRead m d else if a = 0x3000c then (d.latched m a, d) else (d.plainWord a, d)
  | 0x5 => readCe a d
  | 0x6 => readPe a hi d
  | 0x7 => readRigTxn m a d
  | 0x8 => if a = 0x8002c then leadSerLoRead m d else if a = 0x80030 then (d.latched m a, d) else (d.plainWord a, d)
  | 0x9 => readEth m a d
  | 0xb => readIrq a d
  | 0xd => (d.plainWord a, d)
  | 0xf => readHost a d
  | 0x10 => readCh a hi d
  | 0x11 => if a = 0x110004 then serialLoRead m d else if a = 0x110008 then (d.latched m a, d) else (d.plainWord a, d)
  | 0x12 => if a = 0x120010 then d.logRead else (d.plainWord a, d)
  | 0x16 => readSkw m a d
  | _ => (d.plainWord a, d)

/-- R34: the address is a register: the SK-640 window is there only in FORERUNNER. -/
def Dev.isReg (d : Dev) (a : Nat) : Bool := !(fieldsAt a).isEmpty && !(a / 0x10000 == 0x16 && d.mode != 4)

/-- A read of a register by master `m`: `half` 0 or 1 for a half (R219), 2 for the whole word. Side effects that are not defined
for one half happen with a read of either; TXN.BEGIN allocates on its low half (R309). -/
def regRead (m : Master) (a half : Nat) (d : Dev) : Nat × Dev :=
  let a := a - a % 4
  if a = 0x71000 ∧ half = 1 then (0, d)
  else if d.isReg a then let r := regWordRead m a (half != 0) d; (halfOf half r.1, r.2)
  else (0, unmapped m d)

/-! ### Remote access (R340) -/

/-- The RA_DONE cause with a result. -/
def raDone (result : Nat) (d : Dev) : Dev :=
  let d := (d.set CREW_RA_CTRL_RESULT result).set CREW_RA_CTRL_BUSY 0
  crewCause 7 { d with crew := { d.crew with ra := none } }

/-- RA_GO. A broadcast is always a write. -/
def raGo (d : Dev) : Dev :=
  if d.on CREW_RA_CTRL_BUSY then d
  else if !d.isLead then raDone 4 d
  else
    let b := d.on CREW_RA_DEST_BCAST
    let id := d.get CREW_RA_DEST_ID
    if !b ∧ !d.inRoster id then raDone 5 d
    else
      let me := d.get CREW_STATUS_MY_ID
      let waitFor := if b then (List.range 1024).filter fun i => d.inRoster i && i != me else [id]
      let ct := if d.on CREW_RA_DEST_IN_CC then
          (match d.crew.cc with | some x => x.serial + 4096 * x.gen | none => 0) else 0
      let (q, d) := crewNext d
      let d := crewSend 4 0x30 (if b then bcast else id) q
        [d.get CREW_RA_ADDR_ADDR, d.get CREW_RA_DATA_DATA, b2n (b || d.on CREW_RA_CTRL_WRITE), ct] d
      let op : RaOp := ⟨0, false, waitFor, q % 4096, q / 4096⟩
      let d := (d.set CREW_RA_CTRL_BUSY 1).set CREW_RA_CTRL_RESULT 0
      if waitFor.isEmpty then raDone 1 d else { d with crew := { d.crew with ra := some op } }

/-! ### Writes -/

/-- The bits of a register's RW/T fields. -/
def rwtMask (fs : List Field) : Nat := fs.foldl (fun m f => if f.acc = .rwt then m + (2 ^ f.w - 1) * 2 ^ f.lo else m) 0

/-- The immediate part of a write: RW fields take their clamped values, over a hardware update of the same TCLK; W1C bits clear, but for
those that hardware sets in it (R12, R15, R580). -/
def immWrite (fs : List Field) (v : Nat) (d : Dev) : Dev :=
  let d := fs.foldl (fun d f =>
    let x := bits v f.lo f.w
    if f.acc = .rw then
      let d := { d with cyc := { d.cyc with wr := f.key :: d.cyc.wr } }
      if f.clamp.governed then d.set f x else d.setClamped f x
    else if f.acc = .w1c then
      let old := d.get f
      d.set f ((old - (old &&& x)) ||| (old &&& aget 0 f.key d.cyc.set_))
    else d) d
  fs.foldl (fun d f => if f.acc = .rw ∧ f.clamp.governed then d.reclamp f else d) d

/-- A write's effect on the fields of its register. -/
def plainWrite (m : Master) (a v : Nat) (d : Dev) : Dev :=
  let fs := fieldsAt a
  let d := immWrite fs v d
  let mask := rwtMask fs
  if mask = 0 then d else stageRwt m a (v % 2 ^ 32) mask d

/-- Writes that a unit takes instead of its fields. -/
def unitWrite (m : Master) (a v : Nat) (d : Dev) : Option Dev :=
  match a / 0x10000 with
  | 0x2 => if a < 0x22000 ∧ a % 0x200 = 0x108 then some (ttDataHiWrite ((a - 0x20000) / 0x200) v d) else none
  | 0x5 =>
    let n := (a - 0x50000) / 0x2000
    let o := a % 0x2000
    if 0x400 ≤ o ∧ o < 0x800 then some (xregWrite n ((o - 0x400) / 4) v d)
    else if 0x800 ≤ o ∧ o < 0x880 then some (specWrite n ((o - 0x800) / 4) v d)
    else none
  | 0x6 =>
    let n := (a - 0x60000) / 0x800
    let o := a % 0x800
    let run := d.get (PE_STATUS_RUN n)
    if o = 0x40 then some (txqPush n (v % 2 ^ 32) (peFirst n d))
    else if o = 0x780 then some (gflagsWrite n v d)
    else if 0x100 ≤ o ∧ o < 0x200 ∧ run ≠ 0 ∧ run ≠ 3 then some d
    else none
  | 0x7 =>
    if (a = 0x70010 ∧ d.get RIG_STATUS_STATE_A ≠ 0) ∨ (a = 0x70014 ∧ d.get RIG_STATUS_STATE_B ≠ 0) then some d
    else if a = 0x71004 then some (txnCmd m (v % 65536) (v / 65536 % 8) d)
    else none
  | 0xa => if a = 0xa0040 then some (pramAddrWrite v d) else none
  | 0xb =>
    if 0xb1000 ≤ a ∧ a < 0xb2000 then some (pendClear ((a - 0xb1000) / 4) (v % 2 ^ 32) d)
    else if 0xb2000 ≤ a ∧ a < 0xb3000 ∧ a % 0x40 = 8 then some (irqEoi ((a - 0xb2000) / 0x40) d)
    else if a = 0xb3000 then some (dbRing m (min (v % 64) 62) (v / 65536 % 65536) d)
    else none
  | 0xd =>
    let n := (a - 0xd0000) / 0x40
    let o := a % 0x40
    if (o = 0 ∨ o = 4 ∨ o = 0x10) ∧ d.on (CHK_STATUS_BUSY n) then some (chkRefuse n d)
    else if o = 0x10 then some (chkSet n (v % 2 ^ 32) d)
    else none
  | 0xf =>
    if a = 0xf0064 then some (uartWrite (v % 256) d)
    else if (a = 0xf0044 ∨ a = 0xf0048 ∨ (0xf0100 ≤ a ∧ a < 0xf0200)) ∧ d.on HOST_QSPI_STAT_BUSY then some (qspiDiscard d)
    else if 0xf0800 ≤ a ∧ a < 0xf0a00 ∧ a % 0x10 = 0xc then some (vctrlWrite ((a - 0xf0800) / 0x10) (bit v 0) d)
    else none
  | 0x11 => if 0x110050 ≤ a ∧ a < 0x110068 ∧ 2 ≤ d.lc then some d else none
  | _ => none

/-- Do `f` when bit `i` of a write is 1. -/
def onBit (v i : Nat) (f : Dev → Dev) (d : Dev) : Dev := if bit v i then f d else d

/-- R514: a write of 1 to WARM by a host. -/
def rstCtrlWrite (m : Master) (v : Nat) (d : Dev) : Dev := if m.hostIdx.isSome then onBit v 0 (warmBegin 3) d else d

/-- R202: CTRL of a gate; both bits together act as CLOSE. -/
def txgCtrlWrite (n v : Nat) (d : Dev) : Dev := if bit v 1 then txgCtrlClose n d else onBit v 0 (txgCtrlOpen n) d

/-- The actions of a write's WO fields. -/
def unitAction (m : Master) (a v : Nat) (d : Dev) : Dev :=
  match a / 0x10000 with
  | 0x0 =>
    if a = 0x20 then onBit v 8 (fun d => d.set SYS_FAB_MAXWAIT_MAXWAIT 0) d
    else if a = 0x40 then rstCtrlWrite m v d
    else d
  | 0x1 => if a = 0x10000 then onBit v 2 modelClear d else if a = 0x1002c then onBit v 0 timeSetGo d else d
  | 0x2 =>
    if a < 0x22000 then
      let n := (a - 0x20000) / 0x200
      if a % 0x200 = 0 then onBit v 2 (trkRelease n) (onBit v 1 (trkRestart n) d) else d
    else if a % 0x80 = 0 then onBit v 1 (cntArm ((a - 0x22000) / 0x80)) d
    else d
  | 0x3 => if a = 0x3001c then onBit v 31 perfClear d else d
  | 0x4 =>
    if a < 0x40800 then (if a % 0x100 = 0 then onBit v 1 (synRecal ((a - 0x40000) / 0x100)) d else d)
    else if 0x41100 ≤ a ∧ a % 0x20 = 4 then txgCtrlWrite ((a - 0x41100) / 0x20) v d
    else d
  | 0x5 =>
    let n := (a - 0x50000) / 0x2000
    let o := a % 0x2000
    if o = 0 then onBit v 3 (ceStep n) (onBit v 2 (ceResume n) (onBit v 1 (ceDoHalt n) d))
    else if o = 0x18 then onBit v 31 (runmaxClear n) d
    else d
  | 0x6 =>
    let n := (a - 0x60000) / 0x800
    if a % 0x800 = 0 then onBit v 2 (peCountClear n) (onBit v 1 (peRestart n) d) else d
  | 0x7 => if a = 0x70000 then onBit v 3 rigClear (onBit v 2 rigAccept (onBit v 1 rigLoad d)) else d
  | 0x8 =>
    if a = 0x80000 then onBit v 3 rekey (onBit v 2 raiseLevel (onBit v 1 rollRequest d))
    else if a = 0x80084 then onBit v 0 (ccBegin m) d
    else if a = 0x800ac then onBit v 0 raGo d
    else if a = 0x800b0 then onBit v 31 dbTx d
    else d
  | 0x9 => if a % 0x4000 = 0 then onBit v 1 (ethRetrain ((a - 0x90000) / 0x4000)) d else d
  | 0xa =>
    if a = 0xa000c then onBit v 20 stackClr d
    else if a = 0xa0018 then onBit v 3 patchClear (onBit v 2 patchAccept (onBit v 1 patchInstallCmd (onBit v 0 patchLoad d)))
    else if a = 0xa0020 then onBit v 31 peakClear d
    else d
  | 0xc =>
    if 0xc0100 ≤ a ∧ a % 0x40 = 0xc then
      let c := (a - 0xc0100) / 0x40
      onBit v 2 (dmaCountClear c) (onBit v 1 (dmaStop c) (onBit v 0 (dmaStart c) d))
    else d
  | 0xd =>
    let n := (a - 0xd0000) / 0x40
    if a % 0x40 = 4 then onBit v 0 (chkGo n) (onBit v 1 (chkInit n) d) else d
  | 0xe =>
    if a = 0xe0000 then onBit v 2 dramTrain d
    else if a = 0xe0028 then onBit v 2 (fun d => d.set MEM_DRAM_STAT_MAXLAT_NS 0) d
    else d
  | 0xf => if a = 0xf0044 then onBit v 31 qspiGo d else d
  | 0x10 =>
    let n := (a - 0x100000) / 0x100
    if a % 0x100 = 0 then onBit v 2 (chCountClear n) (onBit v 1 (fifoClear n) (onBit v 0 (flushReq n) d))
    else if a % 0x100 = 0x60 then onBit v 0 (hevGo n) d
    else d
  | 0x11 => if a = 0x110010 then trustCmd (v % 8) d else d
  | 0x14 => if a = 0x140000 then onBit v 2 bistStruct (onBit v 1 bistFull d) else d
  | _ => d

/-- R508: GO inserts the event of the window's registers. -/
def skwGo (k : Nat) (d : Dev) : Dev :=
  let act := d.get (SKW_CH_CTL_ACT k)
  let t : Nat := d.get (SKW_CH_CMP_LO_T_LO k) + 2 ^ 32 * d.get (SKW_CH_CMP_HI_T_HI k)
  if act = 0 then d
  else hostInsert k ((t : Int) * 65536) act (if d.get (SKW_CH_CTL_IRQ_EN k) = 1 then 2 else 0) 0 d

/-- R507: SKW.CH[k].CTL. Its CAP_CFG change waits for its catch as a host write with no context open (R508). -/
def skwCtl (k v : Nat) (d : Dev) : Dev :=
  let d := immWrite [SKW_CH_CTL_ACT k, SKW_CH_CTL_IRQ_EN k, SKW_CH_CTL_CAP_EDGE k] v d
  let e := d.get (SKW_CH_CTL_IRQ_EN k)
  let cause (b : Bool) (i : Nat) (d : Dev) : Dev := d.putBit (CH_IRQ_EN_EN k) i b
  let d := cause (e == 1) 2 (cause (e == 1) 0 d)
  let edge := d.get (SKW_CH_CTL_CAP_EDGE k)
  let w : Staged := if edge = 0 then ⟨(CH_CAP_CFG_MEAS k).addr, 0, 0x07, d.inFinish⟩
    else ⟨(CH_CAP_CFG_MEAS k).addr, 1 + 8 * (edge - 1) + 64, 0x5F, d.inFinish⟩
  let d := { d with txn := { d.txn with unbound := d.txn.unbound ++ [w] } }
  onBit v 8 (skwGo k) d

/-- A write in the SK-640 window. -/
def skwWrite (m : Master) (a v : Nat) (d : Dev) : Dev :=
  if a < 0x160800 ∧ a % 0x20 = 8 then skwCtl ((a - 0x160000) / 0x20) v d
  else if a = 0x16080c then pendClear 0 (v % 2 ^ 32) d
  else if a = 0x160810 then pendClear 1 (v % 2 ^ 32) d
  else if a = 0x160818 then irqEoi 0 d
  else if a = 0x16081c then d.set (IRQ_T_CTRL_EN 0) (v % 2)
  else plainWrite m a v d

/-- Writes that a master may not make: engines to the CE control block but for their own causes (R220), and engines, DMA, the crew link
and Keel to TRUST and LOG (R477). -/
def writeDenied (m : Master) (a : Nat) : Bool :=
  match m with
  | .ce n => (a / 0x10000 == 5 && a != 0x50024 + 0x2000 * n) || a / 0x10000 == 0x11 || a / 0x10000 == 0x12
  | _ => (a / 0x10000 == 0x11 || a / 0x10000 == 0x12) && m.hostIdx.isNone

/-- A write of a whole register by master `m`. -/
def regWrite (m : Master) (a v : Nat) (d : Dev) : Dev :=
  let a := a - a % 4
  if !d.isReg a then unmapped m d
  else if writeDenied m a then d
  else if a / 0x10000 = 0x16 then skwWrite m a v d
  else match unitWrite m a v d with
  | some d => d
  | none => unitAction m a v (plainWrite m a v d)

/-! ### The device address space -/

/-- The master number that a bank's busy indication uses: one above the master's own, 0 standing for none. -/
def busyOf (m : Master) : Nat := m.num + 1

/-- R36: bank `k` is closed to reads or writes of the master. -/
def Dev.bankClosed (d : Dev) (m : Master) (k : Nat) (write : Bool) : Bool :=
  match k with
  | 8 => write && m != .dma
  | 9 => m != .keel && d.mode != 5
  | _ => false

/-- R434: an access of the fabric to `n` bytes of a bank: every 16-bit word that holds one of them. -/
def bankRead (m : Master) (k a n : Nat) (d : Dev) : Nat × Dev :=
  let lo := a - a % 2
  let r := bankReadWords lo (fabricBankPort k) (busyOf m) ((a + n - lo + 1) / 2) d
  (r.1 / 256 ^ (a - lo) % 256 ^ n, r.2)

/-- A read of `n` bytes at `a` by master `m`, in the TCLK in which it reaches its target. -/
def devRead (m : Master) (a n : Nat) (d : Dev) : Nat × Dev :=
  if a < 0x170000 then (if n = 4 ∧ a % 4 = 0 then regRead m a 2 d else (0, badSize m d))
  else if 0x800000 ≤ a ∧ a < 0xA00000 then
    (if n = 4 ∧ a % 4 = 0 then (d.mem.read a 4, d) else (0, badSize m d))
  else match bankOf a with
  | some k => if d.bankClosed m k false then (0, unmapped m d) else bankRead m k a n d
  | none => if d.dramMapped a then (d.mem.read a n, d) else (0, unmapped m d)

/-- R338: the stroke-data table takes no writes while the crew link is in use. -/
def Dev.sdLocked (d : Dev) (a : Nat) : Bool := d.on CREW_CTRL_ENABLE && decide (0x1FF0000 ≤ a) && decide (a < 0x2000000)

/-- A write of `n` bytes of `v` at `a` by master `m`. -/
def devWrite (m : Master) (a n v : Nat) (d : Dev) : Dev :=
  if a < 0x170000 then (if n = 4 ∧ a % 4 = 0 then regWrite m a v d else badSize m d)
  else if 0x800000 ≤ a ∧ a < 0xA00000 then
    (if n = 4 ∧ a % 4 = 0 then { d with mem := d.mem.write a v 4 } else badSize m d)
  else match bankOf a with
  | some k =>
    if d.bankClosed m k true then unmapped m d
    else if d.sdLocked a then d
    else bankWriteBytes (fabricBankPort k) (busyOf m) 65 a v n d
  | none =>
    if !d.dramMapped a then unmapped m d
    else if m ≠ .keel ∧ (d.inSlot a ∨ d.inSlot (a + n - 1)) then slotDeny d
    else { d with mem := d.mem.write a v n }

/-- The error that a read of `n` bytes at `a` meets: `kind`, or that of a word which holds one (R438). -/
def Dev.errOf (d : Dev) (kind a n : Nat) : Nat := if d.badIn a n then max kind 2 else kind

/-- The same read where it meets an error of `kind` (R438, R445): a host reads all ones from an uncorrectable one (R450). -/
def devReadErr (m : Master) (err a n : Nat) (d : Dev) : Nat × Dev :=
  let kind := d.errOf err a n
  let r := devRead m a n d
  let d := readErr err a r.2
  if 2 ≤ kind ∧ ((bankOf a).isSome ∨ 0x80000000 ≤ a) then (256 ^ n - 1, d) else (r.1, d)

end Sys2Proof.Machine
end

