-- ==== Sys2Proof/Machine/CeRun.lean ====
section
/-!
DEFINITION. Sys2Proof/Machine/CeRun.lean: what the control engines do in a TCLK: wheel accesses that reach their targets (R42–R45, R218,
R219), interrupt entry and wake (R235–R237), starts (R208), single steps (R238) and the issue of bundles.
-/
namespace Sys2Proof.Machine

/-! ### The time wheel -/

/-- R218: the word that a store writes to a 32-bit register: a single-word store writes the other half as 0. -/
def storeWord (op : WheelOp) : Nat :=
  if op.pair then op.data % 2 ^ 32 else if op.word % 2 = 1 then op.data % 65536 * 65536 else op.data % 65536

/-- A wheel store reaches its target; what it changes at a catch was accepted at the retirement of its bundle (R24). -/
def wheelStore (n : Nat) (op : WheelOp) (d : Dev) : Dev :=
  let a := 2 * op.word
  match bankOf a with
  | some k =>
    if d.sdLocked a then d
    else bankWriteBytes (wheelBankPort k + 16 * n) (busyOf (.ce n)) 4 a op.data (if op.pair then 4 else 2) d
  | none =>
    let acc (o : Option Nat) (d : Dev) : Dev := { d with clock := { d.clock with accept := o } }
    acc none (regWrite (.ce n) a (storeWord op) (acc (some op.at_) d))

/-- A wheel load samples register halves, or bank words; the lane holds them until `doneAt`, when they land (R43, R219). -/
def wheelLoad (n : Nat) (op : WheelOp) (d : Dev) : Dev :=
  let a := 2 * op.word
  let put (p v : Nat) (d : Dev) : Dev := land n op.doneAt 3 (.reg p (v % 65536)) d
  match bankOf a with
  | some k =>
    let word (w p : Nat) (d : Dev) : Dev :=
      let r := bankReadWord (2 * w) (wheelBankPort k + 16 * n) (busyOf (.ce n)) (p + 1) d
      put p r.1 r.2
    if op.pair then word (op.word + 1) op.dest2 (word op.word op.dest d) else word op.word op.dest d
  | none =>
    let r := regRead (.ce n) a (if op.pair then 2 else op.word % 2) d
    if op.pair then put op.dest2 (r.1 / 65536) (put op.dest r.1 r.2) else put op.dest r.1 r.2

/-- The access `op` of engine `n` reaches its target. -/
def wheelReach (n : Nat) (op : WheelOp) (d : Dev) : Dev :=
  let d := d.putCe n { d.ceAt n with wheel := (d.ceAt n).wheel.erase op }
  if op.store then wheelStore n op d else wheelLoad n op d

/-- Every access of engine `n` that reaches its target in this TCLK does so, in issue order. -/
def wheelTick (n : Nat) (d : Dev) : Dev :=
  ((d.ceAt n).wheel.filter fun op => decide (op.reachAt ≤ d.clock.now)).foldl (fun d op => wheelReach n op d) d

/-- R45: the wheel accesses of this TCLK: they come before a write on a fabric port, and after a read on one. -/
def wheelTicks (d : Dev) : Dev := forUpTo 8 wheelTick d

/-! ### Interrupt entry and wake -/

/-- R235: engine `n` can take an interrupt: IE is 1, TS is 0, and it is RUNNING, YIELDED or WAITING. -/
def Dev.ceTakes (d : Dev) (n : Nat) : Bool :=
  let run := d.get (CE_STATUS_RUN n)
  d.flag n 4 && !d.flag n 5 && decide (1 ≤ run) && decide (run ≤ 3)

/-- R235, R548: engine `n` fetches the INTERRUPT vector 4 engine cycles after a source became pending at its target, or as soon as it
can take it (R249). -/
def Dev.irqFetchAt (d : Dev) (n : Nat) : Option Nat :=
  if d.ceTakes n then (d.ceAt n).pendAt.map fun p => d.cycleUp (max d.clock.now (d.cycleUp p + 4 * ceCycle d.mode)) else none

/-- The engine takes its interrupt in the engine cycle that begins now. -/
def Dev.irqDue (d : Dev) (n : Nat) : Bool := d.irqFetchAt n == some d.clock.now

/-- INTERRUPT_ENTRY: the INTERRUPT vector is fetched and target T(2 + n) claims (R235, R236, R399). -/
def interruptEntry (n : Nat) (d : Dev) : Dev :=
  if d.ceTakes n ∧ d.tclkRuns then
    let run := d.get (CE_STATUS_RUN n)
    let r := irqClaim (2 + n) d
    let d := r.2
    let fl := d.spec n 0
    let d := setSpec n 7 (fl % 128 + (if run = 2 then 128 else 0)) d
    let d := setSpec n 6 (d.get (CE_STATUS_PC n)) d
    let d := setSpec n 5 r.1.1 d
    let d := setSpec n 0 (fl - (fl &&& 16)) d
    let d := d.putCe n { d.ceAt n with issueAt := d.clock.now + ceCycle d.mode, wakeFrom := none }
    ceShow n ((d.set (CE_STATUS_PC n) ((d.get (CE_VEC_BASE n) + 8) % 65536)).set (CE_STATUS_RUN n) 1)
  else d

/-- R237: a wake condition holds. -/
def Dev.ceWakes (d : Dev) (n : Nat) : Bool := d.spec n 4 != 0 || (d.ceAt n).pendAt.isSome

/-- R237, R548: engine `n`, WAITING, wakes 2 engine cycles after a wake condition appeared. -/
def Dev.wakeUpAt (d : Dev) (n : Nat) : Option Nat :=
  if d.get (CE_STATUS_RUN n) = 3 ∧ d.ceWakes n then
    (d.ceAt n).wakeFrom.map fun p => d.cycleUp (max d.clock.now (d.cycleUp p + 2 * ceCycle d.mode))
  else none

/-- WAIT_WAKE: a WAITING engine wakes; it takes the interrupt when it may, 2 engine cycles later, and otherwise issues the next
bundle. -/
def waitWake (n : Nat) (d : Dev) : Dev :=
  if d.get (CE_STATUS_RUN n) = 3 ∧ d.ceWakes n then
    let c := d.ceAt n
    let at_ := if d.ceTakes n ∧ c.pendAt.isSome then d.clock.now + 3 * ceCycle d.mode else d.clock.now
    (d.putCe n { c with issueAt := max c.issueAt at_, wakeFrom := none }).set (CE_STATUS_RUN n) 1
  else d

/-! ### Issue -/

/-- The first issue cycle of engine `n` from now on (R210). -/
def Dev.ceSlot (d : Dev) (n : Nat) : Nat := d.cycleUp (max d.clock.now (d.ceAt n).issueAt)

/-- The engine runs bundles. -/
def Dev.ceIssues (d : Dev) (n : Nat) : Bool :=
  d.get (CE_STATUS_RUN n) == 1 && d.tclkRuns && cePresent d.mode n

/-- The engine may issue a bundle in this TCLK: an engine cycle in which one is due begins, and no interrupt is taken in it (R249). -/
def Dev.ceTurn (d : Dev) (n : Nat) : Bool := d.ceIssues n && d.ceSlot n == d.clock.now && !d.irqDue n

/-- R238: the bundle of a STEP has issued: the engine halts again. -/
def ceStepped (n : Nat) (d : Dev) : Dev :=
  let c := d.ceAt n
  let run := d.get (CE_STATUS_RUN n)
  if c.step then
    let d := d.putCe n { c with step := false, haltRun := run }
    if 1 ≤ run ∧ run ≤ 3 then d.set (CE_STATUS_RUN n) 4 else d
  else d

/-- The bundle `b` at the PC of engine `n` issues in this TCLK, or waits for the wheel (R44). -/
def ceIssue (n : Nat) (b : List Syl) (d : Dev) : Dev :=
  let s := d.stallTo n b d.clock.now
  if bundleOk (d.repeats n) b ∧ d.clock.now < s then d.putCe n { d.ceAt n with issueAt := s }
  else ceStepped n (issueBundle n b d)

/-- The bundle that engine `n`'s instruction memory holds at its PC. -/
def Dev.ceFetch (d : Dev) (n : Nat) : List Syl := d.bundle n 8 (d.get (CE_STATUS_PC n))

/-! ### Starts -/

/-- The condition selectors that the active rig image gives engine `n`. -/
def Dev.ceSelectors (d : Dev) (n : Nat) : List Nat :=
  match d.activeSlot with
  | some s => ((d.slotImage s).getD {}).selectors n
  | none => List.replicate 15 15

/-- R208, R307, R523: engine `n` may start at a catch. -/
def Dev.ceCanStart (d : Dev) (n : Nat) : Bool :=
  d.on (CE_CTRL_ENABLE n) && (d.get (CE_STATUS_RUN n) == 0 || d.get (CE_STATUS_RUN n) == 6) && cePresent d.mode n &&
  !bit d.rig.blocked n && !d.on SYS_RST_STATUS_WARM_BUSY && d.clock.phase == .run

/-- CE_START: engine `n` starts in the catch cycle. -/
def ceStart (n : Nat) (d : Dev) : Dev :=
  if d.ceCanStart n ∧ d.clock.now = d.clock.openAt then ceBegin n (d.ceSelectors n) d else d

/-! ### Time -/

/-- What engine `n` has issued and what can be seen from this TCLK on: writes that land and results of its insertions (R244, R262). -/
def ceLand (n : Nat) (d : Dev) : Dev := timRun n (landTo n d.clock.now d)

/-- R235, R237: engine `n` sees what is pending at its target and whether a wake condition holds. -/
def ceWatch (n : Nat) (d : Dev) : Dev :=
  let c := d.ceAt n
  let t := d.clock.now
  let pend := if d.ceIrq n then some (c.pendAt.getD t) else none
  let wake := if d.get (CE_STATUS_RUN n) = 3 ∧ (d.spec n 4 ≠ 0 ∨ pend.isSome) then some (c.wakeFrom.getD t) else none
  if pend = c.pendAt ∧ wake = c.wakeFrom then d else d.putCe n { c with pendAt := pend, wakeFrom := wake }

/-- What engine `n` does in this TCLK: it takes an interrupt, wakes, or issues the bundle due. -/
def ceTick (n : Nat) (d : Dev) : Dev :=
  if !cePresent d.mode n ∨ d.get (CE_STATUS_RUN n) = 0 then d
  else
    let d := ceWatch n d
    if d.irqDue n then interruptEntry n d
    else
      let d := if d.wakeUpAt n = some d.clock.now then waitWake n d else d
      if d.ceTurn n then ceIssue n (d.ceFetch n) d else d

end Sys2Proof.Machine
end

