-- ==== Sys2Proof/Machine/Dma.lean ====
section
/-!
DEFINITION. Sys2Proof/Machine/Dma.lean: DMA bursts and check-unit scans, which read and write the device address space
(R411, R413, R416–R423, R426–R430).
-/
namespace Sys2Proof.Machine

/-- The bytes of an end that lie behind one another from offset `i`, at most `n`: words of a FIXED end and of register space,
the rest of a WRAP32 window, or all of them (R413). -/
def chunkLen (mode a i n : Nat) : Nat :=
  let b := modeAddr mode a i
  if mode = 1 ∨ b < 0x170000 then min n 4
  else if mode = 2 then min n (32 - b % 32)
  else min n 64

/-- R178: the DMA channel named by SPLIT_CFG takes the splits of a streaming channel. -/
def streamRead (c b : Nat) (d : Dev) : Nat × Dev :=
  let n := (b - 0x100000) / 0x100
  if 0x100000 ≤ b ∧ b < 0x110000 ∧ 0xe0 ≤ b % 0x100 ∧ d.on (CH_SPLIT_CFG_STREAM n) ∧ d.get (CH_SPLIT_CFG_DMA_CH n) = c then
    let r := fifoRead (d.chAt n).fifo ((b % 0x100 - 0xe0) / 4) true
    (r.1, chShow n (d.putCh n { d.chAt n with fifo := r.2 }))
  else regRead .dma b 2 d

/-- One read of `n` bytes at `b` by channel `c`: registers give whole words. -/
def dmaReadAt (c b n : Nat) (d : Dev) : List Nat × Dev :=
  if b < 0x170000 then let r := streamRead c (b - b % 4) d; ((leBytes r.1 4).take n, r.2)
  else let r := devRead .dma b n d; (leBytes r.1 n, r.2)

/-- Read bytes `i` to `i + n − 1` of a source. -/
def dmaReadEnd (c mode a : Nat) : Nat → Nat → Nat → Dev → List Nat × Dev
  | 0, _, _, d => ([], d)
  | fuel + 1, i, n, d =>
    if n = 0 then ([], d)
    else
      let k := chunkLen mode a i n
      let r := dmaReadAt c (modeAddr mode a i) k d
      let s := dmaReadEnd c mode a fuel (i + k) (n - k) r.2
      (r.1 ++ s.1, s.2)

/-- Write `bs` from offset `i` of a destination; a word of a FIXED end or of register space is padded with zero bytes. -/
def dmaWriteEnd (mode a : Nat) : Nat → Nat → List Nat → Dev → Dev
  | 0, _, _, d => d
  | fuel + 1, i, bs, d =>
    if bs.isEmpty then d
    else
      let k := chunkLen mode a i bs.length
      let b := modeAddr mode a i
      let v := leNum (bs.take k)
      let d := if b < 0x170000 then regWrite .dma b v d
        else devWrite .dma b (if mode = 1 then 4 else k) v d
      dmaWriteEnd mode a fuel (i + k) (bs.drop k) d

/-- Bytes that the descriptor in service moves in all (R412, R423). -/
def Dma.total (s : Dma) (x : DmaDesc) : Nat := if x.xfer = 1 then min x.len s.frame.length else x.len

/-- R420: the size of a burst at its grant. -/
def Dev.burstSize (d : Dev) (c : Nat) (x : DmaDesc) (s : Dma) : Nat :=
  let n := min (d.get (DMA_BURST_BYTES c)) (s.total x - d.get (DMA_DONE_BYTES_BYTES c))
  let l := d.dmaLevel (d.get (DMA_CFG_LSRC c))
  if d.get (DMA_CFG_PACE c) = 1 ∧ x.xfer = 0 ∧ l.2 ≠ 0 then min n (l.1 * l.2) else n

/-- R418, R423: a burst that consumes an event: each of PACE 2, and the first of a descriptor of PACE 3 or of a frame. -/
def Dev.takesEvent (d : Dev) (c : Nat) (x : DmaDesc) (s : Dma) : Bool :=
  match d.get (DMA_CFG_PACE c) with
  | 2 => x.xfer == 0 || !s.began
  | 3 => !s.began
  | _ => false

/-- R423: the frame that an Ethernet receive descriptor takes at its first burst. -/
def takeFrame (c : Nat) (x : DmaDesc) (d : Dev) : Dev :=
  let s := d.dmaAt c
  if x.xfer = 1 ∧ !s.began then
    match d.xferPort c 1 with
    | some p =>
      let e := d.ethAt p
      (d.putEth p { e with rx := e.rx.tail }).putDma c { s with frame := e.rx.headD [] }
    | none => d
  else d

/-- The requests that move `n` bytes of an end from offset `i`: offset, address and bytes of each. None crosses a 64-byte boundary (R417); a
WRAP32 end goes by its 32-byte window. -/
def burstReqs (mode a i n : Nat) : List (Nat × Nat × Nat) :=
  match mode with
  | 0 => (pieces 3 (a + i) n).map fun p => (p.1 - a, p.1, p.2)
  | 1 => if n = 0 then [] else [(i, a - a % 4, n)]
  | _ => (if n = 0 then [] else [(i, modeAddr 2 a i, min n 32)]) ++ (if n ≤ 32 then [] else [(i + 32, modeAddr 2 a (i + 32), n - 32)])

/-- Issue a burst's requests. -/
def burstPut (c : Nat) (write : Bool) (out : List Nat) (i : Nat) (rs : List (Nat × Nat × Nat)) (d : Dev) : Dev :=
  rs.foldl (fun d r => dmaPut c (.data r.1) write r.2.1 r.2.2 (leNum ((out.drop (r.1 - i)).take r.2.2)) d) d

/-- R430: the residue of a CHECK_STRIP descriptor after its last byte; a mismatch is recorded. -/
def chkVerdict (u : Nat) (d : Dev) : Bool × Dev :=
  if d.on (CHK_STATUS_RESIDUE_OK u) then (true, d)
  else (false, (d.inc (CHK_COUNTS_FAIL_CNT u)).cause (CHK_IRQ_STAT_FAIL u))

/-- ACTIVE to READBACK: judge the residue (R430) or hand the frame to its port (R423), and start the completion sequence (R424). -/
def burstEnd (c : Nat) (x : DmaDesc) (d : Dev) : Dev :=
  let s := d.dmaAt c
  let v := if x.chkOp = 3 then chkVerdict x.unit d else (true, d)
  let d := v.2
  let res := if !v.1 then 2 else if x.xfer = 1 ∧ x.len < s.frame.length then 1 else 0
  let d := match (if x.xfer = 2 then d.xferPort c 2 else none) with
    | some p => d.putEth p { d.ethAt p with tx := (d.ethAt p).tx ++ [s.frame] }
    | none => d
  dmaEnd c res (dmaState c 4 (d.putDma c { d.dmaAt c with burst := none, stop := false }))

/-- The last byte has been written: RESULT follows it under APPEND (R429). -/
def burstLast (c : Nat) (x : DmaDesc) (d : Dev) : Dev :=
  if x.chkOp = 2 ∧ x.xfer ≠ 2 then
    let s := d.dmaAt c
    let i := s.total x
    let out := leBytes (d.get (CHK_RESULT_RESULT x.unit)) (d.chkWidth x.unit)
    let rs := burstReqs x.dstMode x.dst i out.length
    burstPut c true out i rs (d.putDma c { s with
      burst := some { n := 0, parts := [], left := rs.length, writing := true }, lastDst := some (modeAddr x.dstMode x.dst (i + out.length - 1)) })
  else burstEnd c x d

/-- Every byte of a burst of `n` has been written (R415, R422). -/
def burstDone (c : Nat) (x : DmaDesc) (n : Nat) (d : Dev) : Dev :=
  let i := d.get (DMA_DONE_BYTES_BYTES c) + n
  let d := (d.set (DMA_DONE_BYTES_BYTES c) i).putDma c { d.dmaAt c with burst := none }
  if (d.dmaAt c).stop then dmaHalt c d
  else if (d.dmaAt c).total x ≤ i then burstLast c x d
  else d

/-- The reads of channel `c`'s burst have returned: its writes are issued, but not after an uncorrectable error (R415, R417, R426). -/
def burstIssue (c : Nat) (x : DmaDesc) (b : DmaBurst) (d : Dev) : Dev :=
  if 2 ≤ b.err then dmaFail c 6 d
  else
    let s := d.dmaAt c
    let data := b.parts.flatMap Prod.snd
    let i := d.get (DMA_DONE_BYTES_BYTES c)
    let total := s.total x
    let d := if x.chkOp = 0 then d else chkTake x.unit data d
    let keep := if x.chkOp = 3 then total - d.chkWidth x.unit else total
    let out := data.take (keep - i)
    if x.xfer = 2 then burstDone c x b.n (d.putDma c { d.dmaAt c with frame := s.frame ++ out })
    else
      let rs := burstReqs x.dstMode x.dst i out.length
      if rs.isEmpty then burstDone c x b.n d
      else burstPut c true out i rs (d.putDma c { d.dmaAt c with
        burst := some { b with left := rs.length, writing := true }, lastDst := some (modeAddr x.dstMode x.dst (i + out.length - 1)) })

/-- BURST: the engine grants one channel a burst, and its reads are issued (R416, R417, R420). -/
def burst (d : Dev) : Dev :=
  match d.dmaWinner with
  | none => d
  | some c =>
    match (d.dmaAt c).desc with
    | none => d
    | some x =>
      let d := takeFrame c x d
      let s := d.dmaAt c
      let i := d.get (DMA_DONE_BYTES_BYTES c)
      let n := d.burstSize c x s
      let d := if d.takesEvent c x s then eventTake c d else d
      if x.xfer = 1 then burstIssue c x ⟨n, [(i, (s.frame.drop i).take n)], 0, 0, false⟩ (d.putDma c { d.dmaAt c with began := true })
      else
        let rs := burstReqs x.srcMode x.src i n
        burstPut c false [] i rs (d.putDma c { d.dmaAt c with burst := some { n := n, parts := [], left := rs.length }, began := true })

/-- One request of a burst has reached its target; `err` is the error of a read. -/
def burstPart (c i : Nat) (a : Access) (err : Nat) (d : Dev) : Dev :=
  match (d.dmaAt c).desc, (d.dmaAt c).burst with
  | some x, some b =>
    if a.write then
      let d := dmaWriteEnd x.dstMode x.dst 17 i (leBytes a.data a.bytes) d
      if 1 < b.left then d.putDma c { d.dmaAt c with burst := some { b with left := b.left - 1 } }
      else if b.n ≠ 0 then burstDone c x b.n d
      else if (d.dmaAt c).stop then dmaHalt c d
      else burstEnd c x d
    else
      let r := dmaReadEnd c x.srcMode x.src 17 i a.bytes d
      let b := { b with parts := aput i r.1 b.parts, left := b.left - 1, err := max b.err err }
      let d := r.2.putDma c { r.2.dmaAt c with burst := some b }
      if b.left = 0 then burstIssue c x b d else d
  | _, _ => d

/-! ### Scans (R428) -/

/-- Read `n` bytes for a scan of unit-stride addresses, at most `fuel` accesses. -/
def scanRead (a n : Nat) (d : Dev) : List Nat × Dev := dmaReadEnd 16 0 a (n / 4 + 2) 0 n d

/-- Bytes of a scan have been read: the unit takes them and the scan goes on, or ends: after its last byte, or at a word with an
uncorrectable error, whose bytes it does not take. -/
def scanGot (n : Nat) (a : Access) (err : Nat) (d : Dev) : Dev :=
  let s := d.scanAt n
  let hit := match s.bad with
    | some e => if s.addr ≤ e ∧ e < s.addr + a.bytes then some e else none
    | none => none
  let d := match hit with | some e => readErr 2 e d | none => d
  let fail := hit.isSome || decide (2 ≤ err)
  let k := match hit with | some e => e - s.addr | none => if 2 ≤ err then 0 else a.bytes
  let r := scanRead s.addr k d
  let d := chkTake n r.1 r.2
  if fail ∨ s.left ≤ k then
    let d := if fail then d.cause (CHK_STATUS_LAST_FAIL n) else d
    chkRelease n ((d.putScan n {}).cause (CHK_IRQ_STAT_SCAN_DONE n))
  else scanNext n (d.putScan n { s with addr := s.addr + k, left := s.left - k })

/-! ### Requests at their targets -/

/-- A request of the DMA engine reaches its target; `kind` is the error that its read meets there (R414, R415, R424, R438, R445). -/
def dmaPerform (kind : Nat) (a : Access) (d : Dev) : Dev :=
  let c := a.tag % 16
  let err := d.errOf (max kind a.err) a.addr a.bytes
  let d := readErr kind a.addr d
  let cur := bits a.data 64 32
  let broken := decide (2 ≤ err) && d.get (DMA_STATUS_STATE c) == 4
  match DmaKind.ofTag a.tag with
  | .data i => burstPart c i a err d
  | .desc => descFetched c a.addr (decide (2 ≤ err)) d
  | .last => if broken then dmaFail c 6 (d.putDma c { d.dmaAt c with lastDst := none }) else dmaPut c .back true (cur + 20) 12 a.data d
  | .back =>
    let v := bits a.data 0 32 + 2 ^ 32 * (d.clock.now % 1000000000) + 2 ^ 64 * bits a.data 32 32
    let d := bankWriteBytes (fabricBankPort ((bankOf cur).getD 0)) 7 12 (cur + 20) v 12 d
    dmaPut c .status false (cur + 28) 4 a.data d
  | .status => if broken then dmaFail c 6 (d.putDma c { d.dmaAt c with lastDst := none }) else dmaFinish c a.data d
  | .scan => scanGot c a err d

end Sys2Proof.Machine
end

