-- ==== Sys2Proof/Machine/Fabric.lean ====
section
/-!
DEFINITION. Sys2Proof/Machine/Fabric.lean: what the access fabric grants and the DRAM controller completes (R37–R41, R443), with the
answers that go back to PCIe and the crew link, the SPI and I2C transactions (R457–R462), and remote register access (R340).
-/
namespace Sys2Proof.Machine

/-! ### Remote register access on the target (R340) -/

/-- The tag of a remote access: its message number and generation, and whether it is staged in the crew transaction. -/
def raTag (seq : Nat) (inCc : Bool) : Nat := seq % 65536 + 65536 * b2n inCc

/-- RA_RESP goes towards the lead. -/
def raRespond (tag result data : Nat) (d : Dev) : Dev :=
  crewSend (d.get CREW_STATUS_UP_PORT) 0x31 bcast (tag % 65536) [result, data] d

/-- The access with the crew link's context bound only when it is staged there; otherwise it applies under R311. -/
def asCrew (tag : Nat) (f : Dev → Nat × Dev) (d : Dev) : Nat × Dev :=
  if 65536 ≤ tag then f d
  else
    let b := d.bound .crew
    let r := f (bindCtx Master.crew.num none d)
    (r.1, bindCtx Master.crew.num b r.2)

/-! ### An access reaches its target -/

/-- A read of memory has met an uncorrectable error, which its master is told of (R450). -/
def poisonedRead (err : Nat) (a : Access) : Bool := decide (2 ≤ err) && ((bankOf a.addr).isSome || decide (0x80000000 ≤ a.addr))

/-- R458–R460: word `tag % 256` of an SPI read returns: it is sent unless its first bit was due before; the status byte follows. -/
def spiAnswer (tag v : Nat) (poisoned : Bool) (d : Dev) : Dev :=
  let h := d.host
  let out := if bit tag 8 then h.spiOut else h.spiOut.set (tag % 256) v
  { d with host := { h with
    spiOut := out, spiStatus := d.get MEM_BUSY_SPI + 2 * bits h.spiStatus 1 1 + 4 * b2n (bit h.spiStatus 2 || poisoned) } }

/-- R461, R462: the data of an I2C read at `addr` returns; the PEC byte of one with an uncorrectable error is inverted (R450). -/
def i2cAnswer (addr v : Nat) (poisoned : Bool) (d : Dev) : Dev :=
  let pec := d.pecRead addr v
  { d with host := { d.host with i2cOut := beBytes v ++ (if d.on HOST_I2C_CFG_PEC_EN then [if poisoned then pec ^^^ 255 else pec] else []) } }

/-- What a read returns goes back to its master; that of an abandoned one to nobody. -/
def answer (a : Access) (v : Nat) (poisoned : Bool) (d : Dev) : Dev :=
  if a.tag = noTag then d
  else match a.master with
  | .pcie => { (d.ret .pcie (v % 2 ^ 32)) with host := { d.host with cpl := d.host.cpl ++ [⟨a.tag, v, a.bytes, poisoned⟩] } }
  | .crew => raRespond a.tag 1 (v % 2 ^ 32) d
  | .spi => spiAnswer a.tag v poisoned (d.ret .spi v)
  | .i2c => i2cAnswer a.addr v poisoned (d.ret .i2c v)
  | m => d.ret m (v % 2 ^ 32)

/-- Perform an access; `kind` is the error that its read meets (R438, R445): 0 none, 1 correctable, 2 uncorrectable. -/
def perform (kind : Nat) (a : Access) (d : Dev) : Dev :=
  if a.carries then fabCarry a.master (a.addr + a.bytes) a.tag d
  else if a.master = .dma then dmaPerform kind a d
  else
    let err := d.errOf (max kind a.err) a.addr a.bytes
    if a.master = .crew then
      let r := asCrew a.tag (fun d =>
        if a.write then (0, devWrite .crew a.addr a.bytes a.data d) else devReadErr .crew (max kind a.err) a.addr a.bytes d) d
      raRespond a.tag 1 (r.1 % 2 ^ 32) r.2
    else if a.write then devWrite a.master a.addr a.bytes a.data d
    else
      let r := devReadErr a.master (max kind a.err) a.addr a.bytes d
      answer a r.1 (poisonedRead err a) r.2

/-! ### Grants (R37–R41) -/

/-- R38: the older of two requests; equal stamps go to the lower port. -/
def fabOlder (now : Nat) (a b : FabReq) : Bool :=
  let age (r : FabReq) : Nat := (now + 65536 - r.stamp) % 65536
  decide (age b < age a) || (age a == age b && decide (a.port < b.port))

/-- The request that is granted next. -/
def Dev.fabNext (d : Dev) : Option FabReq :=
  d.fab.reqs.foldl (fun best r =>
    match best with
    | none => some r
    | some b => if fabOlder (d.clock.now % 65536) r b then some r else best) none

/-- R40, R41: the longest wait recorded. -/
def fabWaited (wait : Nat) (d : Dev) : Dev := if d.get SYS_FAB_MAXWAIT_MAXWAIT < wait then d.setSat SYS_FAB_MAXWAIT_MAXWAIT wait else d

/-- The oldest request takes the link, when that is free, and reaches its target; a DRAM access goes on to the controller. `kind` is the
error that its read meets. -/
def fabGrant (kind : Nat) (d : Dev) : Dev :=
  match d.fabNext with
  | none => d
  | some r =>
    if !d.hostsRun ∨ d.clock.now < d.fab.freeAt then d
    else
      let t := d.clock.now
      let d := fabWaited (t - r.at_) d
      let d := { d with fab := { d.fab with reqs := d.fab.reqs.erase r, freeAt := t + if 32 < r.acc.bytes then 4 else 2 } }
      let d := if d.dramMapped r.acc.addr && !r.acc.carries then { d with memc := { d.memc with dram := d.memc.dram ++ [⟨t, r.acc⟩] } }
        else perform kind r.acc d
      fabEnter 8 d

/-- The access comes after the wheel's accesses of its TCLK: a write (R45), and a read that claims an interrupt, which a mask write or an
end of interrupt of the same TCLK precedes (R398). -/
def Access.afterWheel (a : Access) : Bool := a.write || (decide (0xb2000 ≤ a.addr) && decide (a.addr < 0xb3000) && a.addr % 0x40 == 4) ||
  a.addr == 0x160814

/-- The next grant is of an access after the wheel's accesses of the TCLK (`w`), or of one before them. -/
def fabTurn (w : Bool) (d : Dev) : Dev := if d.fabNext.any fun r => r.acc.afterWheel == w then fabGrant 0 d else d

/-- Device time at which the link can next be granted, while a request waits for it. -/
def Dev.grantAt (d : Dev) : Option Nat := d.fabNext.map fun _ => max d.clock.now d.fab.freeAt

/-- FABRIC_GRANT: where the access comes after the wheel's, those come first (R45). -/
def fabGrantNow (kind : Nat) (d : Dev) : Dev := fabGrant kind (if d.fabNext.any fun r => r.acc.afterWheel then wheelTicks d else d)

/-- DRAM_ACCESS_COMPLETE: the oldest accepted request completes (R443). -/
def dramComplete (kind : Nat) (d : Dev) : Dev :=
  match d.memc.dram with
  | [] => d
  | q :: r =>
    if !d.hostsRun then d
    else
      let d := { d with memc := { d.memc with dram := r } }
      fabEnter 8 (maxLat (d.clock.now - q.at_) (perform kind q.acc d))

/-! ### SPI (R457–R460) -/

/-- SPI_WRITE: each whole word enters the fabric; `part` tells that a further word has begun. -/
def spiWrite (addr : Nat) (words : List Nat) (part : Bool) (d : Dev) : Dev :=
  if !d.tclkRuns then d
  else
    let a := addr - addr % 4
    let d := (List.range words.length).foldl (fun d k => fabPut ⟨.spi, true, a + 4 * k, words.getD k 0 % 2 ^ 32, 4, 0, 0⟩ d) d
    { d with host := { d.host with spiPartial := part } }

/-- A read of `m` whose transaction is over: its data goes to nobody. -/
def forgetRead (m : Master) (a : Access) : Access := if a.master = m ∧ !a.write then { a with tag := noTag } else a

/-- SPI_READ of `n` words, each issued when the data of the one before has returned (R459). The words of `late` are not back when their
first bit is due; those of `bad` meet an uncorrectable error. -/
def spiRead (addr n late bad : Nat) (d : Dev) : Dev :=
  if !d.tclkRuns then d
  else
    let a := addr - addr % 4
    let n := if n % 256 = 0 then 1 else n % 256
    let lates := (List.range n).filter (bit late)
    let d := d.mapReqs (forgetRead .spi)
    let d := lates.foldl (fun d _ => d.inc HOST_SPI_STAT_LATE_CNT) d
    let d := { d with host := { d.host with
      spiOut := List.replicate n (2 ^ 32 - 1), spiStatus := d.get MEM_BUSY_SPI + 2 * b2n (!lates.isEmpty) } }
    (List.range n).foldl (fun d k => fabPut ⟨.spi, false, a + 4 * k, 0, 4, k + 256 * b2n (bit late k), if bit bad k then 2 else 0⟩ d) d

/-! ### I2C (R461, R462) -/

/-- I2C_WRITE with its PEC byte, if it has one. -/
def i2cWrite (addr data : Nat) (pec : Option Nat) (d : Dev) : Dev :=
  if !d.tclkRuns then d
  else if d.on HOST_I2C_CFG_PEC_EN ∧ pec ≠ some (d.pecWrite addr data) then d.inc HOST_I2C_STAT_PEC_ERR_CNT
  else fabPut ⟨.i2c, true, addr, data % 2 ^ 32, 4, 0, 0⟩ d

/-- I2C_READ: the read is issued, and the target holds I2C_SCL low until its data returns; `bad` tells that it meets an uncorrectable
error. -/
def i2cRead (addr : Nat) (bad : Bool) (d : Dev) : Dev :=
  if !d.tclkRuns then d
  else
    let d := d.mapReqs (forgetRead .i2c)
    fabPut ⟨.i2c, false, addr, 0, 4, 0, if bad then 2 else 0⟩ { d with host := { d.host with i2cOut := [] } }

/-- I2C_TIMEOUT: the target abandons the transaction and releases the bus (R463). -/
def i2cTimeout (d : Dev) : Dev := (d.inc HOST_I2C_STAT_TIMEOUT_CNT).mapReqs (forgetRead .i2c)

/-! ### Remote access frames (R340) -/

/-- R340: an address that a remote access may not reach. -/
def raClosed (a : Nat) : Bool :=
  let b := a / 0x10000
  b == 8 || b == 0xA || b == 0x11 || b == 0x12 || b == 0x14 || b == 0x15 || (bankOf a == some 9)

/-- RA_REQ on a target: it performs the access as fabric master 7, or denies it. `ct` names a crew transaction, 0 for none. -/
def raRequest (h : Hdr) (addr data : Nat) (write : Bool) (ct : Nat) (d : Dev) : Dev :=
  onFrame h d fun d =>
    if d.isLead then d
    else
      let f := crewFresh 4 h.seq d
      if !f.1 then f.2
      else
        let d := keelWork 3 350 f.2
        let held := match d.crew.cc with
          | some x => decide (ct = x.serial + 4096 * x.gen) && x.ctx.isSome
          | none => false
        let a := addr - addr % 4
        if raClosed a ∨ (ct ≠ 0 ∧ !held) then raRespond (h.seq % 65536) 3 0 d
        else fabPut ⟨.crew, write, a, data % 2 ^ 32, 4, raTag h.seq (ct != 0), 0⟩ d

/-- RA_RESP on the lead. -/
def raResponse (h : Hdr) (result data : Nat) (d : Dev) : Dev :=
  onFrame h d fun d =>
    match d.crew.ra with
    | none => genDiscard d
    | some op =>
      if op.seq ≠ h.seq % 4096 ∨ op.gen ≠ h.seq / 4096 % 16 ∨ !op.waitFor.contains (h.src % 1024) then genDiscard d
      else
        let rest := op.waitFor.erase (h.src % 1024)
        let den := op.denied || result == 3
        let d := if result = 1 ∧ !d.on CREW_RA_CTRL_WRITE ∧ !d.on CREW_RA_DEST_BCAST then d.update CREW_RA_DATA_DATA data else d
        if rest.isEmpty then raDone (if den then 3 else 1) d
        else { d with crew := { d.crew with ra := some { op with denied := den, waitFor := rest } } }

/-- RA_TIMEOUT: 64 strokes have passed without every answer. -/
def raTimeout (d : Dev) : Dev := if d.crew.ra.isSome then raDone 2 d else d

/-- R340: a catch counts the strokes of a remote access. -/
def raCatch (d : Dev) : Dev :=
  match d.crew.ra with
  | none => d
  | some op => if 64 ≤ op.since + 1 then raTimeout d else { d with crew := { d.crew with ra := some { op with since := op.since + 1 } } }

end Sys2Proof.Machine
end

