-- ==== Sys2Proof/Machine/Catch.lean ====
section
/-!
DEFINITION. Sys2Proof/Machine/Catch.lean: the catch (R20–R31, R291): what is due at it, the order in which changes apply, period
and mode changes (R28, R29, R497–R502), time steps (R30, R62, R63), the hooks of every unit, the finish window (R25) and the MOORED
tick (R74).
-/
namespace Sys2Proof.Machine

/-! ### The finish window (R24, R25) -/

/-- Cycle P − 64 of the stroke has come (R25): engines that have not yielded are in overrun. -/
def finishWindow (d : Dev) : Dev :=
  if d.clock.finishDone ∨ d.clock.phase ≠ .run then d
  else forUpTo 8 ceOverrun { d with clock := { d.clock with finishDone := true } }

/-! ### What is due at a catch -/

/-- Device time, as it counts without a step, of the coming catch, or of the coming tick in MOORED and in the wind-down (R20, R74). -/
def Dev.boundary (d : Dev) : Nat :=
  if d.clock.phase = .moored ∨ d.clock.phase = .windDown then nextSecond d.clock.now else d.clock.endAt

/-- Device time of that catch or tick as the time counter shows it there: a step due applies in that cycle (R30). -/
def Dev.catchTime (d : Dev) : Nat :=
  match d.stepDue with
  | some s => ((d.boundary : Int) + s).toNat
  | none => d.boundary

/-- The catch falls on a whole TAI second (R28). -/
def onSecond (t : Nat) : Bool := t % 1000000000 == 0

/-- The number of the stroke that the catch opens, under a period that applies there (R9). -/
def Dev.catchStroke (d : Dev) : Nat :=
  let t := d.catchTime
  t / (if onSecond t then d.clock.nextPeriod.getD d.period else d.period)

/-- The contexts that apply at the catch that ends the stroke. -/
def Dev.dueCtxs (d : Dev) : List Nat := if d.on SYS_RST_STATUS_WARM_BUSY then [] else d.ctxsDue d.catchTime d.catchStroke

/-- Orders 3 and 4 of R291: writes with no context open, and the closed stages of each engine; an overflowed stage is discarded. -/
def Dev.dueUnbound (d : Dev) : List Staged := d.txn.unbound.filter fun w => !w.late
def Dev.dueStage (d : Dev) (n : Nat) : List Staged :=
  ((d.ceAt n).closed.filter fun c => !c.late && !c.ovf).flatMap fun c => c.writes

/-- Every write due at this catch, in the order of R291. -/
def Dev.dueWrites (d : Dev) : List Staged :=
  if d.on SYS_RST_STATUS_WARM_BUSY then []
  else (d.dueCtxs.flatMap fun c => (d.ctxAt c).writes) ++ d.dueUnbound ++ (List.range 8).flatMap d.dueStage

/-- A write changes bits of the field. -/
def Staged.touches (w : Staged) (f : Field) : Bool := w.addr == f.addr && bits w.mask f.lo f.w != 0

/-- The value at which the writes of a catch leave a field. -/
def leftAt (f : Field) (ws : List Staged) (v : Nat) : Nat :=
  ws.foldl (fun v w => if w.touches f then f.merge v w.data w.mask else v) v

/-- A write of the catch touches the field. -/
def touched (ws : List Staged) (f : Field) : Bool := ws.any fun w => w.touches f

/-! ### Step 1: application -/

/-- The same writes without ACTIVE_SEL, whose value the catch has dealt with before (R305). -/
def dropSel (ws : List Staged) : List Staged :=
  ws.map fun w => if w.addr = RIG_CTRL_ACTIVE_SEL.addr then
    { w with mask := w.mask - (w.mask &&& (2 ^ RIG_CTRL_ACTIVE_SEL.lo * (2 ^ RIG_CTRL_ACTIVE_SEL.w - 1))) } else w

def applyAll (ws : List Staged) (d : Dev) : Dev := (dropSel ws).foldl (fun d w => applyStaged w d) d

/-- R314: context `c` applies and becomes FREE. -/
def ctxApply (c : Nat) (d : Dev) : Dev := ctxFree c ((applyAll (d.ctxAt c).writes d).cause TXN_IRQ_STAT_APPLIED)

/-- The stages of engine `n` that are due apply; a late one is due at the next catch (R228, R24). -/
def stageApply (n : Nat) (d : Dev) : Dev :=
  let c := d.ceAt n
  if c.closed.isEmpty then d
  else
    let ws := d.dueStage n
    applyAll ws (d.putCe n { c with closed := (c.closed.filter fun x => x.late).map fun x => { x with late := false } })

/-- R291: the order of a catch: a rig swap, the contexts `ctxs`, unbound writes, engine stages. `sel`: the value at which its changes
leave ACTIVE_SEL. A catch during a warm reset has nothing to apply (R523). -/
def applyDue (ctxs : List Nat) (sel : Nat) (d : Dev) : Dev :=
  if d.on SYS_RST_STATUS_WARM_BUSY then d
  else
    let d := rigSelect sel d
    let d := d.set RIG_CTRL_ACTIVE_SEL (d.activeSlot.getD sel)
    let d := forUpTo 8 ctxAge (ctxs.foldl (fun d c => ctxApply c d) d)
    let un := d.dueUnbound
    let d := { d with txn := { d.txn with unbound := (d.txn.unbound.filter fun w => w.late).map fun w => { w with late := false } } }
    forUpTo 8 stageApply (applyAll un d)

/-- A commit of the catch writes the field: one of the writes `ws`, or a rig swap, which gives every RW/T field of the blocks that an image
governs a value (R306). -/
def committed (ws : List Staged) (swap : Bool) (f : Field) : Bool := touched ws f || (swap && rigBlocks.contains (f.addr / 0x10000))

/-- R49: a committed SRC that names another oscillator starts Keel's service, however it came to be; R50: clearing the carrier's ENABLE
counts as its fault; an oscillator that is enabled again returns 60 s later. `first`: at the first catch the SRC of the image applies. -/
def carrierCommit (ws : List Staged) (swap first : Bool) (b d : Dev) : Dev :=
  let c := d.get TB_STATUS_CARRIER
  let src := d.get TB_DCO_CFG_SRC
  let d := if (touched ws TB_DCO_CFG_SRC || (swap && src != b.get TB_DCO_CFG_SRC) || first) && src != c then carrierRequest src d else d
  forUpTo 4 (fun n d =>
    let o := d.oscAt n
    if b.on (TB_OSC_CFG_ENABLE n) && !d.on (TB_OSC_CFG_ENABLE n) && c == n then
      d.putOsc n { o with inEnsemble := false, clearSince := none }
    else if d.on (TB_OSC_CFG_ENABLE n) && !b.on (TB_OSC_CFG_ENABLE n) && !o.inEnsemble && o.clearSince.isNone then
      d.putOsc n { o with clearSince := some d.clock.now }
    else d) d

/-! ### Hardware updates of RW/T fields (R23) -/

/-- A hardware update of the fields `fs` at a catch whose commits are `com`: a field that a commit has written keeps the committed
value, and the loss is counted. -/
def hwUpdate (com : Field → Bool) (fs : List Field) (upd : Dev → Dev) (d : Dev) : Dev :=
  fs.foldl (fun e f => if com f then (e.set f (d.get f)).inc TB_COUNTS_COMMIT_LOSS else e) (upd d)

/-- A leap second is due at device time `t` (R72). -/
def Dev.leapDue (d : Dev) (t : Nat) : Bool :=
  d.on TB_LEAP_CFG_PENDING && decide ((d.get TB_LEAP_TAI_LO_SEC_LO + 2 ^ 32 * d.get TB_LEAP_TAI_HI_SEC_HI) * 1000000000 ≤ t)

/-- R72 at a catch: a leap that was pending meets the commits under R23; one whose second is past when PENDING takes effect applies
at once. `b`: the device before step 1. -/
def leapCatch (com : Field → Bool) (b d : Dev) : Dev :=
  if b.leapDue d.clock.now then
    let off := (leapSecond { b with clock := d.clock }).get TB_UTC_OFFSET_OFFSET_S
    hwUpdate com [TB_UTC_OFFSET_OFFSET_S, TB_LEAP_CFG_PENDING]
      (fun d => (d.set TB_UTC_OFFSET_OFFSET_S off).set TB_LEAP_CFG_PENDING 0) d
  else if d.leapDue d.clock.now then hwUpdate com [TB_UTC_OFFSET_OFFSET_S] leapSecond d
  else d

/-- R363: the UTC fields that Keel writes from a parent's Announce. -/
def utcCatch (com : Field → Bool) (n : Nat) (d : Dev) : Dev :=
  match (d.ethAt n).utc with
  | none => d
  | some a =>
    hwUpdate com (TB_UTC_OFFSET_OFFSET_S :: if a.leap61 ∨ a.leap59 then
      [TB_LEAP_CFG_PENDING, TB_LEAP_CFG_DIR, TB_LEAP_TAI_LO_SEC_LO, TB_LEAP_TAI_HI_SEC_HI] else []) (utcUpdate n) d

/-- R510, R500: the thermal write of TARGET meets the commits of its catch. -/
def stepDownCatch (com : Field → Bool) (d : Dev) : Dev :=
  match d.pwr.stepDown with
  | none => d
  | some true => { d with pwr := { d.pwr with stepDown := some false } }
  | some false =>
    let d := { d with pwr := { d.pwr with stepDown := none } }
    if com PWR_MODE_TARGET then d.inc PWR_COUNTS_COMMIT_LOSS else d.set PWR_MODE_TARGET 2

/-! ### Time steps (R30, R62, R63) -/

/-- Instants that count elapsed TCLK keep their distance from the present when device time steps. -/
def shiftNat (s : Int) (t : Nat) : Nat := ((t : Int) + s).toNat

def ceShift (s : Int) (n : Nat) (d : Dev) : Dev :=
  let c := d.ceAt n
  if c = {} then d else
  d.putCe n { c with
    issueAt := shiftNat s c.issueAt
    lands := c.lands.map fun l => { l with at_ := shiftNat s l.at_ }
    wheel := c.wheel.map fun w => { w with at_ := shiftNat s w.at_, reachAt := shiftNat s w.reachAt, doneAt := shiftNat s w.doneAt }
    wheelAt := c.wheelAt.map (shiftNat s)
    tim := c.tim.map fun o => { o with insAt := shiftNat s o.insAt, postAt := shiftNat s o.postAt }
    closed := c.closed.map fun k => { k with at_ := shiftNat s k.at_ }
    pendAt := c.pendAt.map (shiftNat s)
    wakeFrom := c.wakeFrom.map (shiftNat s)
    sigSet := c.sigSet.map fun e => (shiftNat s e.1, e.2) }

/-- What counts elapsed TCLK in the units keeps its distance from the present; marks of the last TCLK are dropped. -/
def unitsShift (s : Int) (d : Dev) : Dev :=
  let f := shiftNat s
  let u : Int := s * 65536
  let d := d.trk.foldl (fun d (e : Nat × Trk) => d.putTrk e.1 { e.2 with
    qualEnd := e.2.qualEnd.map f, holdEnd := e.2.holdEnd.map f, trigLine := f e.2.trigLine }) d
  let d := d.cnt.foldl (fun d (e : Nat × Cnt) => d.putCnt e.1 { e.2 with
    qualEnd := e.2.qualEnd.map f, edgeAt := 0, idxAt := 0, lastEdge := e.2.lastEdge.map (· + u) }) d
  let d := d.gate.foldl (fun d (e : Nat × Gate) => d.putGate e.1 { e.2 with reqAt := f e.2.reqAt, askAt := 0 }) d
  let d := d.syn.foldl (fun d (e : Nat × Syn) => d.putSyn e.1 { e.2 with
    since := f e.2.since, roundAt := e.2.roundAt.map f, nextRound := e.2.nextRound.map f,
    guardEnd := f e.2.guardEnd, sliceEnd := f e.2.sliceEnd }) d
  let d := d.eth.foldl (fun d (e : Nat × Eth) => d.putEth e.1 { e.2 with
    heardAt := f e.2.heardAt, annAt := e.2.annAt.map fun x => (x.1, f x.2), esmcFrom := f e.2.esmcFrom
    tokenAt := f e.2.tokenAt, distrust := e.2.distrust.map fun x => (x.1, f x.2) }) d
  let d := d.dma.foldl (fun d (e : Nat × Dma) => d.putDma e.1 { e.2 with reqAt := f e.2.reqAt }) d
  let d := d.pe.foldl (fun d (e : Nat × Pe) => d.putPe e.1 { e.2 with collAt := 0, triedAt := 0 }) d
  let d := d.peBall.foldl (fun d (e : Nat × PeBall) => { d with peBall := awrite {} e.1 (ballShift s e.2) d.peBall }) d
  d.ch.foldl (fun d (e : Nat × Chan) => d.putCh e.1 { e.2 with
    kaFrom := f e.2.kaFrom, fired := 0, outs := e.2.outs.map fun o => { o with at_ := f o.at_, placed := o.placed + u }, drvAt := e.2.drvAt + u }) d

def timersShift (s : Int) (d : Dev) : Dev :=
  let f := shiftNat s
  let d := unitsShift s d
  let d := (List.range 4).foldl (fun d n => d.putOsc n { d.oscAt n with clearSince := (d.oscAt n).clearSince.map f }) d
  let d := (List.range 4).foldl (fun d k => d.putCport k { d.cport k with keyAt := f (d.cport k).keyAt, upAt := f (d.cport k).upAt }) d
  let shiftReq (r : FabReq) : FabReq := { r with stamp := f r.stamp % 65536, at_ := f r.at_ }
  let keelReq (r : KeelReq) : KeelReq := { r with at_ := f r.at_ }
  { d with
    tb := { d.tb with
      lockFrom := d.tb.lockFrom.map f, holdFrom := d.tb.holdFrom.map f, internalAt := f d.tb.internalAt
      upd := d.tb.upd.map fun u => { u with at_ := f u.at_ } }
    crew := { d.crew with rollReq := d.crew.rollReq.map f, qualEnd := d.crew.qualEnd.map f, holdEnd := d.crew.holdEnd.map f, quarTimes := d.crew.quarTimes.map f }
    irq := { d.irq with
      chg := d.irq.chg.map fun c => { c with at_ := f c.at_ }
      rings := d.irq.rings.map fun r => { r with at_ := f r.at_ }
      msi := d.irq.msi.map fun m => (f m.1, m.2) }
    fab := { reqs := d.fab.reqs.map shiftReq, wait := d.fab.wait.map shiftReq, freeAt := f d.fab.freeAt }
    memc := { d.memc with useAt := f d.memc.useAt, scrubAt := f d.memc.scrubAt, dram := d.memc.dram.map fun r => { r with at_ := f r.at_ } }
    mon := { d.mon with
      held := d.mon.held.map fun h => { h with at_ := f h.at_ }
      conv := d.mon.conv.map fun c => { c with start := f c.start } }
    bist := { d.bist with nextPass := f d.bist.nextPass }
    keel := { d.keel with
      cur := d.keel.cur.map keelReq, frames := d.keel.frames.map keelReq, queue := d.keel.queue.map keelReq, wordEnd := f d.keel.wordEnd }
    txn := { d.txn with orderAt := 0 }
    pwr := { d.pwr with perstAt := d.pwr.perstAt.map f, gtio1At := d.pwr.gtio1At.map f }
    gflagBy := [] }

/-- The step that applies: a time set discards the filter's step, which named an offset of the time that it replaces; under the filter's
step a time set still in service keeps its elapsed TCLK (R64; log entry 100). -/
def stepTaken (s : Int) (d : Dev) : Dev :=
  if d.tb.tset.isSome && d.tb.tsetDone then { d with tb := { d.tb with step := none, tset := none, tsetDone := false } }
  else { d with tb := { d.tb with step := none, tset := d.tb.tset.map fun x => (x.1, shiftNat s x.2) } }

/-- R62, R63, R288, R581: device time steps from `old` to `new` in a catch cycle. Of several events that a step drops, COX.LAST_DROP
names the last one of the highest channel: DESIGN CHOICE, log entry 96. -/
def timeStep (old new : Nat) (d : Dev) : Dev :=
  let s : Int := (new : Int) - (old : Int)
  let d := forUpTo 8 (fun n d => trkShift n s d) d
  let d := forUpTo 32 (fun n d => peShift n s d) (forUpTo 8 (ceShift s) (timersShift s d))
  let d := if old < new then forUpTo 256 (fun n d => stepDrop n old new (trainSkip n old new d)) d else d
  stepTaken s ((d.inc TB_COUNTS_STEP_COUNT).cause TB_STATUS_STEPPED)

/-! ### Period and mode (R28, R29, R497–R502) -/

/-- R28, R29: committed periods wait; one equal to the period in effect ends the wait. `p`: the period in effect. -/
def periodCommit (ws : List Staged) (p : Nat) (d : Dev) : Dev :=
  if touched ws SYS_STROKE_CFG_PERIOD_NS then
    let v := d.get SYS_STROKE_CFG_PERIOD_NS
    let d := d.set SYS_STROKE_CFG_PERIOD_NS p
    { d with clock := { d.clock with nextPeriod := if v = p then none else some v } }
  else d

/-- Show whether a period or a mode waits (R28, R497). -/
def waitShow (d : Dev) : Dev :=
  let waits := d.clock.nextPeriod.isSome || d.clock.modeWait
  let p := d.clock.nextPeriod.getD d.period
  let d := (d.setB SYS_STROKE_CFG_PENDING waits).setB PWR_MODE_PENDING d.clock.modeWait
  d.set SYS_STROKE_NEXT_PERIOD_NS (if d.clock.modeWait then clampPeriod (d.get PWR_MODE_TARGET) p else p)

/-- The period in force takes a new value. -/
def setPeriod (p : Nat) (d : Dev) : Dev :=
  { d.set SYS_STROKE_CFG_PERIOD_NS p with clock := { d.clock with nextPeriod := none } }

/-- The mode in effect becomes `m` (R497). A full self-test run that it ends leaves the image to be reapplied (R539). -/
def setMode (m : Nat) (d : Dev) : Dev :=
  let d := ((d.set PWR_MODE_TARGET m).set PWR_MODE_CUR m).cause PWR_IRQ_STAT_MODE
  let d := if m = 5 then
      (let d := forUpTo 8 gateForceClose d
       if d.lc = 2 then d.set TRUST_STATUS_BH_PERMIT 0 else d)
    else d
  if d.bist.full then
    { d with bist := { d.bist with full := false, reapply := true }, rig := { d.rig with blocked := 2 ^ 40 - 1 } }
  else d

/-- The mode catch (R499, R502, R510): the change to `m` applies or is refused. `wake`: a wake request is present in this cycle. -/
def modeCatch (m : Nat) (trip wake : Bool) (d : Dev) : Dev :=
  let d := { d with clock := { d.clock with modeWait := false } }
  if !d.modePermitted m trip ∨ (m = 0 ∧ d.mooredCarrier.isNone) then modeDeny d
  else if m = 0 then
    if wake ∧ !trip then wakeWon d else setMode 0 (mooredEnter d)
  else setMode m d

/-- What the catch does about the period and the mode. -/
def periodMode (wake : Bool) (d : Dev) : Dev :=
  let p := d.period
  let whole := onSecond d.clock.now
  let trip := d.pwr.trip
  let d := { d with pwr := { d.pwr with trip := false } }
  let m := if trip then 0 else d.get PWR_MODE_TARGET
  let next := clampPeriod m (d.clock.nextPeriod.getD p)
  let d :=
    if m = d.mode then { d with clock := { d.clock with modeWait := false } }
    else if next ≠ p ∧ !whole ∧ !trip then { d with clock := { d.clock with modeWait := true } }
    else
      let d := modeCatch m trip wake d
      if d.mode = m ∧ m ≠ 0 ∧ whole then setPeriod next d else d
  let d := match d.clock.nextPeriod with
    | some q => if whole then setPeriod (clampPeriod d.mode q) d else d
    | none => d
  waitShow d

/-! ### The hooks of a catch -/

/-- What the store lists of the register at `a`: its fields that do not have their reset values. -/
def Dev.listed (d : Dev) (a : Nat) : List (Nat × Nat) := d.regs.filter fun e => Nat.beq (e.1 / 32) a

/-- The register at `a` differs between two states. -/
def differs (b d : Dev) (a : Nat) : Bool := b.listed a != d.listed a

/-- R100: a structural change of tracker `n`. -/
def structChanged (b d : Dev) (n : Nat) : Bool :=
  [TRK_CFG_WHEEL n, TRK_CFG_EDGE n, TRK_CFG_T0_ID n, TRK_CFG_TEETH n, TRK_REV_LEN_REV_LEN n, TRK_ALIGN_ALIGN_NS n].any
    (fun f => b.get f != d.get f) ||
  decide ((b.trkAt n).table ≠ (d.trkAt n).table) &&
    decide (((b.realTeeth n).map fun k => (k, b.toothPos n k)) ≠ (d.realTeeth n).map fun k => (k, d.toothPos n k))

/-- The list's governing registers have changed (R144). -/
def listChanged (b d : Dev) (k : Nat) : Bool :=
  [COX_LIST_CFG_TRK k, COX_LIST_REVS_REVS k, COX_LIST_REV_OFS_OFS k, COX_LIST_ENT_BASE_BASE k,
   if (b.listAt k).selAct = 0 then COX_LIST_IDX_BASE_A_BASE k else COX_LIST_IDX_BASE_B_BASE k].any fun f => b.get f != d.get f

/-- What a catch tells the units: the device before step 1, the mode before it, the writes it applied, whether it swapped the
rig image, stepped the time or changed the period, whether it is the first catch after a boot (`first` = 1) or a wake (2), and the
device in the cycle before it. -/
structure CatchInfo where
  before : Dev
  mode : Nat
  writes : List Staged
  swap : Bool
  stepped : Bool
  period : Bool
  first : Nat
  last : Dev

/-- A commit of the catch writes the field. -/
def CatchInfo.com (i : CatchInfo) (f : Field) : Bool := committed i.writes i.swap f

/-- ENABLE, field `f` of unit `n`, before the catch. At the first catch the ENABLE that the image has set takes effect, but for
TRK[0], which runs on through MOORED (R102). -/
def CatchInfo.enBefore (i : CatchInfo) (f : Field) (trk0 : Bool) : Bool :=
  i.before.on f && (i.first == 0 || (trk0 && i.first == 2))

def CatchInfo.modeChg (i : CatchInfo) (d : Dev) : Bool := i.mode != d.mode

/-- The device time of the catch that opened the stroke before. -/
def CatchInfo.prevAt (i : CatchInfo) : Nat := i.before.clock.openAt

def synHook (i : CatchInfo) (n : Nat) (d : Dev) : Dev :=
  let chg (f : Field) : Bool := i.before.get f != d.get f
  let freq := chg (SYN_CFG_N n) || chg (SYN_FRAC_NUM_NUM n) || chg (SYN_FRAC_DEN_DEN n) || chg (SYN_ODIV_ODIV n)
  let d := if freq then odivCheck n d else d
  synCatch n freq (i.stepped || chg (SYN_PHASE_PS_PHASE n) || chg (SYN_ALIGN_PERIOD_S n) || chg (SYN_ALIGN_ALIGN_EN n)) d

def chHook (i : CatchInfo) (n : Nat) (d : Dev) : Dev :=
  let cap := differs i.before d (CH_CAP_CFG_MEAS n).addr
  let cfg := differs i.before d (CH_CFG_IDLE n).addr
  let open_ (d : Dev) : Bool := d.on (CH_CAP_CFG_ALWAYS n) && d.get (CH_CAP_CFG_MEAS n) != 0
  let d := chCatch n i.mode (cfg || cap) cap (open_ d && !open_ i.before) i.swap (bit d.rig.cut n) (i.last.on (CH_STATUS_LEVEL n)) d
  if chPresent d.mode n then starveCatch n d else d

/-- R208, R209, R225: engine `n` stops, starts or is released. -/
def ceHook (n : Nat) (d : Dev) : Dev :=
  let run := d.get (CE_STATUS_RUN n)
  if !cePresent d.mode n then (if run = 6 then d else ceHalt n 6 d)
  else
    let d := if run = 6 then d.set (CE_STATUS_RUN n) 0
      else if run ≠ 0 ∧ !d.on (CE_CTRL_ENABLE n) then ceHalt n 0 d else d
    if d.ceCanStart n then ceBegin n (d.ceSelectors n) d else ceRelease n d

def peHook (i : CatchInfo) (n : Nat) (d : Dev) : Dev :=
  let b := i.before
  let en := PE_CTRL_ENABLE n
  let cfg := [PE_CFG_START_PC n, PE_CLKDIV_DIV n, PE_PINS_IN_BASE n, PE_PINS2_SIDE_BASE n, PE_SHIFTCTL_RX_LSB n].any fun f => differs b d f.addr
  let free := !d.on SYS_RST_STATUS_WARM_BUSY
  peCatch n (free && d.on en && (i.com en || !i.enBefore en false)) cfg (b.get (PE_CFG_QMODE n) != d.get (PE_CFG_QMODE n))
    (free && i.modeChg d) (free && d.rig.copied.contains (8 + n)) d

def ethHook (i : CatchInfo) (n : Nat) (d : Dev) : Dev :=
  let chg (f : Field) : Bool := i.before.get f != d.get f
  ethCatch n i.prevAt (chg (ETH_CFG_PCS n) || chg (ETH_CFG_FEC n)) (i.com (ETH_TS_TX_PS_CORR n))
    (i.com (ETH_TS_RX_PS_CORR n)) (utcCatch i.com n d)

/-- R396: a changed SENSE. -/
def irqHook (i : CatchInfo) (d : Dev) : Dev :=
  if i.swap ∨ i.writes.any (fun w => w.addr / 0x10000 == 0xB) then
    forUpTo 1023 (fun n d => if i.before.get (IRQ_SRC_CFG_SENSE n) = d.get (IRQ_SRC_CFG_SENSE n) then d else senseChange n d) d
  else d

/-- The timebase at a catch, or at a MOORED tick: comparisons, oscillators and carrier, the last update's state, FFO and offset (R48–R53,
R65). -/
def tbHook (d : Dev) : Dev := holdTimeUpdate (ffoApply (tbStateApply (carrierApply (carrierFailover (foldPhases d)))))

/-- R53, R58: what Keel is asked for at a catch: the filter update, when an update instant has come since the catch at `prev` or the first
catch comes after a boot (R521), and the models' save every 10 s. -/
def tbAsk (prev : Nat) (first : Bool) (d : Dev) : Dev :=
  if d.on SYS_RST_STATUS_WARM_BUSY then d
  else
    let d := if d.updateDue prev ∨ first then filterAsk d else d
    if d.clock.now / 10000000000 ≠ prev / 10000000000 then modelAsk d else d

/-- Every unit at a catch, after the changes of step 1. -/
def hooks (i : CatchInfo) (d : Dev) : Dev :=
  let d := tbHook (carrierCommit i.writes i.swap (i.first == 1) i.before d)
  let d := tbAsk i.prevAt (i.first == 1) d
  let d := forUpTo 8 (fun n d =>
    let d := if structChanged i.before d n then d.putTrk n { d.trkAt n with structChg := true } else d
    if d.mode = 0 ∧ n ≠ 0 then d else trkCatch n (i.enBefore (TRK_CTRL_ENABLE n) (n == 0)) d) d
  let d := freqAssist d
  let d := forUpTo 32 (fun n d => cntCatch n (i.enBefore (CNT_CTRL_ENABLE n) false) (i.stepped || i.period) d) d
  let d := forUpTo 4 (synHook i) d
  let d := forUpTo 8 gateHostReq d
  let d := forUpTo 256 (chHook i) d
  let d := if i.swap ∨ i.modeChg d ∨ i.writes.any (fun w => w.addr / 0x10000 == 0x10) then tdcShow d else d
  let d := coxCatch ((List.range 8).foldl (fun v k => v + b2n (listChanged i.before d k) * 2 ^ k) 0) d
  let d := forUpTo 4 (ethHook i) { d with ethSent := [] }
  let d := raCatch (crewCatch d)
  irqHook i (bistCatch d)

/-- R580: the governed fields of what the catch has changed are clamped, by the values that the whole catch leaves; SRC is clamped when it
is written itself. -/
def clampCatch (ws : List Staged) (swap : Bool) (d : Dev) : Dev :=
  if swap then clampImage d
  else
    let d := reclampAfter (ws.map fun w => w.addr) d
    let d := if touched ws TB_DCO_CFG_SRC then d.reclamp TB_DCO_CFG_SRC else d
    let chs := ((ws.filter fun w => w.addr / 0x10000 == 0x10).map fun w => (w.addr - 0x100000) / 0x100).eraseDups
    chs.foldl (fun d n => d.reclampTrain n) d

/-- R31, R504, R518: the first catch after a boot or a wake. -/
def firstCatch (d : Dev) : Dev :=
  if d.clock.phase ≠ .waitFirst then d
  else
    let d := { d with clock := { d.clock with phase := .run } }
    let d := if d.get SYS_BOOT_STATUS_STAGE = 0 then d
      else (d.setSat SYS_BOOT_TIME_MS (d.clock.endAt / 1000000)).set SYS_BOOT_STATUS_STAGE 0
    if d.mode = 0 then
      let m := d.get PWR_MOOR_CFG_WAKE_MODE
      ((d.set PWR_MODE_TARGET m).set PWR_MODE_CUR m).set SYS_STROKE_CFG_PERIOD_NS (clampPeriod m d.period)
    else d

/-! ### The catch -/

/-- The stroke that opens at device time `t`: its number (R9) and its end; a step opens a stepping stroke (R30). -/
def strokeAt (t : Nat) (stepped : Bool) (d : Dev) : Dev :=
  { d with clock := { d.clock with
    openAt := t, strokeNo := t / d.period, endAt := if stepped then stepEnd d.period t else t + d.period } }

/-- R202, R203, R22, step 4: the channel events of the catch fire, and then the gates that are PENDING are judged. -/
def catchEvents (t : Nat) (d : Dev) : Dev := forUpTo 8 gatePending (runTo (t + 1) d)

/-- The catch: the stroke ends and the next one opens, with everything that R22 and R291 order. -/
def strokeCatch (d : Dev) : Dev :=
  if d.clock.phase ≠ .run ∧ d.clock.phase ≠ .waitFirst then d
  else
    let last := d
    let old := d.clock.endAt
    let new := d.catchTime
    let stepped := d.stepDue.isSome
    let ctxs := d.dueCtxs
    let ws := d.dueWrites
    let sel := leftAt RIG_CTRL_ACTIVE_SEL ws (d.get RIG_CTRL_ACTIVE_SEL)
    let first := if d.clock.phase = .waitFirst then (if d.mode = 0 then 2 else 1) else 0
    let mode := if first = 0 then d.mode else 0
    let prevAt := d.clock.openAt
    let d := strokeAt new stepped (firstCatch d)
    let d := { d with clock := { d.clock with now := new, finishDone := false, stepping := stepped } }
    let wake := d.wakeNow.isSome
    let d := if stepped then timeStep old new d else d
    let b := d
    let p := d.period
    let d := applyDue ctxs sel (crewStep1 (lcCatch d))
    let swap := b.activeSlot != d.activeSlot
    let d := clampCatch ws swap (ccEnd new (rollEnd d))
    let d := if onSecond new then keelSecond d else d
    let com := committed ws swap
    let d := strokeAt new stepped (periodMode wake (stepDownCatch com (periodCommit ws p d)))
    let i : CatchInfo :=
      ⟨{ b with clock := { b.clock with openAt := prevAt } }, mode, ws, swap, stepped, decide (p ≠ d.period), first, last⟩
    let d := catchEvents new (hooks i (leapCatch com b d))
    let d := forUpTo 32 (peHook i) (forUpTo 8 ceHook d)
    strokeAt new stepped { d with rig := { d.rig with copied := [] } }

/-- R73, R74: a whole TAI second of the VDD_AON counter takes the place of the catch for the timebase and TRK[0]. The filter updates once
in it; the sources whose causes it sets become pending in it. -/
def mooredTick (d : Dev) : Dev :=
  if d.clock.phase ≠ .moored ∧ d.clock.phase ≠ .windDown then d
  else
    let old := d.boundary
    let new := d.catchTime
    let stepped := d.stepDue.isSome
    let d := { d with clock := { d.clock with now := new } }
    let d := if stepped then timeStep old new d else d
    let d := tbHook (leapCatch (fun _ => false) d d)
    let d := filterUpdate { d with tb := { d.tb with upd := some d.filterIn } }
    let d := freqAssist (trkCatch 0 (d.on (TRK_CTRL_ENABLE 0)) d)
    let d := adcPump { d with mon := { d.mon with moored := [0, 1] } }
    let d := wakeNote (irqDeliver (new + 4) (irqSense d))
    { d with clock := { d.clock with now := new } }

end Sys2Proof.Machine
end

