-- ==== Sys2Proof/Machine/Tick.lean ====
section
/-!
DEFINITION. Sys2Proof/Machine/Tick.lean: one TCLK: how it opens (the catch, the finish window, a MOORED tick), what the units do in it, and
how it closes; and the passage of time to an instant. The commands of a TCLK come between its opening and its close (log entry 1).
-/
namespace Sys2Proof.Machine

/-! ### What time alone brings about -/

/-- An instant that has come. -/
def Dev.due (d : Dev) (o : Option Nat) : Bool := match o with | some t => decide (t ≤ d.clock.now) | none => false

/-- Timers and windows of tracker `n` that have run out: a closed window, QUAL_REMAIN, the hold timer, converted triggers. -/
def trkOverdue (n : Nat) (d : Dev) : Dev :=
  if d.mode = 0 ∧ n ≠ 0 then d
  else
    let d := windowTick n d
    let d := if d.due (d.trkAt n).qualEnd then qualExpire n d else d
    let d := if d.due (d.trkAt n).holdEnd then holdExpire n d else d
    (d.trkAt n).trigAt.foldl (fun d (e : Nat × Nat) => if e.2 ≤ d.clock.now then phaseTrigger n e.1 d else d) d

/-- A guard period whose time has come, the slices run in it, the next round, and a round overdue. -/
def synOverdue (n : Nat) (d : Dev) : Dev :=
  let d := if d.due (d.synAt n).guardAt.head? then guardPeriod n d else d
  let d := synSlices n d
  let d := if d.due (d.synAt n).nextRound then calRound n d else d
  if d.due (d.calLimit n) then calOverdue n d else d

/-- R167: when the pending measurement of channel `n` is discarded. -/
def Dev.measEnd (d : Dev) (n : Nat) : Option Nat :=
  match (d.chAt n).pend, (d.chAt n).prevEdge with
  | some p, _ => some (dueOf (p.stamp + measLimit))
  | none, some p => some (dueOf (p + measLimit))
  | none, none => none

/-- What channel `n`'s capture unit has still to do at the end of a TCLK. -/
def chOverdue (n : Nat) (d : Dev) : Dev :=
  let d := capSettle n d
  if d.due (d.measEnd n) then measTimeout n d else d

/-- Receipt timeouts of Ethernet port `n`. -/
def ethOverdue (n : Nat) (d : Dev) : Dev :=
  let d := if d.due (d.annLimit n) then announceTimeout n d else d
  if d.due (d.esmcLimit n) then esmcTimeout n d else d

/-- What has come about by device time without a command: none of it needs a value from outside. -/
def overdue (d : Dev) : Dev :=
  let d := forUpTo 4 ethOverdue (forUpTo 4 synOverdue (forUpTo 8 trkOverdue d))
  d.ch.foldl (fun d e => chOverdue e.1 d) d

/-! ### The units in a TCLK -/

/-- The DMA engine grants its next burst when none is in flight (R416); the TCLK's events are counted (R421). -/
def dmaTick (d : Dev) : Dev := if d.get DMA_ACTIVE_ACTIVE = 0 ∨ !d.hostsRun then d else eventsLost (burst d)

/-- The units in a TCLK of strokes: insertions, the Cox's first (R155), the pin engines, a read on a fabric port, the wheel, a write on a
fabric port (R45), the control engines, Keel, the DMA engine, index events, the converter, ECC write-backs and the scrubber, and what is
overdue. -/
def strokeUnits (d : Dev) : Dev :=
  let d := forUpTo 32 peTick (forUpTo 8 timInserts (coxTurn d))
  let d := fabTurn true (wheelTicks (fabTurn false d))
  let d := forUpTo 32 cntIdxTick (dmaTick (keelTick (forUpTo 8 ceTick d)))
  overdue (scrubTick (eccTick (sdTick (adcPump d))))

/-- The units in a TCLK: in MOORED TRK[0] alone (R102); in the wind-down also wheel accesses that are under way (R209). -/
def unitsTick (d : Dev) : Dev :=
  match d.clock.phase with
  | .held => d
  | .moored => trkOverdue 0 d
  | .windDown => trkOverdue 0 (wheelTicks d)
  | .waitFirst | .run => strokeUnits d

/-! ### The consequences of a command in its own TCLK -/

/-- R494: under TRUST.CFG.DB_EN every cause of the trust core that has been set rings its doorbell with its bit index. -/
def trustBell (d : Dev) : Dev :=
  let new := d.regWord TRUST_IRQ_STAT_CMD_DONE.addr
  let old := d.irq.bell
  if old = new then d
  else
    let d := { d with irq := { d.irq with bell := new } }
    if d.on TRUST_CFG_DB_EN then
      forUpTo 6 (fun i d => if bit new i && !bit old i then ring 4 (d.get TRUST_CFG_DB_IDX) i d else d) d
    else d

/-- Interrupt lines are sensed and what is due at this TCLK is delivered; not while no TCLK runs. -/
def irqNow (d : Dev) : Dev :=
  if d.clock.phase = .held ∨ d.clock.phase = .moored then d else irqDeliver d.clock.now (irqSense d)

/-- Candidates, status and messages of the interrupt targets at this TCLK. -/
def irqSettle (d : Dev) : Dev := msixDue d.clock.now (irqAll d)

/-- What follows the gates: DMA requests, self-test conditions, doorbells of the trust core, interrupts and messages. -/
def afterTail (d : Dev) : Dev := irqSettle (irqNow (trustBell (bistCheck (dmaEval d))))

/-- What follows from a command in its own TCLK, `b` being the device before it: GOOD, the gates and TXINH_N, DMA requests, self-test
conditions, doorbells of the trust core, interrupt lines and pending bits that are due, candidates and messages. Nothing changes a
fused value (R468). -/
def aftermath (b d : Dev) : Dev := { afterTail d.settle with fused := b.fused }

/-! ### One TCLK -/

/-- What has been on its way and can be seen from this TCLK on: interrupts, and results in the control engines. -/
def arrivals (d : Dev) : Dev := forUpTo 8 ceLand (if d.clock.phase = .moored then d else irqDeliver d.clock.now d)

/-- A new TCLK: sources that became pending in the one before are candidates from it on (R398). -/
def freshCycle (d : Dev) : Dev := if d.cyc.newPend.isEmpty then { d with cyc := {} } else irqAll { d with cyc := {} }

/-- Device time moves on by one TCLK: the catch when it is due, the finish window (R24), or a MOORED tick; while TCLK is stopped only
the time counter runs (R74). -/
def advance (d : Dev) : Dev :=
  let d := freshCycle d
  match d.clock.phase with
  | .held => d
  | .moored | .windDown => arrivals (if (d.clock.now + 1) % 1000000000 = 0 then mooredTick d else d.to (d.clock.now + 1))
  | .waitFirst | .run =>
    let d := if d.clock.endAt ≤ d.clock.now + 1 then strokeCatch d else d.to (d.clock.now + 1)
    arrivals (if d.clock.endAt = d.clock.now + 64 then finishWindow d else d)

/-- The end of a TCLK: channel events due in it, what the units do in it, and what follows. -/
def close (d : Dev) : Dev :=
  let e := aftermath d (unitsTick (runTo (d.clock.now + 1) d))
  { e with clock := { e.clock with owed := false } }

/-- The TCLK that is open ends. -/
def finish (d : Dev) : Dev := if d.clock.owed then close d else d

/-- The next TCLK opens: it waits for commands before the units act in it. -/
def openNext (d : Dev) : Dev := let d := advance (finish d); { d with clock := { d.clock with owed := true } }

/-- A TCLK without a command: the one that is open ends, and the next one opens. -/
def tick (d : Dev) : Dev := if d.clock.phase = .held then d else openNext d

/-! ### Time to an instant -/

/-- TCLK pass until device time is `t`, at most `fuel`. -/
def passFor (t : Nat) : Nat → Dev → Dev
  | 0, d => d
  | fuel + 1, d => if t ≤ d.clock.now ∨ d.clock.phase = .held then d else passFor t fuel (openNext d)

/-- Device time comes to `t`, TCLK by TCLK, and the last one is open; a step may set time back on the way, so there are many more TCLK than
`t` lies ahead. -/
def passTo (t : Nat) (d : Dev) : Dev := passFor t (t + 2 ^ 80) d

/-- The last TCLK of the stroke, or of the second in MOORED and in the wind-down, ends. -/
def toCatch (d : Dev) : Dev := finish (passTo (d.boundary - 1) d)

/-- CATCH: the stroke ends, and the TCLK of the catch is open. -/
def nextCatch (d : Dev) : Dev := if d.tclkRuns then openNext (toCatch d) else d

/-- A command that names an event of the catch that ends the stroke: that catch, when the event is due at it. -/
def atCatch (due : Dev → Bool) (d : Dev) : Dev := let b := toCatch d; if due b then openNext b else d

/-- The same, when the catch shows that the event takes place at it: `seen` compares the device before and after. -/
def catchIf (seen : Dev → Dev → Bool) (d : Dev) : Dev :=
  let b := toCatch d
  let e := openNext b
  if seen b e then e else d

/-- An event whose instant the state fixes: time comes to it, and it takes place if it is then still due. -/
def onInstant (inst : Dev → Option Nat) (f : Dev → Dev) (d : Dev) : Dev :=
  match inst d with
  | none => d
  | some t =>
    let d := passTo t d
    if d.due (inst d) then f d else d

/-- TCLK open until `p` holds of an open one, at most `fuel`: then `some`. -/
def passUntil (p : Dev → Bool) : Nat → Dev → Option Dev
  | 0, d => if p d then some d else none
  | fuel + 1, d => if p d then some d else passUntil p fuel (openNext d)

end Sys2Proof.Machine
end

