-- ==== Sys2Proof/Machine/Run.lean ====
section
/-!
DEFINITION. Sys2Proof/Machine/Run.lean: how a command acts on the device: its effect and what follows in the same TCLK, the conditions
under which buses, Keel and the units take commands, and the instants of events that the state fixes. A command that names an event
whose condition the state does not give leaves the device as it is.
-/
namespace Sys2Proof.Machine

/-! ### The frame of a command -/

/-- A command with the effect `f`: the effect and its consequences in the same TCLK. A device held in reset takes none (R513). -/
def State.run (f : Dev → Dev) (s : State) : Host.Outcome State Fault Refusal :=
  if s.dev.clock.phase = .held then .next s else .next { s with dev := aftermath s.dev (f s.dev) }

/-- The same for the commands that a device held in reset takes too. -/
def State.power (f : Dev → Dev) (s : State) : Host.Outcome State Fault Refusal :=
  .next { s with dev := aftermath s.dev (f s.dev) }

/-- A unit clocked by TCLK acts while it runs (R73, R513). -/
def live (f : Dev → Dev) (d : Dev) : Dev := if d.tclkRuns then f d else d

/-- What comes before a register write in its TCLK: insertions of the Cox and of the control engines (R155), and the wheel's accesses
(R45). -/
def busFirst (d : Dev) : Dev := wheelTicks (if d.clock.owed then forUpTo 8 timInserts (coxTurn d) else d)

/-- A register write takes place while TCLK runs and no warm reset is in progress (R448, R522). -/
def onBus (f : Dev → Dev) (d : Dev) : Dev := if d.hostsRun then f (busFirst d) else d

/-- A register read by master `m`: what it returns goes to the master. It meets the registers before the wheel's writes of the TCLK (R45). -/
def give (m : Master) (f : Dev → Nat × Dev) (d : Dev) : Dev :=
  if d.hostsRun then let r := f d; r.2.ret m (r.1 % 2 ^ 32) else d

/-- A read that claims an interrupt comes after the wheel's accesses of its TCLK (R398). -/
def giveLate (m : Master) (f : Dev → Nat × Dev) : Dev → Dev := onBus fun d => let r := f d; r.2.ret m (r.1 % 2 ^ 32)

/-- A tracker acts, in MOORED TRK[0] alone (R102). -/
def onTrk (n : Nat) (f : Dev → Dev) (d : Dev) : Dev :=
  if d.tclkRuns ∨ (n = 0 ∧ d.clock.phase ≠ .held) then f d else d

/-- REGISTER_WRITE: a write of the 32-bit word `v` at `a`; an access of another alignment, or to no register, is refused (R14, R34). -/
def regWriteCmd (m : Master) (a v : Nat) (d : Dev) : Dev :=
  if a % 4 ≠ 0 then badSize m d else if d.isReg a then regWrite m a v d else unmapped m d

/-- Address of word 7 of a split FIFO (R121, R173). -/
def splitWord7 : SplitFifo → Nat
  | .trk n => 0x201fc + 0x200 * n
  | .cnt n => 0x2207c + 0x80 * n
  | .ch n => 0x1000fc + 0x100 * n

/-! ### The stroke and the timebase -/

/-- FINISH_WINDOW: cycle P − 64 of the stroke comes (R25). -/
def finishCmd (d : Dev) : Dev := if d.clock.finishDone then d else finishWindow (passTo (d.clock.endAt - 64) d)

/-- PERIOD_CHANGE: a period waits, and the coming catch falls on a whole second (R28). -/
def Dev.periodDue (d : Dev) : Bool := d.clock.nextPeriod.isSome && onSecond d.catchTime

/-- MODE_CHANGE: a change of mode applies or is refused at the coming catch (R497, R499, R510). -/
def Dev.modeDue (d : Dev) : Bool :=
  let t := leftAt PWR_MODE_TARGET d.dueWrites (d.get PWR_MODE_TARGET)
  d.tclkRuns && (d.pwr.trip || d.pwr.stepDown == some false || (decide (t ≠ d.mode) && (!d.clock.modeWait || onSecond d.catchTime)))

/-- MOORED_TICK: the next whole second of the VDD_AON counter (R74). -/
def mooredCmd (d : Dev) : Dev := if d.clock.phase = .moored ∨ d.clock.phase = .windDown then passTo d.boundary d else d

/-- OSC_FAULT: enabled oscillator `n` meets a fault condition; one that is faulty already counts its 60 s anew (R52). -/
def oscFaultCmd (n : Nat) (d : Dev) : Dev := if d.on (TB_OSC_CFG_ENABLE n) then oscFault n d else d

/-! ### Keel -/

/-- Keel can end service `s`: its cost is used up, or, for a service that a command ends, it is in progress (R375). -/
def Dev.keelEnds (d : Dev) (s : KeelSvc) : Bool := if svcAuto s then d.keelReady s else d.keelIn s

/-- Service `s`, if it has been asked for, comes to its end with the effect `f`; a million TCLK are enough where no service of an equal
or lower class waits for a command of its own. -/
def keelCmd (s : KeelSvc) (f : Dev → Dev) (d : Dev) : Dev :=
  if d.hostsRun ∧ d.keelAsked s then
    match passUntil (fun d => d.keelEnds s) 1000000 d with
    | some e => keelDone s f e
    | none => d
  else d

/-- FILTER_UPDATE: in MOORED the whole second brings the update (R53, R73). -/
def filterCmd (d : Dev) : Dev := if d.tclkRuns then keelCmd .filterUpdate filterDone d else mooredCmd d

/-- A load of service `s` ends: the parity error met in it first (R383), and the effect `f` with the DRAM error met in it, unless the trap
has restarted Keel. -/
def loadEnd (s : KeelSvc) (e : LoadEnd) (f : Option Nat → Dev → Dev) (d : Dev) : Dev :=
  let d := match e.parity with | some i => patchParity s i d | none => d
  if d.keelIn s then f (e.ecc.map fun a => a.toNat) d else d

/-! ### Trackers, counters and channels -/

/-- The head of channel `n`'s queue falls due, when its action is `code` (R159). -/
def Dev.headDue (d : Dev) (n code : Nat) : Option Nat :=
  match (d.chAt n).queue with
  | e :: _ => if e.action = code then some (dueOf e.time) else none
  | [] => none

/-- A command that names an action: the head of channel `n`'s queue fires in its due TCLK, when it has that action. -/
def fireCmd (n code : Nat) (d : Dev) : Dev := onInstant (fun d => d.headDue n code) (fireAction n code) d

/-- The converted time of phase trigger `k` (R113). -/
def Dev.trigTime (d : Dev) (n k : Nat) : Option Nat :=
  ((d.trkAt n).trigAt.find? fun e => e.1 == k).map Prod.snd

/-- A gate of counter `n` closes at the catch that ends this stroke (R117). -/
def Dev.cntGateDue (d : Dev) (n : Nat) : Bool := (d.cntAt n).gateFrom.isSome && d.catchStroke % d.gateLen n == 0

/-- Keep-alive of channel `n` ends (R187). -/
def Dev.kaLimit (d : Dev) (n : Nat) : Option Nat :=
  if d.on (CH_STATUS_KA_RUN n) then some ((d.chAt n).kaEnd.getD ((d.chAt n).kaFrom + 64000000)) else none

/-- CAPTURE_EDGE: an edge crosses at `t`; the channel events of its TCLK have fired by then (R153). -/
def captureCmd (n t : Nat) (rising : Bool) (d : Dev) : Dev :=
  let d := passTo (dueOf t) d
  captureEdge n t rising (runTo (d.clock.now + 1) d)

/-- Synthesiser `n` in SETTLING can first detect phase lock (R194). -/
def Dev.lockAt (d : Dev) (n : Nat) : Option Nat :=
  if d.get (SYN_STATUS_STATE n) = 2 then some ((d.synAt n).since + 100000) else none

/-! ### Engines -/

/-- Device time at which the oldest wheel access of engine `n` completes: of a load whose sample the lane holds, else of one under way
(R43). -/
def Dev.wheelEnd (d : Dev) (n : Nat) : Option Nat :=
  match (d.ceAt n).lands.find? (fun l => l.unit == 3), (d.ceAt n).wheel.head? with
  | some l, _ => some l.at_
  | none, some op => some op.doneAt
  | none, none => none

/-- WHEEL_ACCESS_COMPLETE. -/
def wheelCmd (n : Nat) (d : Dev) : Dev := match d.wheelEnd n with | some t => passTo t d | none => d

/-- An instruction of engine `n`: the bundle `b` stands at its PC and issues in its next issue cycle, after the wheel's stall (R44, R210).
An interrupt that is taken there comes first (R249). -/
def ceCmd (n : Nat) (b : List Syl) (d : Dev) : Dev :=
  if !d.ceIssues n then d
  else
    let d := passTo (d.ceSlot n) d
    let s := d.stallTo n b d.clock.now
    let wait := bundleOk (d.repeats n) b && d.ceTurn n && decide (d.clock.now < s)
    let d := if wait then passTo s (d.putCe n { d.ceAt n with issueAt := s }) else d
    if d.ceTurn n then ceIssue n b d else d

/-- An instruction of pin engine `n`: the word `w` stands at its PC and acts in its action TCLK (R267, R269). -/
def peCmd (n w pins : Nat) (d : Dev) : Dev :=
  onInstant (fun d => if d.get (PE_STATUS_RUN n) = 1 then some (d.peTclk n (bits w 16 8)) else none) (peIssue n w pins) d

/-- The next TCLK in which the stalled pin engine `n` tests its instruction (R270, R271). -/
def Dev.peTestAt (d : Dev) (n : Nat) : Option Nat :=
  let p := d.peAt n
  if d.get (PE_STATUS_RUN n) = 2 then some (peSlot d.mode (max d.clock.now (max p.actFrom p.triedAt))) else none

/-! ### The crew link and Ethernet -/

/-- The lead's roll call acts at the catch that ends this stroke (R329). -/
def Dev.rollRoundDue (d : Dev) : Bool :=
  d.isLead && match d.crew.roll with
    | some r => r.left == 1
    | none => match d.crew.rollReq, d.crew.result with
      | some t, none => onSecond d.catchTime && decide (t + 2 * d.period ≤ d.catchTime)
      | _, _ => false

/-- The catch that ends this stroke is catch d of the open crew transaction (R344). -/
def Dev.decisionDue (d : Dev) : Bool := d.isLead && d.get CREW_CC_STATUS_STATE == 2 && d.crew.lead.toD == 1

/-- A remote access has waited for 64 strokes at the catch that ends this stroke (R340). -/
def Dev.raTimeoutDue (d : Dev) : Bool := match d.crew.ra with | some op => decide (64 ≤ op.since + 1) | none => false

/-- Port `k`'s session key is 24 h old (R320). -/
def Dev.rekeyAt (d : Dev) (k : Nat) : Option Nat :=
  if (d.cport k).keyed then some ((d.cport k).keyAt + 86400000000000) else none

/-- Port `n` launches a Sync at the catch that ends this stroke (R354). -/
def Dev.syncDue (d : Dev) (n : Nat) : Bool :=
  d.ptpOn n && d.ptpState n == 6 && intervalDue (logNs (d.gets (ETH_PTP_RATE_LOG_SYNC n))) d.clock.openAt d.catchTime

/-- Port `n` sends an Announce at the catch that ends this stroke (R361). -/
def Dev.annDue (d : Dev) (n : Nat) : Bool :=
  d.ptpOn n && d.ptpState n == 6 && intervalDue (logNs (d.gets (ETH_PTP_RATE_LOG_ANN n))) d.clock.openAt d.catchTime

/-- Port `n` sends an ESMC information PDU at the catch that ends this stroke (R368). -/
def Dev.infoDue (d : Dev) (n : Nat) : Bool :=
  d.on (ETH_ESMC_CFG_ESMC_TX n) && ptpMode d.mode && d.ethRuns n && intervalDue 1000000000 d.clock.openAt d.catchTime

/-- Port `n` presents a revolution at the catch that ends this stroke (R357). -/
def Dev.measAtCatch (d : Dev) (n : Nat) : Bool :=
  d.on (ETH_PTP_CFG_TRK_EN n) && match d.measDue n with | some t => decide (t ≤ (d.catchTime : Int)) | none => false

/-! ### Interrupts -/

/-- Device time at which the next ring or line change of source `n` reaches its pending bit (R396, R405). -/
def Dev.sourceAt (d : Dev) (n : Nat) : Option Nat :=
  if 960 ≤ n then (d.irq.rings.find? fun r => r.idx == n - 960).map fun r => r.at_
  else (d.irq.chg.find? fun c => c.src == n).map fun c => c.at_

/-- SOURCE_PENDING: it reaches the bit. -/
def sourceCmd (n : Nat) (d : Dev) : Dev := match d.sourceAt n with | some t => passTo t d | none => d

/-! ### DMA and the check units -/

/-- TCLK pass until `p` holds, within 512 and `fuel` TCLK, after `prep`. -/
def awaiting (p : Dev → Bool) (fuel : Nat) (prep : Dev → Dev) (d : Dev) : Dev := (passUntil p (512 + fuel) (prep d)).getD d

/-- The reads that `p` names meet an error of `kind`. -/
def Dev.markErr (d : Dev) (kind : Nat) (p : Access → Bool) : Dev :=
  d.mapReqs fun a => if p a && !a.write then { a with err := max kind a.err } else a

/-- DESCRIPTOR_FETCH: channel `c`'s descriptor is read and checked (R414); `bad`: the read meets an uncorrectable error. -/
def descCmd (c : Nat) (bad : Bool) (d : Dev) : Dev :=
  if d.get (DMA_STATUS_STATE c) ≠ 1 then d
  else awaiting (fun d => d.get (DMA_STATUS_STATE c) != 1) 0 (fun d =>
    if bad then d.markErr 2 (fun a => a.ofChannel c && decide (DmaKind.ofTag a.tag = .desc)) else d) d

/-- BURST: the engine grants a burst once none is in flight (R416). -/
def burstCmd (d : Dev) : Dev := if d.hostsRun then burst d else d

/-- The reads of channel `c`'s burst have all returned. -/
def Dev.burstRead (d : Dev) (c : Nat) : Bool := match (d.dmaAt c).burst with | some b => b.writing | none => true

/-- BURST_READ_RETURN: the reads of channel `c`'s burst return (R417); the one that reads `addr` meets an error of `kind`. -/
def burstReadCmd (c kind addr : Nat) (d : Dev) : Dev :=
  if d.burstRead c then d
  else awaiting (fun d => d.burstRead c) 0 (fun d => if kind = 0 then d else (readErr kind addr d).markErr kind fun a =>
    a.ofChannel c && decide (a.addr ≤ addr) && decide (addr < a.addr + a.bytes)) d

/-- DESCRIPTOR_COMPLETE: the completion sequence of channel `c` ends (R424). -/
def descEndCmd (c : Nat) (d : Dev) : Dev :=
  if d.get (DMA_STATUS_STATE c) = 4 then awaiting (fun d => d.get (DMA_STATUS_STATE c) != 4) 0 id d else d

/-- SCAN_DONE: the scan of unit `n` ends (R428), at the word `err` if that meets an uncorrectable error. -/
def scanCmd (n : Nat) (err : Option Nat) (d : Dev) : Dev :=
  let s := d.scanAt n
  if s.left = 0 then d
  else awaiting (fun d => (d.scanAt n).left == 0) (2 * s.left + 4096) (fun d => d.putScan n { s with bad := err }) d

/-! ### Memory -/

/-- ECC_WRITEBACK: the next TCLK in which a corrected word of bank `k` is written back. -/
def writebackCmd (k : Nat) (d : Dev) : Dev :=
  if (d.wbOf k).isEmpty then d else awaiting (fun e => decide ((e.wbOf k).length < (d.wbOf k).length)) 0 id d

/-! ### Monitors and self-test -/

/-- The conversion in progress ends, or that of the next held sample (R526); in MOORED it does so when the command says (R529). -/
def Dev.adcEndAt (d : Dev) : Option Nat :=
  match d.mon.conv with
  | some c => some (if d.mode = 0 then d.clock.now else c.start + 1000)
  | none => (firstHeld d.mon.held).map fun h => h.at_ + 1000

/-- The next self-test pass begins (R535). -/
def Dev.passAt (d : Dev) : Option Nat := if d.bistOn && !d.bist.pass then some d.bist.nextPass else none

/-- WAKE_TIMER: device time comes to WAKE_AT (R503). -/
def wakeTimerCmd (d : Dev) : Dev :=
  if d.on PWR_WAKE_CFG_TIMER_EN ∧ (d.clock.phase = .moored ∨ d.clock.phase = .windDown) then wakeNote (passTo d.wakeAt d) else d

end Sys2Proof.Machine
end

