-- ==== Sys2Proof/Machine/CmdBist.lean ====
section
/-!
DEFINITION. Sys2Proof/Machine/CmdBist.lean: Commands of the self-test.
-/
namespace Sys2Proof.Machine

/-- SLICE_END (R538). The slice of slot `i`. -/
def execSliceEnd (i : Fin 2) (fault : Bool) (s : State) : Host.Outcome State Fault Refusal :=
  s.run (live (sliceEnd i fault))

/-- PASS_START (R535). -/
def execPassStart (s : State) : Host.Outcome State Fault Refusal :=
  s.run (live (onInstant (fun d => d.passAt) passStart))

/-- FULL (R539). -/
def execFull (s : State) : Host.Outcome State Fault Refusal :=
  s.run (onBus bistFull)

/-- FULL_RUN_DONE (R539). `failed`: the units with faults. -/
def execFullRunDone (failed : List Nat) (s : State) : Host.Outcome State Fault Refusal :=
  s.run (live (fullRunDone failed))

/-- STRUCT (R540). -/
def execStruct (s : State) : Host.Outcome State Fault Refusal :=
  s.run (onBus bistStruct)

end Sys2Proof.Machine
end

