-- ==== Sys2Proof/Machine/CmdCe.lean ====
section
/-!
DEFINITION. Sys2Proof/Machine/CmdCe.lean: Commands of the control engines: each issues a bundle of one syllable (R240 to R265).
-/
namespace Sys2Proof.Machine

/-- NOP (R246). -/
def execCeNop (n : Fin 8) (c : BitVec 4) (s : State) : Host.Outcome State Fault Refusal :=
  s.run (live (ceCmd n [⟨0, c.toNat, 0, 0⟩]))

/-- JMPR (R246). -/
def execCeJmpr (n : Fin 8) (c : BitVec 4) (a : BitVec 5) (s : State) : Host.Outcome State Fault Refusal :=
  s.run (live (ceCmd n [⟨0, c.toNat, 1, a.toNat * 256⟩]))

/-- CALLR (R246). -/
def execCeCallr (n : Fin 8) (c : BitVec 4) (a : BitVec 5) (sh : BitVec 2) (s : State) : Host.Outcome State Fault Refusal :=
  s.run (live (ceCmd n [⟨0, c.toNat, 2, a.toNat * 256 + sh.toNat⟩]))

/-- RET (R246). -/
def execCeRet (n : Fin 8) (c : BitVec 4) (sh : BitVec 2) (s : State) : Host.Outcome State Fault Refusal :=
  s.run (live (ceCmd n [⟨0, c.toNat, 3, sh.toNat⟩]))

/-- RTT (R233). -/
def execCeRtt (n : Fin 8) (c : BitVec 4) (s : State) : Host.Outcome State Fault Refusal :=
  s.run (live (ceCmd n [⟨0, c.toNat, 4, 0⟩]))

/-- RTI (R233). -/
def execCeRti (n : Fin 8) (c : BitVec 4) (s : State) : Host.Outcome State Fault Refusal :=
  s.run (live (ceCmd n [⟨0, c.toNat, 5, 0⟩]))

/-- YIELD (R225). -/
def execCeYield (n : Fin 8) (c : BitVec 4) (s : State) : Host.Outcome State Fault Refusal :=
  s.run (live (ceCmd n [⟨0, c.toNat, 6, 0⟩]))

/-- WAIT (R237). -/
def execCeWait (n : Fin 8) (c : BitVec 4) (s : State) : Host.Outcome State Fault Refusal :=
  s.run (live (ceCmd n [⟨0, c.toNat, 7, 0⟩]))

/-- TRAP (R248). -/
def execCeTrap (n : Fin 8) (c : BitVec 4) (s : State) : Host.Outcome State Fault Refusal :=
  s.run (live (ceCmd n [⟨0, c.toNat, 8, 0⟩]))

/-- SPILL (R214). -/
def execCeSpill (n : Fin 8) (c : BitVec 4) (s : State) : Host.Outcome State Fault Refusal :=
  s.run (live (ceCmd n [⟨0, c.toNat, 9, 0⟩]))

/-- FILL (R214). -/
def execCeFill (n : Fin 8) (c : BitVec 4) (s : State) : Host.Outcome State Fault Refusal :=
  s.run (live (ceCmd n [⟨0, c.toNat, 10, 0⟩]))

/-- REP (R250). -/
def execCeRep (n : Fin 8) (c : BitVec 4) (a : BitVec 5) (t : Bool) (s : State) : Host.Outcome State Fault Refusal :=
  s.run (live (ceCmd n [⟨0, c.toNat, 11, a.toNat * 256 + b2n t * 4⟩]))

/-- REPI (R250). -/
def execCeRepi (n : Fin 8) (c : BitVec 4) (k : BitVec 15) (t : Bool) (s : State) : Host.Outcome State Fault Refusal :=
  s.run (live (ceCmd n [⟨0, c.toNat, 12, b2n t * 131072 + k.toNat⟩]))

/-- MFS (R246). -/
def execCeMfs (n : Fin 8) (c : BitVec 4) (d : BitVec 5) (sr : BitVec 5) (s : State) : Host.Outcome State Fault Refusal :=
  s.run (live (ceCmd n [⟨0, c.toNat, 13, d.toNat * 8192 + sr.toNat * 256⟩]))

/-- MTS (R246). -/
def execCeMts (n : Fin 8) (c : BitVec 4) (sr : BitVec 5) (a : BitVec 5) (s : State) : Host.Outcome State Fault Refusal :=
  s.run (live (ceCmd n [⟨0, c.toNat, 14, sr.toNat * 8192 + a.toNat * 256⟩]))

/-- EI (R249). -/
def execCeEi (n : Fin 8) (c : BitVec 4) (s : State) : Host.Outcome State Fault Refusal :=
  s.run (live (ceCmd n [⟨0, c.toNat, 15, 0⟩]))

/-- DI (R249). -/
def execCeDi (n : Fin 8) (c : BitVec 4) (s : State) : Host.Outcome State Fault Refusal :=
  s.run (live (ceCmd n [⟨0, c.toNat, 16, 0⟩]))

/-- JMP (R246). -/
def execCeJmp (n : Fin 8) (c : BitVec 4) (target : BitVec 16) (s : State) : Host.Outcome State Fault Refusal :=
  s.run (live (ceCmd n [⟨0, c.toNat, 56, target.toNat⟩]))

/-- CALL (R246). -/
def execCeCall (n : Fin 8) (c : BitVec 4) (target : BitVec 16) (sh : BitVec 2) (s : State) : Host.Outcome State Fault Refusal :=
  s.run (live (ceCmd n [⟨0, c.toNat, 57, sh.toNat * 65536 + target.toNat⟩]))

/-- ADD (R254). -/
def execCeAdd (n : Fin 8) (c : BitVec 4) (alu1 : Bool) (d : BitVec 5) (a : BitVec 5) (b : BitVec 5) (f : Bool) (s : State) : Host.Outcome State Fault Refusal :=
  s.run (live (ceCmd n [⟨1 + b2n alu1, c.toNat, 0, d.toNat * 8192 + a.toNat * 256 + b.toNat * 8 + b2n f * 4⟩]))

/-- ADC (R254). -/
def execCeAdc (n : Fin 8) (c : BitVec 4) (alu1 : Bool) (d : BitVec 5) (a : BitVec 5) (b : BitVec 5) (f : Bool) (s : State) : Host.Outcome State Fault Refusal :=
  s.run (live (ceCmd n [⟨1 + b2n alu1, c.toNat, 1, d.toNat * 8192 + a.toNat * 256 + b.toNat * 8 + b2n f * 4⟩]))

/-- SUB (R254). -/
def execCeSub (n : Fin 8) (c : BitVec 4) (alu1 : Bool) (d : BitVec 5) (a : BitVec 5) (b : BitVec 5) (f : Bool) (s : State) : Host.Outcome State Fault Refusal :=
  s.run (live (ceCmd n [⟨1 + b2n alu1, c.toNat, 2, d.toNat * 8192 + a.toNat * 256 + b.toNat * 8 + b2n f * 4⟩]))

/-- SBC (R254). -/
def execCeSbc (n : Fin 8) (c : BitVec 4) (alu1 : Bool) (d : BitVec 5) (a : BitVec 5) (b : BitVec 5) (f : Bool) (s : State) : Host.Outcome State Fault Refusal :=
  s.run (live (ceCmd n [⟨1 + b2n alu1, c.toNat, 3, d.toNat * 8192 + a.toNat * 256 + b.toNat * 8 + b2n f * 4⟩]))

/-- AND (R254). -/
def execCeAnd (n : Fin 8) (c : BitVec 4) (alu1 : Bool) (d : BitVec 5) (a : BitVec 5) (b : BitVec 5) (f : Bool) (s : State) : Host.Outcome State Fault Refusal :=
  s.run (live (ceCmd n [⟨1 + b2n alu1, c.toNat, 4, d.toNat * 8192 + a.toNat * 256 + b.toNat * 8 + b2n f * 4⟩]))

/-- OR (R254). -/
def execCeOr (n : Fin 8) (c : BitVec 4) (alu1 : Bool) (d : BitVec 5) (a : BitVec 5) (b : BitVec 5) (f : Bool) (s : State) : Host.Outcome State Fault Refusal :=
  s.run (live (ceCmd n [⟨1 + b2n alu1, c.toNat, 5, d.toNat * 8192 + a.toNat * 256 + b.toNat * 8 + b2n f * 4⟩]))

/-- XOR (R254). -/
def execCeXor (n : Fin 8) (c : BitVec 4) (alu1 : Bool) (d : BitVec 5) (a : BitVec 5) (b : BitVec 5) (f : Bool) (s : State) : Host.Outcome State Fault Refusal :=
  s.run (live (ceCmd n [⟨1 + b2n alu1, c.toNat, 6, d.toNat * 8192 + a.toNat * 256 + b.toNat * 8 + b2n f * 4⟩]))

/-- ANDN (R254). -/
def execCeAndn (n : Fin 8) (c : BitVec 4) (alu1 : Bool) (d : BitVec 5) (a : BitVec 5) (b : BitVec 5) (f : Bool) (s : State) : Host.Outcome State Fault Refusal :=
  s.run (live (ceCmd n [⟨1 + b2n alu1, c.toNat, 7, d.toNat * 8192 + a.toNat * 256 + b.toNat * 8 + b2n f * 4⟩]))

/-- SHL (R254). -/
def execCeShl (n : Fin 8) (c : BitVec 4) (alu1 : Bool) (d : BitVec 5) (a : BitVec 5) (b : BitVec 5) (f : Bool) (s : State) : Host.Outcome State Fault Refusal :=
  s.run (live (ceCmd n [⟨1 + b2n alu1, c.toNat, 8, d.toNat * 8192 + a.toNat * 256 + b.toNat * 8 + b2n f * 4⟩]))

/-- SHR (R254). -/
def execCeShr (n : Fin 8) (c : BitVec 4) (alu1 : Bool) (d : BitVec 5) (a : BitVec 5) (b : BitVec 5) (f : Bool) (s : State) : Host.Outcome State Fault Refusal :=
  s.run (live (ceCmd n [⟨1 + b2n alu1, c.toNat, 9, d.toNat * 8192 + a.toNat * 256 + b.toNat * 8 + b2n f * 4⟩]))

/-- SAR (R254). -/
def execCeSar (n : Fin 8) (c : BitVec 4) (alu1 : Bool) (d : BitVec 5) (a : BitVec 5) (b : BitVec 5) (f : Bool) (s : State) : Host.Outcome State Fault Refusal :=
  s.run (live (ceCmd n [⟨1 + b2n alu1, c.toNat, 10, d.toNat * 8192 + a.toNat * 256 + b.toNat * 8 + b2n f * 4⟩]))

/-- ROL (R254). -/
def execCeRol (n : Fin 8) (c : BitVec 4) (alu1 : Bool) (d : BitVec 5) (a : BitVec 5) (b : BitVec 5) (f : Bool) (s : State) : Host.Outcome State Fault Refusal :=
  s.run (live (ceCmd n [⟨1 + b2n alu1, c.toNat, 11, d.toNat * 8192 + a.toNat * 256 + b.toNat * 8 + b2n f * 4⟩]))

/-- MIN (R254). -/
def execCeMin (n : Fin 8) (c : BitVec 4) (alu1 : Bool) (d : BitVec 5) (a : BitVec 5) (b : BitVec 5) (f : Bool) (s : State) : Host.Outcome State Fault Refusal :=
  s.run (live (ceCmd n [⟨1 + b2n alu1, c.toNat, 12, d.toNat * 8192 + a.toNat * 256 + b.toNat * 8 + b2n f * 4⟩]))

/-- MAX (R254). -/
def execCeMax (n : Fin 8) (c : BitVec 4) (alu1 : Bool) (d : BitVec 5) (a : BitVec 5) (b : BitVec 5) (f : Bool) (s : State) : Host.Outcome State Fault Refusal :=
  s.run (live (ceCmd n [⟨1 + b2n alu1, c.toNat, 13, d.toNat * 8192 + a.toNat * 256 + b.toNat * 8 + b2n f * 4⟩]))

/-- MINU (R254). -/
def execCeMinu (n : Fin 8) (c : BitVec 4) (alu1 : Bool) (d : BitVec 5) (a : BitVec 5) (b : BitVec 5) (f : Bool) (s : State) : Host.Outcome State Fault Refusal :=
  s.run (live (ceCmd n [⟨1 + b2n alu1, c.toNat, 14, d.toNat * 8192 + a.toNat * 256 + b.toNat * 8 + b2n f * 4⟩]))

/-- MAXU (R254). -/
def execCeMaxu (n : Fin 8) (c : BitVec 4) (alu1 : Bool) (d : BitVec 5) (a : BitVec 5) (b : BitVec 5) (f : Bool) (s : State) : Host.Outcome State Fault Refusal :=
  s.run (live (ceCmd n [⟨1 + b2n alu1, c.toNat, 15, d.toNat * 8192 + a.toNat * 256 + b.toNat * 8 + b2n f * 4⟩]))

/-- CMP (R254). -/
def execCeCmp (n : Fin 8) (c : BitVec 4) (alu1 : Bool) (a : BitVec 5) (b : BitVec 5) (f : Bool) (s : State) : Host.Outcome State Fault Refusal :=
  s.run (live (ceCmd n [⟨1 + b2n alu1, c.toNat, 16, a.toNat * 256 + b.toNat * 8 + b2n f * 4⟩]))

/-- TST (R254). -/
def execCeTst (n : Fin 8) (c : BitVec 4) (alu1 : Bool) (a : BitVec 5) (b : BitVec 5) (f : Bool) (s : State) : Host.Outcome State Fault Refusal :=
  s.run (live (ceCmd n [⟨1 + b2n alu1, c.toNat, 17, a.toNat * 256 + b.toNat * 8 + b2n f * 4⟩]))

/-- MOV (R254). -/
def execCeMov (n : Fin 8) (c : BitVec 4) (alu1 : Bool) (d : BitVec 5) (a : BitVec 5) (f : Bool) (s : State) : Host.Outcome State Fault Refusal :=
  s.run (live (ceCmd n [⟨1 + b2n alu1, c.toNat, 18, d.toNat * 8192 + a.toNat * 256 + b2n f * 4⟩]))

/-- NEG (R254). -/
def execCeNeg (n : Fin 8) (c : BitVec 4) (alu1 : Bool) (d : BitVec 5) (a : BitVec 5) (f : Bool) (s : State) : Host.Outcome State Fault Refusal :=
  s.run (live (ceCmd n [⟨1 + b2n alu1, c.toNat, 19, d.toNat * 8192 + a.toNat * 256 + b2n f * 4⟩]))

/-- NOT (R254). -/
def execCeNot (n : Fin 8) (c : BitVec 4) (alu1 : Bool) (d : BitVec 5) (a : BitVec 5) (f : Bool) (s : State) : Host.Outcome State Fault Refusal :=
  s.run (live (ceCmd n [⟨1 + b2n alu1, c.toNat, 20, d.toNat * 8192 + a.toNat * 256 + b2n f * 4⟩]))

/-- ABS (R254). -/
def execCeAbs (n : Fin 8) (c : BitVec 4) (alu1 : Bool) (d : BitVec 5) (a : BitVec 5) (f : Bool) (s : State) : Host.Outcome State Fault Refusal :=
  s.run (live (ceCmd n [⟨1 + b2n alu1, c.toNat, 21, d.toNat * 8192 + a.toNat * 256 + b2n f * 4⟩]))

/-- SEXT8 (R254). -/
def execCeSext8 (n : Fin 8) (c : BitVec 4) (alu1 : Bool) (d : BitVec 5) (a : BitVec 5) (f : Bool) (s : State) : Host.Outcome State Fault Refusal :=
  s.run (live (ceCmd n [⟨1 + b2n alu1, c.toNat, 22, d.toNat * 8192 + a.toNat * 256 + b2n f * 4⟩]))

/-- SWAPB (R254). -/
def execCeSwapb (n : Fin 8) (c : BitVec 4) (alu1 : Bool) (d : BitVec 5) (a : BitVec 5) (f : Bool) (s : State) : Host.Outcome State Fault Refusal :=
  s.run (live (ceCmd n [⟨1 + b2n alu1, c.toNat, 23, d.toNat * 8192 + a.toNat * 256 + b2n f * 4⟩]))

/-- ADDS (R254). -/
def execCeAdds (n : Fin 8) (c : BitVec 4) (alu1 : Bool) (d : BitVec 5) (a : BitVec 5) (b : BitVec 5) (f : Bool) (s : State) : Host.Outcome State Fault Refusal :=
  s.run (live (ceCmd n [⟨1 + b2n alu1, c.toNat, 24, d.toNat * 8192 + a.toNat * 256 + b.toNat * 8 + b2n f * 4⟩]))

/-- SUBS (R254). -/
def execCeSubs (n : Fin 8) (c : BitVec 4) (alu1 : Bool) (d : BitVec 5) (a : BitVec 5) (b : BitVec 5) (f : Bool) (s : State) : Host.Outcome State Fault Refusal :=
  s.run (live (ceCmd n [⟨1 + b2n alu1, c.toNat, 25, d.toNat * 8192 + a.toNat * 256 + b.toNat * 8 + b2n f * 4⟩]))

/-- ADDI (R254). -/
def execCeAddi (n : Fin 8) (c : BitVec 4) (alu1 : Bool) (d : BitVec 5) (a : BitVec 5) (f : Bool) (imm : BitVec 7) (s : State) : Host.Outcome State Fault Refusal :=
  s.run (live (ceCmd n [⟨1 + b2n alu1, c.toNat, 32, d.toNat * 8192 + a.toNat * 256 + b2n f * 128 + imm.toNat⟩]))

/-- ANDI (R254). -/
def execCeAndi (n : Fin 8) (c : BitVec 4) (alu1 : Bool) (d : BitVec 5) (a : BitVec 5) (f : Bool) (imm : BitVec 7) (s : State) : Host.Outcome State Fault Refusal :=
  s.run (live (ceCmd n [⟨1 + b2n alu1, c.toNat, 33, d.toNat * 8192 + a.toNat * 256 + b2n f * 128 + imm.toNat⟩]))

/-- ORI (R254). -/
def execCeOri (n : Fin 8) (c : BitVec 4) (alu1 : Bool) (d : BitVec 5) (a : BitVec 5) (f : Bool) (imm : BitVec 7) (s : State) : Host.Outcome State Fault Refusal :=
  s.run (live (ceCmd n [⟨1 + b2n alu1, c.toNat, 34, d.toNat * 8192 + a.toNat * 256 + b2n f * 128 + imm.toNat⟩]))

/-- XORI (R254). -/
def execCeXori (n : Fin 8) (c : BitVec 4) (alu1 : Bool) (d : BitVec 5) (a : BitVec 5) (f : Bool) (imm : BitVec 7) (s : State) : Host.Outcome State Fault Refusal :=
  s.run (live (ceCmd n [⟨1 + b2n alu1, c.toNat, 35, d.toNat * 8192 + a.toNat * 256 + b2n f * 128 + imm.toNat⟩]))

/-- SHLI (R254). -/
def execCeShli (n : Fin 8) (c : BitVec 4) (alu1 : Bool) (d : BitVec 5) (a : BitVec 5) (f : Bool) (imm : BitVec 4) (s : State) : Host.Outcome State Fault Refusal :=
  s.run (live (ceCmd n [⟨1 + b2n alu1, c.toNat, 36, d.toNat * 8192 + a.toNat * 256 + b2n f * 128 + imm.toNat⟩]))

/-- SHRI (R254). -/
def execCeShri (n : Fin 8) (c : BitVec 4) (alu1 : Bool) (d : BitVec 5) (a : BitVec 5) (f : Bool) (imm : BitVec 4) (s : State) : Host.Outcome State Fault Refusal :=
  s.run (live (ceCmd n [⟨1 + b2n alu1, c.toNat, 37, d.toNat * 8192 + a.toNat * 256 + b2n f * 128 + imm.toNat⟩]))

/-- SARI (R254). -/
def execCeSari (n : Fin 8) (c : BitVec 4) (alu1 : Bool) (d : BitVec 5) (a : BitVec 5) (f : Bool) (imm : BitVec 4) (s : State) : Host.Outcome State Fault Refusal :=
  s.run (live (ceCmd n [⟨1 + b2n alu1, c.toNat, 38, d.toNat * 8192 + a.toNat * 256 + b2n f * 128 + imm.toNat⟩]))

/-- ROLI (R254). -/
def execCeRoli (n : Fin 8) (c : BitVec 4) (alu1 : Bool) (d : BitVec 5) (a : BitVec 5) (f : Bool) (imm : BitVec 4) (s : State) : Host.Outcome State Fault Refusal :=
  s.run (live (ceCmd n [⟨1 + b2n alu1, c.toNat, 39, d.toNat * 8192 + a.toNat * 256 + b2n f * 128 + imm.toNat⟩]))

/-- CMPI (R254). -/
def execCeCmpi (n : Fin 8) (c : BitVec 4) (alu1 : Bool) (a : BitVec 5) (f : Bool) (imm : BitVec 7) (s : State) : Host.Outcome State Fault Refusal :=
  s.run (live (ceCmd n [⟨1 + b2n alu1, c.toNat, 40, a.toNat * 256 + b2n f * 128 + imm.toNat⟩]))

/-- MOVI (R254). -/
def execCeMovi (n : Fin 8) (c : BitVec 4) (alu1 : Bool) (d : BitVec 5) (imm : BitVec 16) (s : State) : Host.Outcome State Fault Refusal :=
  s.run (live (ceCmd n [⟨1 + b2n alu1, c.toNat, 0x38 + d.toNat / 4, d.toNat % 4 * 65536 + imm.toNat⟩]))

/-- LD (R256). -/
def execCeLd (n : Fin 8) (c : BitVec 4) (r : BitVec 5) (k : BitVec 3) (a : BitVec 5) (disp : BitVec 5) (s : State) : Host.Outcome State Fault Refusal :=
  s.run (live (ceCmd n [⟨3, c.toNat, 0, r.toNat * 8192 + k.toNat * 1024 + a.toNat * 32 + disp.toNat⟩]))

/-- LDP (R256). -/
def execCeLdp (n : Fin 8) (c : BitVec 4) (r : BitVec 5) (k : BitVec 3) (a : BitVec 5) (disp : BitVec 5) (s : State) : Host.Outcome State Fault Refusal :=
  s.run (live (ceCmd n [⟨3, c.toNat, 1, r.toNat * 8192 + k.toNat * 1024 + a.toNat * 32 + disp.toNat⟩]))

/-- ST (R256). -/
def execCeSt (n : Fin 8) (c : BitVec 4) (r : BitVec 5) (k : BitVec 3) (a : BitVec 5) (disp : BitVec 5) (s : State) : Host.Outcome State Fault Refusal :=
  s.run (live (ceCmd n [⟨3, c.toNat, 2, r.toNat * 8192 + k.toNat * 1024 + a.toNat * 32 + disp.toNat⟩]))

/-- STP (R256). -/
def execCeStp (n : Fin 8) (c : BitVec 4) (r : BitVec 5) (k : BitVec 3) (a : BitVec 5) (disp : BitVec 5) (s : State) : Host.Outcome State Fault Refusal :=
  s.run (live (ceCmd n [⟨3, c.toNat, 3, r.toNat * 8192 + k.toNat * 1024 + a.toNat * 32 + disp.toNat⟩]))

/-- LD_POSTINC (R256). -/
def execCeLdPostinc (n : Fin 8) (c : BitVec 4) (r : BitVec 5) (k : BitVec 3) (a : BitVec 5) (s : State) : Host.Outcome State Fault Refusal :=
  s.run (live (ceCmd n [⟨3, c.toNat, 4, r.toNat * 8192 + k.toNat * 1024 + a.toNat * 32⟩]))

/-- LDP_POSTINC (R256). -/
def execCeLdpPostinc (n : Fin 8) (c : BitVec 4) (r : BitVec 5) (k : BitVec 3) (a : BitVec 5) (s : State) : Host.Outcome State Fault Refusal :=
  s.run (live (ceCmd n [⟨3, c.toNat, 5, r.toNat * 8192 + k.toNat * 1024 + a.toNat * 32⟩]))

/-- ST_POSTINC (R256). -/
def execCeStPostinc (n : Fin 8) (c : BitVec 4) (r : BitVec 5) (k : BitVec 3) (a : BitVec 5) (s : State) : Host.Outcome State Fault Refusal :=
  s.run (live (ceCmd n [⟨3, c.toNat, 6, r.toNat * 8192 + k.toNat * 1024 + a.toNat * 32⟩]))

/-- STP_POSTINC (R256). -/
def execCeStpPostinc (n : Fin 8) (c : BitVec 4) (r : BitVec 5) (k : BitVec 3) (a : BitVec 5) (s : State) : Host.Outcome State Fault Refusal :=
  s.run (live (ceCmd n [⟨3, c.toNat, 7, r.toNat * 8192 + k.toNat * 1024 + a.toNat * 32⟩]))

/-- LDA (R256). -/
def execCeLda (n : Fin 8) (c : BitVec 4) (r : BitVec 5) (k : BitVec 3) (imm : BitVec 10) (s : State) : Host.Outcome State Fault Refusal :=
  s.run (live (ceCmd n [⟨3, c.toNat, 8, r.toNat * 8192 + k.toNat * 1024 + imm.toNat⟩]))

/-- STA (R256). -/
def execCeSta (n : Fin 8) (c : BitVec 4) (r : BitVec 5) (k : BitVec 3) (imm : BitVec 10) (s : State) : Host.Outcome State Fault Refusal :=
  s.run (live (ceCmd n [⟨3, c.toNat, 9, r.toNat * 8192 + k.toNat * 1024 + imm.toNat⟩]))

/-- LDPA (R256). -/
def execCeLdpa (n : Fin 8) (c : BitVec 4) (r : BitVec 5) (k : BitVec 3) (imm : BitVec 10) (s : State) : Host.Outcome State Fault Refusal :=
  s.run (live (ceCmd n [⟨3, c.toNat, 10, r.toNat * 8192 + k.toNat * 1024 + imm.toNat⟩]))

/-- STPA (R256). -/
def execCeStpa (n : Fin 8) (c : BitVec 4) (r : BitVec 5) (k : BitVec 3) (imm : BitVec 10) (s : State) : Host.Outcome State Fault Refusal :=
  s.run (live (ceCmd n [⟨3, c.toNat, 11, r.toNat * 8192 + k.toNat * 1024 + imm.toNat⟩]))

/-- MOVW (R258). -/
def execCeMovw (n : Fin 8) (c : BitVec 4) (ks : BitVec 3) (kd : BitVec 3) (a : BitVec 5) (b : BitVec 5) (s : State) : Host.Outcome State Fault Refusal :=
  s.run (live (ceCmd n [⟨3, c.toNat, 12, ks.toNat * 32768 + kd.toNat * 4096 + a.toNat * 128 + b.toNat * 4⟩]))

/-- SCANW (R256). -/
def execCeScanw (n : Fin 8) (c : BitVec 4) (r : BitVec 5) (k : BitVec 3) (a : BitVec 5) (s : State) : Host.Outcome State Fault Refusal :=
  s.run (live (ceCmd n [⟨3, c.toNat, 13, r.toNat * 8192 + k.toNat * 1024 + a.toNat * 32⟩]))

/-- ARM (R261). -/
def execCeArm (n : Fin 8) (c : BitVec 4) (d : BitVec 5) (m : BitVec 4) (nh : BitVec 4) (s : State) : Host.Outcome State Fault Refusal :=
  s.run (live (ceCmd n [⟨4, c.toNat, 0, d.toNat * 8192 + m.toNat * 512 + nh.toNat * 32⟩]))

/-- ARMP (R260). -/
def execCeArmp (n : Fin 8) (c : BitVec 4) (d : BitVec 5) (m : BitVec 4) (s : State) : Host.Outcome State Fault Refusal :=
  s.run (live (ceCmd n [⟨4, c.toNat, 1, d.toNat * 8192 + m.toNat * 512⟩]))

/-- GETSN (R260). -/
def execCeGetsn (n : Fin 8) (c : BitVec 4) (d : BitVec 5) (s : State) : Host.Outcome State Fault Refusal :=
  s.run (live (ceCmd n [⟨4, c.toNat, 2, d.toNat * 8192⟩]))

/-- GETCT (R260). -/
def execCeGetct (n : Fin 8) (c : BitVec 4) (d : BitVec 5) (s : State) : Host.Outcome State Fault Refusal :=
  s.run (live (ceCmd n [⟨4, c.toNat, 3, d.toNat * 8192⟩]))

/-- TCLR (R260). -/
def execCeTclr (n : Fin 8) (c : BitVec 4) (s : State) : Host.Outcome State Fault Refusal :=
  s.run (live (ceCmd n [⟨4, c.toNat, 4, 0⟩]))

/-- BSET (R263). -/
def execCeBset (n : Fin 8) (c : BitVec 4) (d : BitVec 5) (a : BitVec 5) (p : BitVec 4) (s : State) : Host.Outcome State Fault Refusal :=
  s.run (live (ceCmd n [⟨5, c.toNat, 0, d.toNat * 8192 + a.toNat * 256 + p.toNat * 16⟩]))

/-- BCLR (R263). -/
def execCeBclr (n : Fin 8) (c : BitVec 4) (d : BitVec 5) (a : BitVec 5) (p : BitVec 4) (s : State) : Host.Outcome State Fault Refusal :=
  s.run (live (ceCmd n [⟨5, c.toNat, 1, d.toNat * 8192 + a.toNat * 256 + p.toNat * 16⟩]))

/-- BTGL (R263). -/
def execCeBtgl (n : Fin 8) (c : BitVec 4) (d : BitVec 5) (a : BitVec 5) (p : BitVec 4) (s : State) : Host.Outcome State Fault Refusal :=
  s.run (live (ceCmd n [⟨5, c.toNat, 2, d.toNat * 8192 + a.toNat * 256 + p.toNat * 16⟩]))

/-- BTST (R263). -/
def execCeBtst (n : Fin 8) (c : BitVec 4) (a : BitVec 5) (p : BitVec 4) (s : State) : Host.Outcome State Fault Refusal :=
  s.run (live (ceCmd n [⟨5, c.toNat, 3, a.toNat * 256 + p.toNat * 16⟩]))

/-- BEXT (R263). -/
def execCeBext (n : Fin 8) (c : BitVec 4) (d : BitVec 5) (a : BitVec 5) (p : BitVec 4) (q : BitVec 4) (s : State) : Host.Outcome State Fault Refusal :=
  s.run (live (ceCmd n [⟨5, c.toNat, 4, d.toNat * 8192 + a.toNat * 256 + p.toNat * 16 + q.toNat⟩]))

/-- BINS (R263). -/
def execCeBins (n : Fin 8) (c : BitVec 4) (d : BitVec 5) (a : BitVec 5) (p : BitVec 4) (q : BitVec 4) (s : State) : Host.Outcome State Fault Refusal :=
  s.run (live (ceCmd n [⟨5, c.toNat, 5, d.toNat * 8192 + a.toNat * 256 + p.toNat * 16 + q.toNat⟩]))

/-- CLZ (R263). -/
def execCeClz (n : Fin 8) (c : BitVec 4) (d : BitVec 5) (a : BitVec 5) (s : State) : Host.Outcome State Fault Refusal :=
  s.run (live (ceCmd n [⟨5, c.toNat, 6, d.toNat * 8192 + a.toNat * 256⟩]))

/-- POPC (R263). -/
def execCePopc (n : Fin 8) (c : BitVec 4) (d : BitVec 5) (a : BitVec 5) (s : State) : Host.Outcome State Fault Refusal :=
  s.run (live (ceCmd n [⟨5, c.toNat, 7, d.toNat * 8192 + a.toNat * 256⟩]))

/-- PAR (R263). -/
def execCePar (n : Fin 8) (c : BitVec 4) (d : BitVec 5) (a : BitVec 5) (p : BitVec 4) (q : BitVec 4) (s : State) : Host.Outcome State Fault Refusal :=
  s.run (live (ceCmd n [⟨5, c.toNat, 8, d.toNat * 8192 + a.toNat * 256 + p.toNat * 16 + q.toNat⟩]))

/-- BREV (R263). -/
def execCeBrev (n : Fin 8) (c : BitVec 4) (d : BitVec 5) (a : BitVec 5) (s : State) : Host.Outcome State Fault Refusal :=
  s.run (live (ceCmd n [⟨5, c.toNat, 9, d.toNat * 8192 + a.toNat * 256⟩]))

/-- BREV8 (R263). -/
def execCeBrev8 (n : Fin 8) (c : BitVec 4) (d : BitVec 5) (a : BitVec 5) (s : State) : Host.Outcome State Fault Refusal :=
  s.run (live (ceCmd n [⟨5, c.toNat, 10, d.toNat * 8192 + a.toNat * 256⟩]))

/-- CRCB (R264). -/
def execCeCrcb (n : Fin 8) (c : BitVec 4) (d : BitVec 5) (a : BitVec 5) (code : BitVec 2) (s : State) : Host.Outcome State Fault Refusal :=
  s.run (live (ceCmd n [⟨5, c.toNat, 11, d.toNat * 8192 + a.toNat * 256 + code.toNat⟩]))

/-- CRCW (R264). -/
def execCeCrcw (n : Fin 8) (c : BitVec 4) (d : BitVec 5) (a : BitVec 5) (code : BitVec 2) (s : State) : Host.Outcome State Fault Refusal :=
  s.run (live (ceCmd n [⟨5, c.toNat, 12, d.toNat * 8192 + a.toNat * 256 + code.toNat⟩]))

/-- MUL (R265). -/
def execCeMul (n : Fin 8) (c : BitVec 4) (d : BitVec 5) (a : BitVec 5) (b : BitVec 5) (f : Bool) (s : State) : Host.Outcome State Fault Refusal :=
  s.run (live (ceCmd n [⟨6, c.toNat, 0, d.toNat * 8192 + a.toNat * 256 + b.toNat * 8 + b2n f * 4⟩]))

/-- MULU (R265). -/
def execCeMulu (n : Fin 8) (c : BitVec 4) (d : BitVec 5) (a : BitVec 5) (b : BitVec 5) (f : Bool) (s : State) : Host.Outcome State Fault Refusal :=
  s.run (live (ceCmd n [⟨6, c.toNat, 1, d.toNat * 8192 + a.toNat * 256 + b.toNat * 8 + b2n f * 4⟩]))

/-- MAC (R265). -/
def execCeMac (n : Fin 8) (c : BitVec 4) (d : BitVec 5) (a : BitVec 5) (b : BitVec 5) (f : Bool) (s : State) : Host.Outcome State Fault Refusal :=
  s.run (live (ceCmd n [⟨6, c.toNat, 2, d.toNat * 8192 + a.toNat * 256 + b.toNat * 8 + b2n f * 4⟩]))

/-- MACS (R265). -/
def execCeMacs (n : Fin 8) (c : BitVec 4) (d : BitVec 5) (a : BitVec 5) (b : BitVec 5) (f : Bool) (s : State) : Host.Outcome State Fault Refusal :=
  s.run (live (ceCmd n [⟨6, c.toNat, 3, d.toNat * 8192 + a.toNat * 256 + b.toNat * 8 + b2n f * 4⟩]))

/-- MSU (R265). -/
def execCeMsu (n : Fin 8) (c : BitVec 4) (d : BitVec 5) (a : BitVec 5) (b : BitVec 5) (f : Bool) (s : State) : Host.Outcome State Fault Refusal :=
  s.run (live (ceCmd n [⟨6, c.toNat, 4, d.toNat * 8192 + a.toNat * 256 + b.toNat * 8 + b2n f * 4⟩]))

/-- MACU (R265). -/
def execCeMacu (n : Fin 8) (c : BitVec 4) (d : BitVec 5) (a : BitVec 5) (b : BitVec 5) (f : Bool) (s : State) : Host.Outcome State Fault Refusal :=
  s.run (live (ceCmd n [⟨6, c.toNat, 5, d.toNat * 8192 + a.toNat * 256 + b.toNat * 8 + b2n f * 4⟩]))

/-- MULQ (R265). -/
def execCeMulq (n : Fin 8) (c : BitVec 4) (d : BitVec 5) (a : BitVec 5) (b : BitVec 5) (f : Bool) (s : State) : Host.Outcome State Fault Refusal :=
  s.run (live (ceCmd n [⟨6, c.toNat, 6, d.toNat * 8192 + a.toNat * 256 + b.toNat * 8 + b2n f * 4⟩]))

end Sys2Proof.Machine
end

