-- ==== Sys2Proof/Machine/CmdChannel.lean ====
section
/-!
DEFINITION. Sys2Proof/Machine/CmdChannel.lean: Commands of the timer channels.
-/
namespace Sys2Proof.Machine

/-- ACTION_NOP (R159). -/
def execActionNop (n : Fin 256) (s : State) : Host.Outcome State Fault Refusal :=
  s.run (live (fireCmd n 0))

/-- SET_HIGH (R159). -/
def execSetHigh (n : Fin 256) (s : State) : Host.Outcome State Fault Refusal :=
  s.run (live (fireCmd n 1))

/-- SET_LOW (R159). -/
def execSetLow (n : Fin 256) (s : State) : Host.Outcome State Fault Refusal :=
  s.run (live (fireCmd n 2))

/-- TOGGLE (R159). -/
def execToggle (n : Fin 256) (s : State) : Host.Outcome State Fault Refusal :=
  s.run (live (fireCmd n 3))

/-- PULSE (R159). -/
def execPulse (n : Fin 256) (s : State) : Host.Outcome State Fault Refusal :=
  s.run (live (fireCmd n 4))

/-- TRAIN_START (R159). -/
def execTrainStart (n : Fin 256) (s : State) : Host.Outcome State Fault Refusal :=
  s.run (live (fireCmd n 5))

/-- TRAIN_STOP (R163). -/
def execTrainStop (n : Fin 256) (s : State) : Host.Outcome State Fault Refusal :=
  s.run (live (fireCmd n 6))

/-- CAPTURE_ARM (R166). -/
def execCaptureArm (n : Fin 256) (s : State) : Host.Outcome State Fault Refusal :=
  s.run (live (fireCmd n 7))

/-- CAPTURE_DISARM (R166). -/
def execCaptureDisarm (n : Fin 256) (s : State) : Host.Outcome State Fault Refusal :=
  s.run (live (fireCmd n 8))

/-- TRIG_ADC (R526). -/
def execTrigAdc (n : Fin 256) (s : State) : Host.Outcome State Fault Refusal :=
  s.run (live (fireCmd n 9))

/-- TRIG_DMA (R421). -/
def execTrigDma (n : Fin 256) (s : State) : Host.Outcome State Fault Refusal :=
  s.run (live (fireCmd n 10))

/-- SIGNAL_CE (R159). -/
def execSignalCe (n : Fin 256) (s : State) : Host.Outcome State Fault Refusal :=
  s.run (live (fireCmd n 11))

/-- RAISE_IRQ (R159). -/
def execRaiseIrq (n : Fin 256) (s : State) : Host.Outcome State Fault Refusal :=
  s.run (live (fireCmd n 12))

/-- GATE_OPEN (R202). -/
def execGateOpen (n : Fin 256) (s : State) : Host.Outcome State Fault Refusal :=
  s.run (live (fireCmd n 13))

/-- GATE_CLOSE (R202). -/
def execGateClose (n : Fin 256) (s : State) : Host.Outcome State Fault Refusal :=
  s.run (live (fireCmd n 14))

/-- MARK (R125). -/
def execMark (n : Fin 256) (s : State) : Host.Outcome State Fault Refusal :=
  s.run (live (fireCmd n 15))

/-- PULSE_RETURN (R161). -/
def execPulseReturn (n : Fin 256) (s : State) : Host.Outcome State Fault Refusal :=
  s.run (live (onInstant (fun d => (d.chAt n).ret.map dueOf) (pulseReturn n)))

/-- TRAIN_PULSE (R163). -/
def execTrainPulse (n : Fin 256) (s : State) : Host.Outcome State Fault Refusal :=
  s.run (live (onInstant (fun d => (d.trainNext n).map dueOf) (trainPulse n)))

/-- HEV_GO (R154). -/
def execHevGo (n : Fin 256) (s : State) : Host.Outcome State Fault Refusal :=
  s.run (onBus (hevGo n))

/-- FLUSH (R158). -/
def execFlush (n : Fin 256) (s : State) : Host.Outcome State Fault Refusal :=
  s.run (onBus (flushReq n))

/-- FIFO_CLEAR (R177). -/
def execFifoClear (n : Fin 256) (s : State) : Host.Outcome State Fault Refusal :=
  s.run (onBus (fifoClear n))

/-- CH_COUNT_CLEAR (R189). -/
def execChCountClear (n : Fin 256) (s : State) : Host.Outcome State Fault Refusal :=
  s.run (onBus (chCountClear n))

/-- CAPTURE_EDGE (R168). An edge that crosses the input at `t`, in 2^-16 ns of TAI. -/
def execCaptureEdge (n : Fin 256) (t : Nat) (rising : Bool) (s : State) : Host.Outcome State Fault Refusal :=
  s.run (live (captureCmd n t rising))

/-- MEAS_TIMEOUT (R167). -/
def execMeasTimeout (n : Fin 256) (s : State) : Host.Outcome State Fault Refusal :=
  s.run (live (onInstant (fun d => d.measEnd n) (measTimeout n)))

/-- STARVE (R179). The coming catch, when starvation begins at it. -/
def execStarve (n : Fin 256) (s : State) : Host.Outcome State Fault Refusal :=
  s.run (live (catchIf fun b e => !b.on (CH_STATUS_STARVED n) && e.on (CH_STATUS_STARVED n)))

/-- CALIBRATION (R172). -/
def execCalibration (n : Fin 256) (s : State) : Host.Outcome State Fault Refusal :=
  s.run (live (calibrate n))

/-- KA_PATTERN_EVENT (R186). -/
def execKaPatternEvent (n : Fin 256) (s : State) : Host.Outcome State Fault Refusal :=
  s.run (live (onInstant (fun d => (d.kaNext n).map fun e => e.1) (kaPattern n)))

/-- KA_END (R187). -/
def execKaEnd (n : Fin 256) (s : State) : Host.Outcome State Fault Refusal :=
  s.run (live (onInstant (fun d => d.kaLimit n) (kaEndEvent n)))

/-- SKW_GO (R508). Only FORERUNNER has the window (R506). -/
def execSkwGo (m : Master) (k : Fin 64) (s : State) : Host.Outcome State Fault Refusal :=
  s.run (onBus fun d => if d.mode = 4 then skwGo k d else unmapped m d)

/-- SKW_CTL_WRITE (R507). -/
def execSkwCtlWrite (m : Master) (k : Fin 64) (v : BitVec 32) (s : State) : Host.Outcome State Fault Refusal :=
  s.run (onBus fun d => if d.mode = 4 then skwCtl k v.toNat d else unmapped m d)

/-- CAP_LO_READ (R508). -/
def execCapLoRead (m : Master) (k : Fin 64) (s : State) : Host.Outcome State Fault Refusal :=
  s.run (give m (regRead m (0x160010 + 0x20 * k) 2))

/-- SKW_TIME_LO_READ (R508). -/
def execSkwTimeLoRead (m : Master) (s : State) : Host.Outcome State Fault Refusal :=
  s.run (give m (regRead m 0x160804 2))

/-- IRQ_VEC_READ (R507). -/
def execIrqVecRead (m : Master) (s : State) : Host.Outcome State Fault Refusal :=
  s.run (giveLate m (regRead m 0x160814 2))

/-- IRQ_DONE (R507). -/
def execIrqDone (m : Master) (s : State) : Host.Outcome State Fault Refusal :=
  s.run (onBus fun d => if d.mode = 4 then irqEoi 0 d else unmapped m d)

end Sys2Proof.Machine
end

