-- ==== Sys2Proof/Machine/CmdCox.lean ====
section
/-!
DEFINITION. Sys2Proof/Machine/CmdCox.lean: Commands of the Cox and its lists.
-/
namespace Sys2Proof.Machine

/-- COX_CONVERSION (R137). -/
def execCoxConversion (s : State) : Host.Outcome State Fault Refusal :=
  s.run (live (onInstant Dev.convAt coxTurn))

/-- REFILL_BURST (R131). -/
def execRefillBurst (s : State) : Host.Outcome State Fault Refusal :=
  s.run (live refillBurst)

/-- REFILL_RETURN (R131). `bad`: the burst of list `k` has an uncorrectable error. -/
def execRefillReturn (k : Fin 8) (bad : Bool) (s : State) : Host.Outcome State Fault Refusal :=
  s.run (live (refillReturn k bad))

/-- ARMED_LO_READ (R150). -/
def execArmedLoRead (m : Master) (s : State) : Host.Outcome State Fault Refusal :=
  s.run (give m (armedLoRead m))

/-- PERF_CLEAR (R150). -/
def execPerfClear (s : State) : Host.Outcome State Fault Refusal :=
  s.run (onBus perfClear)

end Sys2Proof.Machine
end

