-- ==== Sys2Proof/Machine/CmdCrew.lean ====
section
/-!
DEFINITION. Sys2Proof/Machine/CmdCrew.lean: Commands of the crew link.
-/
namespace Sys2Proof.Machine

/-- TIMING (R325). -/
def execTiming (h : Hdr) (x : TimingMsg) (s : State) : Host.Outcome State Fault Refusal :=
  s.run (live fun d => timingFrame h x (passTo (x.arrive / 65536) d))

/-- SD_UP (R337). `recs`: crew ID and words of each record. -/
def execSdUp (h : Hdr) (recs : List (Nat × List Nat)) (s : State) : Host.Outcome State Fault Refusal :=
  s.run (live (sdUp h recs))

/-- SD_DOWN (R338). `stale`: one bit per crew ID. -/
def execSdDown (h : Hdr) (slots : List (Nat × List Nat)) (stale : Nat) (s : State) : Host.Outcome State Fault Refusal :=
  s.run (live (sdDown h slots stale))

/-- ROLL_POLL (R329). -/
def execRollPoll (h : Hdr) (epoch : Nat) (round : Nat) (s : State) : Host.Outcome State Fault Refusal :=
  s.run (live (rollPoll h epoch round))

/-- ROLL_REPLY (R331). -/
def execRollReply (h : Hdr) (x : ReplyMsg) (s : State) : Host.Outcome State Fault Refusal :=
  s.run (live (rollReply h x))

/-- ROLL_RESULT (R329). -/
def execRollResult (h : Hdr) (x : ResultMsg) (s : State) : Host.Outcome State Fault Refusal :=
  s.run (live (rollResult h x))

/-- ROLL_REQ (R329). -/
def execRollReq (h : Hdr) (s : State) : Host.Outcome State Fault Refusal :=
  s.run (live (rollReqFrame h))

/-- ROLL_CALL_ROUND (R329). The coming catch, when the lead's roll call acts at it. -/
def execRollCallRound (s : State) : Host.Outcome State Fault Refusal :=
  s.run (live (atCatch Dev.rollRoundDue))

/-- ROLL_CALL_COMPLETE (R332). The coming catch, when a roll call completes at it. -/
def execRollCallComplete (s : State) : Host.Outcome State Fault Refusal :=
  s.run (live (atCatch Dev.rollDue))

/-- CC_BEGIN (R341). -/
def execCcBegin (h : Hdr) (s : State) : Host.Outcome State Fault Refusal :=
  s.run (live (ccBeginFrame h))

/-- CC_PREPARE (R343). `at_`: device time of catch a, in ns. -/
def execCcPrepare (h : Hdr) (at_ : Nat) (s : State) : Host.Outcome State Fault Refusal :=
  s.run (live (ccPrepareFrame h at_))

/-- CC_VOTE (R343). -/
def execCcVote (h : Hdr) (prepared : Bool) (s : State) : Host.Outcome State Fault Refusal :=
  s.run (live (ccVoteFrame h prepared))

/-- CC_DECIDE (R345). -/
def execCcDecide (h : Hdr) (go : Bool) (s : State) : Host.Outcome State Fault Refusal :=
  s.run (live (ccDecideFrame h go))

/-- CC_CTRL_BEGIN (R341). -/
def execCcCtrlBegin (m : Master) (s : State) : Host.Outcome State Fault Refusal :=
  s.run (onBus (ccBegin m))

/-- CC_DECISION (R344). The coming catch, when the lead decides at it. -/
def execCcDecision (s : State) : Host.Outcome State Fault Refusal :=
  s.run (live (atCatch Dev.decisionDue))

/-- RA_GO (R340). -/
def execRaGo (s : State) : Host.Outcome State Fault Refusal :=
  s.run (onBus raGo)

/-- RA_REQ (R340). `ct` names a crew transaction, 0 for none. -/
def execRaReq (h : Hdr) (addr : BitVec 32) (v : BitVec 32) (write : Bool) (ct : BitVec 16) (s : State) : Host.Outcome State Fault Refusal :=
  s.run (live (raRequest h addr.toNat v.toNat write ct.toNat))

/-- RA_RESP (R340). -/
def execRaResp (h : Hdr) (result : BitVec 4) (v : BitVec 32) (s : State) : Host.Outcome State Fault Refusal :=
  s.run (live (raResponse h result.toNat v.toNat))

/-- RA_TIMEOUT (R340). The coming catch, when the 64 strokes have passed at it. -/
def execRaTimeout (s : State) : Host.Outcome State Fault Refusal :=
  s.run (live (atCatch Dev.raTimeoutDue))

/-- DB_TX_GO (R347). -/
def execDbTxGo (s : State) : Host.Outcome State Fault Refusal :=
  s.run (onBus dbTx)

/-- DOORBELL (R347). -/
def execDoorbell (h : Hdr) (idx : BitVec 6) (datum : BitVec 32) (s : State) : Host.Outcome State Fault Refusal :=
  s.run (live (doorbellFrame h idx.toNat datum.toNat))

/-- KEY_INIT (R320). -/
def execKeyInit (h : Hdr) (nonce : Nat) (s : State) : Host.Outcome State Fault Refusal :=
  s.run (live (keyInit h nonce))

/-- KEY_CONF (R320). -/
def execKeyConf (h : Hdr) (s : State) : Host.Outcome State Fault Refusal :=
  s.run (live (keyConf h))

/-- REKEY (R320). -/
def execRekey (s : State) : Host.Outcome State Fault Refusal :=
  s.run (onBus rekey)

/-- REKEY_TIMER (R320). -/
def execRekeyTimer (k : Fin 4) (s : State) : Host.Outcome State Fault Refusal :=
  s.run (live (onInstant (fun d => d.rekeyAt k) (rekeyTimer k)))

/-- PORT_BLOCK_LOCK (R319). -/
def execPortBlockLock (k : Fin 4) (gained : Bool) (s : State) : Host.Outcome State Fault Refusal :=
  s.run (live (blockLock k gained))

/-- TIMING_LOSS (R319). The coming catch, when port `k` goes DOWN at it. -/
def execTimingLoss (k : Fin 4) (s : State) : Host.Outcome State Fault Refusal :=
  s.run (live (catchIf fun b e => decide (2 ≤ b.pstate k) && e.pstate k == 0))

/-- ELECTION_END (R328). The coming catch, when the election ends at it. -/
def execElectionEnd (s : State) : Host.Outcome State Fault Refusal :=
  s.run (live (catchIf fun b e => b.get CREW_STATUS_ROLE == 3 && e.get CREW_STATUS_ROLE != 3))

/-- ROLLCALL (R329). -/
def execRollcall (s : State) : Host.Outcome State Fault Refusal :=
  s.run (onBus rollRequest)

/-- RAISE_LEVEL (R334). -/
def execRaiseLevel (s : State) : Host.Outcome State Fault Refusal :=
  s.run (onBus raiseLevel)

/-- CREW_QUALIFY (R326). -/
def execCrewQualify (s : State) : Host.Outcome State Fault Refusal :=
  s.run (live (onInstant (fun d => d.crew.qualEnd) crewQualify))

/-- LEAD_SER_LO_READ (R348). -/
def execLeadSerLoRead (m : Master) (s : State) : Host.Outcome State Fault Refusal :=
  s.run (give m (leadSerLoRead m))

/-- FRAME_OF_OTHER_TYPE (R322). -/
def execFrameOfOtherType (h : Hdr) (s : State) : Host.Outcome State Fault Refusal :=
  s.run (live (otherFrame h))

end Sys2Proof.Machine
end

