-- ==== Sys2Proof/Machine/CmdDma.lean ====
section
/-!
DEFINITION. Sys2Proof/Machine/CmdDma.lean: Commands of the DMA engine and the check-value units.
-/
namespace Sys2Proof.Machine

/-- DMA_START (R415). -/
def execDmaStart (c : Fin 16) (s : State) : Host.Outcome State Fault Refusal :=
  s.run (onBus (dmaStart c))

/-- DMA_STOP (R415). -/
def execDmaStop (c : Fin 16) (s : State) : Host.Outcome State Fault Refusal :=
  s.run (onBus (dmaStop c))

/-- DMA_COUNT_CLEAR (R432). -/
def execDmaCountClear (c : Fin 16) (s : State) : Host.Outcome State Fault Refusal :=
  s.run (onBus (dmaCountClear c))

/-- DESCRIPTOR_FETCH (R414). `bad`: the read has an uncorrectable error. -/
def execDescriptorFetch (c : Fin 16) (bad : Bool) (s : State) : Host.Outcome State Fault Refusal :=
  s.run (live (descCmd c bad))

/-- BURST (R416). -/
def execBurst (s : State) : Host.Outcome State Fault Refusal :=
  s.run burstCmd

/-- BURST_READ_RETURN (R417). `kind`: the error that the reads found at `addr`, 0 none, 1 correctable, 2 uncorrectable. -/
def execBurstReadReturn (c : Fin 16) (kind : Fin 3) (addr : BitVec 32) (s : State) : Host.Outcome State Fault Refusal :=
  s.run (live (burstReadCmd c kind addr.toNat))

/-- DESCRIPTOR_COMPLETE (R424). -/
def execDescriptorComplete (c : Fin 16) (s : State) : Host.Outcome State Fault Refusal :=
  s.run (live (descEndCmd c))

/-- LATE_RESPONSE (R425). -/
def execLateResponse (c : Fin 16) (s : State) : Host.Outcome State Fault Refusal :=
  s.run (live (lateResponse c))

/-- CHK_INIT (R428). -/
def execChkInit (n : Fin 4) (s : State) : Host.Outcome State Fault Refusal :=
  s.run (onBus (chkInit n))

/-- CHK_GO (R428). -/
def execChkGo (n : Fin 4) (s : State) : Host.Outcome State Fault Refusal :=
  s.run (onBus (chkGo n))

/-- SCAN_DONE (R428). `err`: the word whose uncorrectable error ends the scan. -/
def execScanDone (n : Fin 4) (err : Option (BitVec 32)) (s : State) : Host.Outcome State Fault Refusal :=
  s.run (live (scanCmd n (err.map fun x => x.toNat)))

end Sys2Proof.Machine
end

