-- ==== Sys2Proof/Machine/CmdEngine.lean ====
section
/-!
DEFINITION. Sys2Proof/Machine/CmdEngine.lean: Commands of the control engines, their instructions apart.
-/
namespace Sys2Proof.Machine

/-- CE_START (R208). The coming catch, when engine `n` starts at it. -/
def execCeStart (n : Fin 8) (s : State) : Host.Outcome State Fault Refusal :=
  s.run (live (catchIf fun b e => (b.get (CE_STATUS_RUN n) == 0 || b.get (CE_STATUS_RUN n) == 6) && e.get (CE_STATUS_RUN n) == 1))

/-- WHEEL_ACCESS_COMPLETE (R43). -/
def execWheelAccessComplete (n : Fin 8) (s : State) : Host.Outcome State Fault Refusal :=
  s.run (live (wheelCmd n))

/-- INTERRUPT_ENTRY (R235). -/
def execInterruptEntry (n : Fin 8) (s : State) : Host.Outcome State Fault Refusal :=
  s.run (live fun d => onInstant (fun d => d.irqFetchAt n) (interruptEntry n) (ceWatch n d))

/-- WAIT_WAKE (R237). -/
def execWaitWake (n : Fin 8) (s : State) : Host.Outcome State Fault Refusal :=
  s.run (live fun d => onInstant (fun d => d.wakeUpAt n) (waitWake n) (ceWatch n d))

/-- HALT (R238). -/
def execHalt (n : Fin 8) (s : State) : Host.Outcome State Fault Refusal :=
  s.run (onBus (ceDoHalt n))

/-- RESUME (R238). -/
def execResume (n : Fin 8) (s : State) : Host.Outcome State Fault Refusal :=
  s.run (onBus (ceResume n))

/-- STEP (R238). -/
def execCeStep (n : Fin 8) (s : State) : Host.Outcome State Fault Refusal :=
  s.run (onBus (ceStep n))

/-- XREG_WRITE (R238). Register `i` of engine `n`. -/
def execXregWrite (n : Fin 8) (i : Fin 256) (v : BitVec 32) (s : State) : Host.Outcome State Fault Refusal :=
  s.run (onBus (xregWrite n i (v.toNat % 65536)))

/-- SPEC_WRITE (R238). Special register `j` of engine `n`. -/
def execSpecWrite (n : Fin 8) (j : Fin 32) (v : BitVec 32) (s : State) : Host.Outcome State Fault Refusal :=
  s.run (onBus (specWrite n j v.toNat))

/-- RUNMAX_CLEAR (R239). -/
def execRunmaxClear (n : Fin 8) (s : State) : Host.Outcome State Fault Refusal :=
  s.run (onBus (runmaxClear n))

end Sys2Proof.Machine
end

