-- ==== Sys2Proof/Machine/CmdEth.lean ====
section
/-!
DEFINITION. Sys2Proof/Machine/CmdEth.lean: Commands of Ethernet and PTP.
-/
namespace Sys2Proof.Machine

/-- ETH_LINK_CHANGE (R349). `rxclk`: block lock holds although the link is down. -/
def execEthLinkChange (n : Fin 4) (up : Bool) (rxclk : Bool) (s : State) : Host.Outcome State Fault Refusal :=
  s.run (live (linkChange n up rxclk))

/-- ETH_RETRAIN (R349). -/
def execEthRetrain (n : Fin 4) (s : State) : Host.Outcome State Fault Refusal :=
  s.run (onBus (ethRetrain n))

/-- PTP_SYNC_RX (R356). `t1`, `cs`: origin time and correction, in 2^-16 ns. -/
def execPtpSyncRx (h : PtpHdr) (t1 : Nat) (cs : Int) (twoStep : Bool) (s : State) : Host.Outcome State Fault Refusal :=
  s.run (live fun d => ptpSync h t1 cs twoStep (passTo (h.mii / 65536) d))

/-- PTP_FOLLOW_UP_RX (R364). -/
def execPtpFollowUpRx (h : PtpHdr) (t1 : Nat) (cs : Int) (s : State) : Host.Outcome State Fault Refusal :=
  s.run (live fun d => ptpFollowUp h t1 cs (passTo (h.mii / 65536) d))

/-- PTP_DELAY_REQ_RX (R353). -/
def execPtpDelayReqRx (h : PtpHdr) (s : State) : Host.Outcome State Fault Refusal :=
  s.run (live fun d => ptpDelayReq h (passTo (h.mii / 65536) d))

/-- PTP_DELAY_RESP_RX (R356). -/
def execPtpDelayRespRx (h : PtpHdr) (t4 : Nat) (cd : Int) (s : State) : Host.Outcome State Fault Refusal :=
  s.run (live fun d => ptpDelayResp h t4 cd (passTo (h.mii / 65536) d))

/-- PTP_ANNOUNCE_RX (R353). -/
def execPtpAnnounceRx (h : PtpHdr) (x : AnnMsg) (s : State) : Host.Outcome State Fault Refusal :=
  s.run (live fun d => ptpAnnounce h x (passTo (h.mii / 65536) d))

/-- PTP_SIGNALING_RX (R353). -/
def execPtpSignalingRx (h : PtpHdr) (s : State) : Host.Outcome State Fault Refusal :=
  s.run (live fun d => ptpSignaling h (passTo (h.mii / 65536) d))

/-- PDELAY_RX (R353). -/
def execPdelayRx (h : PtpHdr) (s : State) : Host.Outcome State Fault Refusal :=
  s.run (live fun d => ptpPdelay h (passTo (h.mii / 65536) d))

/-- ESMC_PDU_RX (R368). -/
def execEsmcPduRx (n : Fin 4) (ssm : BitVec 4) (essm : Option (BitVec 8)) (s : State) : Host.Outcome State Fault Refusal :=
  s.run (live (esmcRx n ssm.toNat (essm.map fun x => x.toNat)))

/-- HOST_FRAME_RX (R369). -/
def execHostFrameRx (n : Fin 4) (bytes : List Nat) (s : State) : Host.Outcome State Fault Refusal :=
  s.run (live (hostFrame n bytes))

/-- SYNC_LAUNCH (R354). The coming catch, when port `n` launches a Sync at it. -/
def execSyncLaunch (n : Fin 4) (s : State) : Host.Outcome State Fault Refusal :=
  s.run (live (atCatch fun d => d.syncDue n))

/-- DELAY_REQ_LAUNCH (R356). `mii`: the instant at the MII, in 2^-16 ns. -/
def execDelayReqLaunch (n : Fin 4) (mii : Nat) (s : State) : Host.Outcome State Fault Refusal :=
  s.run (live fun d => delayReqLaunch n mii (passTo (mii / 65536) d))

/-- ANNOUNCE_LAUNCH (R361). The coming catch, when port `n` sends an Announce at it. -/
def execAnnounceLaunch (n : Fin 4) (s : State) : Host.Outcome State Fault Refusal :=
  s.run (live (atCatch fun d => d.annDue n))

/-- ANNOUNCE_TIMEOUT (R353). -/
def execAnnounceTimeout (n : Fin 4) (s : State) : Host.Outcome State Fault Refusal :=
  s.run (live (onInstant (fun d => d.annLimit n) (announceTimeout n)))

/-- ESMC_INFO_PDU (R368). The coming catch, when port `n` sends one at it. -/
def execEsmcInfoPdu (n : Fin 4) (s : State) : Host.Outcome State Fault Refusal :=
  s.run (live (atCatch fun d => d.infoDue n))

/-- ESMC_TIMEOUT (R368). -/
def execEsmcTimeout (n : Fin 4) (s : State) : Host.Outcome State Fault Refusal :=
  s.run (live (onInstant (fun d => d.esmcLimit n) (esmcTimeout n)))

/-- PTP_MEASUREMENT_TOOTH (R357). The coming catch, when port `n` presents a revolution at it. -/
def execPtpMeasurementTooth (n : Fin 4) (s : State) : Host.Outcome State Fault Refusal :=
  s.run (live (atCatch fun d => d.measAtCatch n))

/-- PARENT_LO_READ (R371). -/
def execParentLoRead (m : Master) (n : Fin 4) (s : State) : Host.Outcome State Fault Refusal :=
  s.run (give m (parentLoRead m n))

/-- CLK_ID_LO_READ (R371). -/
def execClkIdLoRead (m : Master) (s : State) : Host.Outcome State Fault Refusal :=
  s.run (give m (clkIdLoRead m))

/-- HOST_FRAME_SENT (R419). -/
def execHostFrameSent (n : Fin 4) (s : State) : Host.Outcome State Fault Refusal :=
  s.run (live (hostFrameSent n))

end Sys2Proof.Machine
end

