-- ==== Sys2Proof/Machine/CmdHost.lean ====
section
/-!
DEFINITION. Sys2Proof/Machine/CmdHost.lean: Commands of the host interfaces.
-/
namespace Sys2Proof.Machine

/-- PCIE_POSTED_WRITE (R452). -/
def execPciePostedWrite (addr : BitVec 32) (bytes : List Nat) (s : State) : Host.Outcome State Fault Refusal :=
  s.run (live (pcieWrite addr.toNat bytes))

/-- PCIE_READ_REQUEST (R452). -/
def execPcieReadRequest (addr : BitVec 32) (bytes : Nat) (tag : BitVec 16) (s : State) : Host.Outcome State Fault Refusal :=
  s.run (live (pcieRead addr.toNat bytes tag.toNat))

/-- PCIE_COMPLETION (R551). -/
def execPcieCompletion (s : State) : Host.Outcome State Fault Refusal :=
  s.run (live pcieCompletion)

/-- PERST_N (R455). -/
def execPerstLow (s : State) : Host.Outcome State Fault Refusal :=
  s.run perstLow

/-- HOT_RESET (R455). -/
def execHotReset (s : State) : Host.Outcome State Fault Refusal :=
  s.run (live pcieReset)

/-- FUNCTION_LEVEL_RESET (R455). -/
def execFunctionLevelReset (s : State) : Host.Outcome State Fault Refusal :=
  s.run (live funcReset)

/-- SPI_WRITE (R458). `part`: a further word has begun. -/
def execSpiWrite (addr : BitVec 32) (words : List (BitVec 32)) (part : Bool) (s : State) : Host.Outcome State Fault Refusal :=
  s.run (live (spiWrite addr.toNat (words.map fun x => x.toNat) part))

/-- SPI_READ (R459). Bit k of `late`: word k is not back in time; of `bad`: it meets an uncorrectable error. -/
def execSpiRead (addr : BitVec 32) (words : BitVec 8) (late : Nat) (bad : Nat) (s : State) : Host.Outcome State Fault Refusal :=
  s.run (live (spiRead addr.toNat words.toNat late bad))

/-- SPI_CS_RISE (R458). -/
def execSpiCsRise (s : State) : Host.Outcome State Fault Refusal :=
  s.run (live spiCsRise)

/-- I2C_WRITE (R462). -/
def execI2cWrite (addr : BitVec 32) (v : BitVec 32) (pec : Option (BitVec 8)) (s : State) : Host.Outcome State Fault Refusal :=
  s.run (live (i2cWrite addr.toNat v.toNat (pec.map fun x => x.toNat)))

/-- I2C_READ (R461). -/
def execI2cRead (addr : BitVec 32) (bad : Bool) (s : State) : Host.Outcome State Fault Refusal :=
  s.run (live (i2cRead addr.toNat bad))

/-- I2C_TIMEOUT (R463). -/
def execI2cTimeout (s : State) : Host.Outcome State Fault Refusal :=
  s.run (live i2cTimeout)

/-- QSPI_GO (R465). -/
def execQspiGo (s : State) : Host.Outcome State Fault Refusal :=
  s.run (onBus qspiGo)

/-- QSPI_DONE (R465). `bytes`: what a read returned. -/
def execQspiDone (bytes : List Nat) (s : State) : Host.Outcome State Fault Refusal :=
  s.run (live (qspiDone bytes))

/-- UART_DATA_WRITE (R466). -/
def execUartDataWrite (v : BitVec 8) (s : State) : Host.Outcome State Fault Refusal :=
  s.run (onBus (uartWrite v.toNat))

/-- UART_DATA_READ (R466). -/
def execUartDataRead (m : Master) (s : State) : Host.Outcome State Fault Refusal :=
  s.run (give m uartRead)

/-- UART_RX_BYTE (R466). -/
def execUartRxByte (v : BitVec 8) (s : State) : Host.Outcome State Fault Refusal :=
  s.run (live (uartRxByte v.toNat))

/-- PERST_N_RISE (R503). -/
def execPerstRise (s : State) : Host.Outcome State Fault Refusal :=
  s.run perstRise

/-- PCIE_LINK_STATE_CHANGE (R456). -/
def execPcieLinkStateChange (up : Bool) (speed : BitVec 4) (width : BitVec 4) (l1 : Bool) (s : State) : Host.Outcome State Fault Refusal :=
  s.run (live (pcieLink up speed.toNat width.toNat l1))

/-- PCIE_CONFIG_WRITE (R454). -/
def execPcieConfigWrite (bme : Bool) (msixEn : Bool) (mask : Bool) (s : State) : Host.Outcome State Fault Refusal :=
  s.run (live (pcieConfig bme msixEn mask))

/-- UART_BYTE_SENT (R466). -/
def execUartByteSent (s : State) : Host.Outcome State Fault Refusal :=
  s.run (live uartSent)

end Sys2Proof.Machine
end

