-- ==== Sys2Proof/Machine/CmdIrq.lean ====
section
/-!
DEFINITION. Sys2Proof/Machine/CmdIrq.lean: Commands of the interrupt controller.
-/
namespace Sys2Proof.Machine

/-- SOURCE_PENDING (R396). -/
def execSourcePending (n : Fin 1024) (s : State) : Host.Outcome State Fault Refusal :=
  s.run (sourceCmd n)

/-- ACK (R399). A read of the ACK register of target `t`. -/
def execAck (m : Master) (t : Fin 11) (s : State) : Host.Outcome State Fault Refusal :=
  s.run (onBus (irqAck m t))

/-- EOI (R401). -/
def execEoi (t : Fin 11) (s : State) : Host.Outcome State Fault Refusal :=
  s.run (onBus (irqEoi t))

/-- PEND_CLEAR (R396). -/
def execPendClear (i : Fin 32) (v : BitVec 32) (s : State) : Host.Outcome State Fault Refusal :=
  s.run (onBus (pendClear i v.toNat))

/-- DB_RING (R405). -/
def execDbRing (m : Master) (idx : BitVec 6) (datum : BitVec 32) (s : State) : Host.Outcome State Fault Refusal :=
  s.run (onBus (dbRing m idx.toNat datum.toNat))

/-- MSIX_MESSAGE (R402). -/
def execMsixMessage (s : State) : Host.Outcome State Fault Refusal :=
  s.run (live (onInstant (fun d => (d.irq.msi.head?).map fun x => x.1) msixMessage))

/-- VCTRL_WRITE (R454). -/
def execVctrlWrite (v : Fin 32) (mask : Bool) (s : State) : Host.Outcome State Fault Refusal :=
  s.run (onBus (vctrlWrite v mask))

end Sys2Proof.Machine
end

