-- ==== Sys2Proof/Machine/CmdKeel.lean ====
section
/-!
DEFINITION. Sys2Proof/Machine/CmdKeel.lean: Commands of the Keel controller.
-/
namespace Sys2Proof.Machine

/-- WATCHDOG (R376). The service, its micro-PC and the frames of the micro-stack in use. -/
def execWatchdog (svc : KeelSvc) (upc : BitVec 17) (frames : Nat) (s : State) : Host.Outcome State Fault Refusal :=
  s.run (live (watchdog svc upc.toNat frames))

/-- PATCH_LOAD (R387). -/
def execPatchLoad (s : State) : Host.Outcome State Fault Refusal :=
  s.run (onBus patchLoad)

/-- PATCH_VERIFY_DONE (R388). Whether the vendor's signature verifies, and `sigOk` of its end the endorsement. -/
def execPatchVerifyDone (vendorOk : Bool) (load : LoadEnd) (s : State) : Host.Outcome State Fault Refusal :=
  s.run (keelCmd .patchLoad (loadEnd .patchLoad load (patchVerifyDone vendorOk load.sigOk)))

/-- INSTALL (R389). -/
def execInstall (s : State) : Host.Outcome State Fault Refusal :=
  s.run (onBus patchInstallCmd)

/-- PATCH_ACCEPT (R390). -/
def execPatchAccept (s : State) : Host.Outcome State Fault Refusal :=
  s.run (onBus patchAccept)

/-- PATCH_CLEAR (R388). -/
def execPatchClear (s : State) : Host.Outcome State Fault Refusal :=
  s.run (onBus patchClear)

/-- PRAM_ADDR_WRITE (R384). -/
def execPramAddrWrite (v : BitVec 32) (s : State) : Host.Outcome State Fault Refusal :=
  s.run (onBus (pramAddrWrite v.toNat))

/-- PEAK_CLEAR (R393). -/
def execPeakClear (s : State) : Host.Outcome State Fault Refusal :=
  s.run (onBus peakClear)

/-- STACK_CLR (R393). -/
def execStackClr (s : State) : Host.Outcome State Fault Refusal :=
  s.run (onBus stackClr)

end Sys2Proof.Machine
end

