-- ==== Sys2Proof/Machine/CmdMem.lean ====
section
/-!
DEFINITION. Sys2Proof/Machine/CmdMem.lean: Commands of the memory.
-/
namespace Sys2Proof.Machine

/-- ECC_WRITEBACK (R438). The TCLK in which a corrected word of bank `k` is written back. -/
def execEccWriteback (k : Fin 12) (s : State) : Host.Outcome State Fault Refusal :=
  s.run (live (writebackCmd k))

/-- SCRUB (R439). `errs`: the banks whose word has an error, with its kind. -/
def execScrub (errs : List (Nat × Nat)) (s : State) : Host.Outcome State Fault Refusal :=
  s.run (live (onInstant Dev.scrubNext (scrub errs)))

/-- DRAM_TRAIN (R441). -/
def execDramTrain (s : State) : Host.Outcome State Fault Refusal :=
  s.run (onBus dramTrain)

/-- DRAM_TRAINING_DONE (R441). -/
def execDramTrainingDone (s : State) : Host.Outcome State Fault Refusal :=
  s.run (live dramTrained)

/-- MR4_SAMPLE (R442). `above`: the device asks for more than the nominal refresh rate. -/
def execMr4Sample (above : Bool) (s : State) : Host.Outcome State Fault Refusal :=
  s.run (live (mr4Sample above))

/-- ZQ_CALIBRATION (R442). No state that the spec names changes. -/
def execZqCalibration (s : State) : Host.Outcome State Fault Refusal :=
  s.run (live fun d => d)

/-- DRAM_ACCESS_COMPLETE (R443). `kind` is the error that its read meets. -/
def execDramAccessComplete (kind : Fin 3) (s : State) : Host.Outcome State Fault Refusal :=
  s.run (live (dramComplete kind))

/-- MAXLAT_CLEAR (R443). -/
def execMaxlatClear (s : State) : Host.Outcome State Fault Refusal :=
  s.run (onBus fun d => d.set MEM_DRAM_STAT_MAXLAT_NS 0)

/-- DRAM_REFRESH (R442). No state that the spec names changes. -/
def execDramRefresh (s : State) : Host.Outcome State Fault Refusal :=
  s.run (live fun d => d)

end Sys2Proof.Machine
end

