-- ==== Sys2Proof/Machine/CmdPin.lean ====
section
/-!
DEFINITION. Sys2Proof/Machine/CmdPin.lean: Commands of the pin engines.
-/
namespace Sys2Proof.Machine

/-- PE_START (R273). The coming catch, when engine `n` starts at it. -/
def execPeStart (n : Fin 32) (s : State) : Host.Outcome State Fault Refusal :=
  s.run (live (catchIf fun b e => (b.get (PE_STATUS_RUN n) == 0 || b.get (PE_STATUS_RUN n) == 3) && e.get (PE_STATUS_RUN n) == 1))

/-- BR (R276). -/
def execPeBr (n : Fin 32) (ofs : BitVec 8) (side : BitVec 2) (pins : BitVec 160) (cond : BitVec 4) (target : BitVec 6) (s : State) : Host.Outcome State Fault Refusal :=
  s.run (live (peCmd n (peWord ofs.toNat 0 side.toNat (cond.toNat * 64 + target.toNat)) pins.toNat))

/-- HOLD (R275). -/
def execPeHold (n : Fin 32) (ofs : BitVec 8) (side : BitVec 2) (pins : BitVec 160) (lvl : Bool) (src : BitVec 3) (index : BitVec 5) (s : State) : Host.Outcome State Fault Refusal :=
  s.run (live (peCmd n (peWord ofs.toNat 1 side.toNat (b2n lvl * 512 + src.toNat * 64 + index.toNat)) pins.toNat))

/-- SEND (R278). -/
def execPeSend (n : Fin 32) (ofs : BitVec 8) (side : BitVec 2) (pins : BitVec 160) (dst : BitVec 2) (count : BitVec 6) (s : State) : Host.Outcome State Fault Refusal :=
  s.run (live (peCmd n (peWord ofs.toNat 2 side.toNat (dst.toNat * 256 + count.toNat)) pins.toNat))

/-- TAKE (R278). -/
def execPeTake (n : Fin 32) (ofs : BitVec 8) (side : BitVec 2) (pins : BitVec 160) (src : BitVec 2) (count : BitVec 6) (s : State) : Host.Outcome State Fault Refusal :=
  s.run (live (peCmd n (peWord ofs.toNat 3 side.toNat (src.toNat * 256 + count.toNat)) pins.toNat))

/-- PE_LOAD (R275). -/
def execPeLoad (n : Fin 32) (ofs : BitVec 8) (side : BitVec 2) (pins : BitVec 160) (wait : Bool) (ifex : Bool) (s : State) : Host.Outcome State Fault Refusal :=
  s.run (live (peCmd n (peWord ofs.toNat 4 side.toNat (b2n wait * 512 + b2n ifex * 256)) pins.toNat))

/-- PE_STORE (R275). -/
def execPeStore (n : Fin 32) (ofs : BitVec 8) (side : BitVec 2) (pins : BitVec 160) (wait : Bool) (ifword : Bool) (s : State) : Host.Outcome State Fault Refusal :=
  s.run (live (peCmd n (peWord ofs.toNat 5 side.toNat (b2n wait * 512 + b2n ifword * 256)) pins.toNat))

/-- PUT (R275). -/
def execPePut (n : Fin 32) (ofs : BitVec 8) (side : BitVec 2) (pins : BitVec 160) (dst : BitVec 2) (imm : BitVec 8) (s : State) : Host.Outcome State Fault Refusal :=
  s.run (live (peCmd n (peWord ofs.toNat 6 side.toNat (dst.toNat * 256 + imm.toNat)) pins.toNat))

/-- LDC (R275). -/
def execPeLdc (n : Fin 32) (ofs : BitVec 8) (side : BitVec 2) (pins : BitVec 160) (y : Bool) (tsh : Bool) (imm : BitVec 8) (s : State) : Host.Outcome State Fault Refusal :=
  s.run (live (peCmd n (peWord ofs.toNat 7 side.toNat (b2n y * 512 + b2n tsh * 256 + imm.toNat)) pins.toNat))

/-- SYNC (R272). -/
def execPeSync (n : Fin 32) (ofs : BitVec 8) (side : BitVec 2) (pins : BitVec 160) (anchor : BitVec 2) (s : State) : Host.Outcome State Fault Refusal :=
  s.run (live (peCmd n (peWord ofs.toNat 8 side.toNat (anchor.toNat * 256)) pins.toNat))

/-- FLAG_SET (R275). -/
def execPeFlagSet (n : Fin 32) (ofs : BitVec 8) (side : BitVec 2) (pins : BitVec 160) (flag : BitVec 3) (s : State) : Host.Outcome State Fault Refusal :=
  s.run (live (peCmd n (peWord ofs.toNat 9 side.toNat flag.toNat) pins.toNat))

/-- FLAG_CLEAR (R275). -/
def execPeFlagClear (n : Fin 32) (ofs : BitVec 8) (side : BitVec 2) (pins : BitVec 160) (flag : BitVec 3) (s : State) : Host.Outcome State Fault Refusal :=
  s.run (live (peCmd n (peWord ofs.toNat 9 side.toNat (256 + flag.toNat)) pins.toNat))

/-- FLAG_SIGNAL (R275). -/
def execPeFlagSignal (n : Fin 32) (ofs : BitVec 8) (side : BitVec 2) (pins : BitVec 160) (flag : BitVec 3) (s : State) : Host.Outcome State Fault Refusal :=
  s.run (live (peCmd n (peWord ofs.toNat 9 side.toNat (512 + flag.toNat)) pins.toNat))

/-- FLAG_WAIT (R287). -/
def execPeFlagWait (n : Fin 32) (ofs : BitVec 8) (side : BitVec 2) (pins : BitVec 160) (flag : BitVec 3) (s : State) : Host.Outcome State Fault Refusal :=
  s.run (live (peCmd n (peWord ofs.toNat 9 side.toNat (768 + flag.toNat)) pins.toNat))

/-- XFER (R275). -/
def execPeXfer (n : Fin 32) (ofs : BitVec 8) (side : BitVec 2) (pins : BitVec 160) (dst : BitVec 3) (cpl : Bool) (src : BitVec 3) (s : State) : Host.Outcome State Fault Refusal :=
  s.run (live (peCmd n (peWord ofs.toNat 10 side.toNat (dst.toNat * 128 + b2n cpl * 64 + src.toNat * 8)) pins.toNat))

/-- PE_UNSTALL (R271). `pins` are the levels that the synchronisers took. -/
def execPeUnstall (n : Fin 32) (pins : BitVec 160) (s : State) : Host.Outcome State Fault Refusal :=
  s.run (live (onInstant (fun d => d.peTestAt n) (peUnstall n pins.toNat)))

/-- IDLE_FLUSH (R283). The coming catch, when it flushes the partial word of engine `n`. -/
def execIdleFlush (n : Fin 32) (s : State) : Host.Outcome State Fault Refusal :=
  s.run (live (atCatch fun d => d.idleDue n))

/-- TXQ_PUSH (R281). -/
def execTxqPush (n : Fin 32) (v : BitVec 32) (s : State) : Host.Outcome State Fault Refusal :=
  s.run (onBus fun d => txqPush n v.toNat (peFirst n d))

/-- RXQ_POP (R281). -/
def execRxqPop (m : Master) (n : Fin 32) (s : State) : Host.Outcome State Fault Refusal :=
  s.run (onBus fun d => rxqRead m n (peFirst n d))

/-- GFLAGS_WRITE (R287). A write at the block of engine `n`, to the flags of its group. -/
def execGflagsWrite (n : Fin 32) (v : BitVec 8) (s : State) : Host.Outcome State Fault Refusal :=
  s.run (onBus (gflagsWrite n v.toNat))

/-- PE_RESTART (R273). -/
def execPeRestart (n : Fin 32) (s : State) : Host.Outcome State Fault Refusal :=
  s.run (onBus (peRestart n))

/-- PE_COUNT_CLEAR (R290). -/
def execPeCountClear (n : Fin 32) (s : State) : Host.Outcome State Fault Refusal :=
  s.run (onBus (peCountClear n))

end Sys2Proof.Machine
end

