-- ==== Sys2Proof/Machine/CmdPower.lean ====
section
/-!
DEFINITION. Sys2Proof/Machine/CmdPower.lean: Commands of power, reset and the monitors.
-/
namespace Sys2Proof.Machine

/-- WIND_DOWN_END (R501). -/
def execWindDownEnd (s : State) : Host.Outcome State Fault Refusal :=
  s.run windDownEnd

/-- WAKE (R504). `took`: the time until Keel's work is done, in ns; `dir`: the boot directory. -/
def execWake (took : Nat) (dir : Option BootDir) (s : State) : Host.Outcome State Fault Refusal :=
  s.run (wake took dir)

/-- WAKE_TIMER (R503). -/
def execWakeTimer (s : State) : Host.Outcome State Fault Refusal :=
  s.run wakeTimerCmd

/-- GTIO1_WAKE (R503). -/
def execGtio1Wake (s : State) : Host.Outcome State Fault Refusal :=
  s.run gtio1Wake

/-- TEMP_SAMPLE (R530). The readings of the sensors, in 1/16 °C. -/
def execTempSample (t : List (Option Int)) (s : State) : Host.Outcome State Fault Refusal :=
  s.run (tempSample t)

/-- POWER_ON_RESET (R518). -/
def execPowerOnReset (b : BootIn) (s : State) : Host.Outcome State Fault Refusal :=
  s.power (powerOn b)

/-- SUPPLY_MONITOR_RESET (R513). -/
def execSupplyMonitorReset (s : State) : Host.Outcome State Fault Refusal :=
  s.power (powerHeld 0)

/-- WARM_RESET (R522). -/
def execWarmReset (s : State) : Host.Outcome State Fault Refusal :=
  s.run (warmBegin 2)

/-- WARM (R514). -/
def execWarm (m : Master) (s : State) : Host.Outcome State Fault Refusal :=
  s.run (onBus (rstCtrlWrite m 1))

/-- WARM_RESET_COMPLETE (R523). -/
def execWarmResetComplete (s : State) : Host.Outcome State Fault Refusal :=
  s.run warmComplete

/-- ADC_CONVERSION_END (R526). `uv`: the input voltage in µV. -/
def execAdcConversionEnd (uv : Nat) (s : State) : Host.Outcome State Fault Refusal :=
  s.run (onInstant (fun d => d.adcEndAt) (adcEnd uv))

/-- SUPPLY_SAMPLE (R531). The supplies in mV, by index. -/
def execSupplySample (mv : List Nat) (s : State) : Host.Outcome State Fault Refusal :=
  s.run (supplySample mv)

/-- PORST_N_LOW (R513). -/
def execPorstNLow (s : State) : Host.Outcome State Fault Refusal :=
  s.power (powerHeld 1)

/-- TAP_INSTRUCTION_UPDATE (R576). -/
def execTapInstructionUpdate (v : BitVec 8) (s : State) : Host.Outcome State Fault Refusal :=
  s.power (fun d => { d with tap := v.toNat })

end Sys2Proof.Machine
end

