-- ==== Sys2Proof/Machine/CmdReference.lean ====
section
/-!
DEFINITION. Sys2Proof/Machine/CmdReference.lean: Commands of the reference trackers and counters.
-/
namespace Sys2Proof.Machine

/-- TRK_EDGE (R89). An edge at `stamp` (2^-16 ns of TAI). -/
def execTrkEdge (n : Fin 8) (stamp : Nat) (edge : Pulse) (s : State) : Host.Outcome State Fault Refusal :=
  s.run (fun d => onTrk n (trkPin n stamp edge.rising edge.width) (passTo (dueOf stamp) d))

/-- TOOTH_DECISION (R90). The candidate, whose pulse is `width` ns wide, is decided. -/
def execToothDecision (n : Fin 8) (width : Nat) (s : State) : Host.Outcome State Fault Refusal :=
  s.run (onInstant (fun d => d.decisionAt n width) (onTrk n (toothDecision n width)))

/-- SYNTHETIC_TOOTH (R91). -/
def execSyntheticTooth (n : Fin 8) (s : State) : Host.Outcome State Fault Refusal :=
  s.run (onInstant (fun d => d.windowEnd n) (onTrk n (syntheticTooth n)))

/-- QUAL_EXPIRE (R98). -/
def execQualExpire (n : Fin 8) (s : State) : Host.Outcome State Fault Refusal :=
  s.run (onInstant (fun d => (d.trkAt n).qualEnd) (onTrk n (qualExpire n)))

/-- QUARANTINE_HOLD_EXPIRE (R104). -/
def execHoldExpire (n : Fin 8) (s : State) : Host.Outcome State Fault Refusal :=
  s.run (onInstant (fun d => (d.trkAt n).holdEnd) (onTrk n (holdExpire n)))

/-- PULL_IN_DONE (R97). The coming catch, when the pull-in ends at it. -/
def execPullInDone (n : Fin 8) (s : State) : Host.Outcome State Fault Refusal :=
  s.run (catchIf fun b e => b.on (TRK_STATE_PULLING n) && !e.on (TRK_STATE_PULLING n))

/-- TT_DATA_HI_WRITE (R81). -/
def execTtDataHiWrite (n : Fin 8) (v : BitVec 32) (s : State) : Host.Outcome State Fault Refusal :=
  s.run (onBus (ttDataHiWrite n v.toNat))

/-- TRK_RESTART (R98). -/
def execTrkRestart (n : Fin 8) (s : State) : Host.Outcome State Fault Refusal :=
  s.run (onBus (trkRestart n))

/-- TRK_RELEASE (R106). -/
def execTrkRelease (n : Fin 8) (s : State) : Host.Outcome State Fault Refusal :=
  s.run (onBus (trkRelease n))

/-- PHASE_TRIGGER (R112). Trigger `k` of tracker `n`. -/
def execPhaseTrigger (n : Fin 8) (k : Fin 4) (s : State) : Host.Outcome State Fault Refusal :=
  s.run (onInstant (fun d => d.trigTime n k) (phaseTrigger n k))

/-- REV_NO_LO_READ (R95). -/
def execRevNoLoRead (m : Master) (n : Fin 8) (s : State) : Host.Outcome State Fault Refusal :=
  s.run (give m (revNoLoRead m n))

/-- CNT_INDEX (R115). An index event in the TCLK `at_`, in ns of TAI. -/
def execCntIndex (n : Fin 32) (at_ : Nat) (s : State) : Host.Outcome State Fault Refusal :=
  s.run (live fun d => cntIndex n (passTo at_ d))

/-- CNT_GATE (R118). The coming catch, when the gate of counter `n` closes at it. -/
def execCntGate (n : Fin 32) (s : State) : Host.Outcome State Fault Refusal :=
  s.run (live (atCatch fun d => d.cntGateDue n))

/-- CNT_ARM (R115). -/
def execCntArm (n : Fin 32) (s : State) : Host.Outcome State Fault Refusal :=
  s.run (onBus (cntArm n))

/-- COUNT_LO_READ (R115). -/
def execCountLoRead (m : Master) (n : Fin 32) (s : State) : Host.Outcome State Fault Refusal :=
  s.run (give m (countLoRead m n))

/-- SPLIT_POP (R122). A read of the last word of FIFO `f`. -/
def execSplitPop (m : Master) (f : SplitFifo) (s : State) : Host.Outcome State Fault Refusal :=
  s.run (give m (regRead m (splitWord7 f) 2))

/-- COUNTER_INPUT_EDGE (R115). An edge at `stamp`, in 2^-16 ns of TAI. -/
def execCounterInputEdge (n : Fin 32) (stamp : Nat) (s : State) : Host.Outcome State Fault Refusal :=
  s.run (live fun d => cntEdge n stamp (passTo (dueOf stamp) d))

end Sys2Proof.Machine
end

