-- ==== Sys2Proof/Machine/CmdRigTxn.lean ====
section
/-!
DEFINITION. Sys2Proof/Machine/CmdRigTxn.lean: Commands of the rig image and of transactions.
-/
namespace Sys2Proof.Machine

/-- RIG_LOAD (R301). -/
def execRigLoad (s : State) : Host.Outcome State Fault Refusal :=
  s.run (onBus rigLoad)

/-- RIG_LOAD_COMPLETE (R301). `sigOk` of its end tells that every signature of the image verifies. -/
def execRigLoadComplete (load : LoadEnd) (s : State) : Host.Outcome State Fault Refusal :=
  s.run (keelCmd .rigLoad (loadEnd .rigLoad load (rigLoadComplete load.sigOk)))

/-- RIG_ACCEPT (R303). -/
def execRigAccept (s : State) : Host.Outcome State Fault Refusal :=
  s.run (onBus rigAccept)

/-- RIG_CLEAR (R304). -/
def execRigClear (s : State) : Host.Outcome State Fault Refusal :=
  s.run (onBus rigClear)

/-- CODE_COPY (R307). -/
def execCodeCopy (s : State) : Host.Outcome State Fault Refusal :=
  s.run (keelCmd .codeCopy codeCopy)

/-- TXN_BEGIN (R309). -/
def execTxnBegin (m : Master) (s : State) : Host.Outcome State Fault Refusal :=
  s.run (onBus (txnBegin m))

/-- COMMIT_NEXT (R312). -/
def execCommitNext (m : Master) (handle : BitVec 16) (s : State) : Host.Outcome State Fault Refusal :=
  s.run (onBus (txnCommit m handle.toNat 1))

/-- COMMIT_AT_STROKE (R312). -/
def execCommitAtStroke (m : Master) (handle : BitVec 16) (s : State) : Host.Outcome State Fault Refusal :=
  s.run (onBus (txnCommit m handle.toNat 2))

/-- COMMIT_AT_TIME (R312). -/
def execCommitAtTime (m : Master) (handle : BitVec 16) (s : State) : Host.Outcome State Fault Refusal :=
  s.run (onBus (txnCommit m handle.toNat 3))

/-- ROLLBACK (R312). -/
def execRollback (m : Master) (handle : BitVec 16) (s : State) : Host.Outcome State Fault Refusal :=
  s.run (onBus (txnCommit m handle.toNat 4))

/-- COMMIT_CREW (R342). -/
def execCommitCrew (m : Master) (handle : BitVec 16) (s : State) : Host.Outcome State Fault Refusal :=
  s.run (onBus (txnCommit m handle.toNat 5))

end Sys2Proof.Machine
end

