-- ==== Sys2Proof/Machine/CmdStroke.lean ====
section
/-!
DEFINITION. Sys2Proof/Machine/CmdStroke.lean: Commands of the stroke, the catch and the access fabric.
-/
namespace Sys2Proof.Machine

/-- CATCH (R22). The stroke ends and the next one opens. -/
def execStrokeCatch (s : State) : Host.Outcome State Fault Refusal :=
  s.run (live nextCatch)

/-- FINISH_WINDOW (R25). The finish window opens. -/
def execFinishWindow (s : State) : Host.Outcome State Fault Refusal :=
  s.run (live finishCmd)

/-- PERIOD_CHANGE (R28). The coming catch, when a committed period takes effect at it. -/
def execPeriodChange (s : State) : Host.Outcome State Fault Refusal :=
  s.run (atCatch Dev.periodDue)

/-- FABRIC_GRANT (R38). `kind` is the error that the read meets (R438): 0 none, 1 correctable, 2 uncorrectable. -/
def execFabricGrant (kind : Fin 3) (s : State) : Host.Outcome State Fault Refusal :=
  s.run (live (onInstant Dev.grantAt (fabGrantNow kind)))

/-- STROKE_NO_LO_READ (R9). A read by master `m`. -/
def execStrokeNoLoRead (m : Master) (s : State) : Host.Outcome State Fault Refusal :=
  s.run (give m (regRead m 0x14 2))

/-- MAXWAIT_CLEAR (R41). -/
def execMaxwaitClear (s : State) : Host.Outcome State Fault Refusal :=
  s.run (onBus fun d => d.set SYS_FAB_MAXWAIT_MAXWAIT 0)

/-- MODE_CHANGE (R497). The coming catch, when a change of mode applies or is refused at it. -/
def execModeChange (s : State) : Host.Outcome State Fault Refusal :=
  s.run (atCatch Dev.modeDue)

/-- REGISTER_WRITE (R12). Master `m` writes the whole register at `addr`. -/
def execRegisterWrite (m : Master) (addr : BitVec 32) (v : BitVec 32) (s : State) : Host.Outcome State Fault Refusal :=
  s.run (onBus (regWriteCmd m addr.toNat v.toNat))

end Sys2Proof.Machine
end

