-- ==== Sys2Proof/Machine/CmdSyn.lean ====
section
/-!
DEFINITION. Sys2Proof/Machine/CmdSyn.lean: Commands of the synthesisers and the transmit gates.
-/
namespace Sys2Proof.Machine

/-- SYN_CALIBRATION_DONE (R194). -/
def execSynCalibrationDone (n : Fin 4) (s : State) : Host.Outcome State Fault Refusal :=
  s.run (live (synCalDone n))

/-- PHASE_LOCK (R194). -/
def execPhaseLock (n : Fin 4) (s : State) : Host.Outcome State Fault Refusal :=
  s.run (live (onInstant (fun d => d.lockAt n) (synLock n)))

/-- LOCK_LOST (R194). -/
def execLockLost (n : Fin 4) (s : State) : Host.Outcome State Fault Refusal :=
  s.run (live (synLockLost n))

/-- SYN_ALIGNED (R194). -/
def execSynAligned (n : Fin 4) (s : State) : Host.Outcome State Fault Refusal :=
  s.run (live (synAligned n))

/-- RECAL (R194). -/
def execRecal (n : Fin 4) (s : State) : Host.Outcome State Fault Refusal :=
  s.run (onBus (synRecal n))

/-- GUARD_PERIOD (R196). -/
def execGuardPeriod (n : Fin 4) (s : State) : Host.Outcome State Fault Refusal :=
  s.run (live (onInstant (fun d => (d.synAt n).guardAt.head?) (guardPeriod n)))

/-- CAL_ROUND (R197). -/
def execCalRound (n : Fin 4) (s : State) : Host.Outcome State Fault Refusal :=
  s.run (live (onInstant (fun d => (d.synAt n).nextRound) (calRound n)))

/-- CAL_OVERDUE (R197). -/
def execCalOverdue (n : Fin 4) (s : State) : Host.Outcome State Fault Refusal :=
  s.run (live (onInstant (fun d => d.calLimit n) (calOverdue n)))

/-- TXG_OPEN (R202). -/
def execTxgOpen (n : Fin 8) (s : State) : Host.Outcome State Fault Refusal :=
  s.run (onBus (txgCtrlOpen n))

/-- TXG_CLOSE (R202). -/
def execTxgClose (n : Fin 8) (s : State) : Host.Outcome State Fault Refusal :=
  s.run (onBus (txgCtrlClose n))

/-- GATE_TIMEOUT (R203). The coming catch, when it rejects the request. -/
def execGateTimeout (n : Fin 8) (s : State) : Host.Outcome State Fault Refusal :=
  s.run (live (catchIf fun b e => b.get (TXG_STATUS_STATE n) == 1 && e.get (TXG_STATUS_STATE n) == 0))

end Sys2Proof.Machine
end

