-- ==== Sys2Proof/Machine/CmdTimebase.lean ====
section
/-!
DEFINITION. Sys2Proof/Machine/CmdTimebase.lean: Commands of the timebase and ensemble.
-/
namespace Sys2Proof.Machine

/-- TIME_SEC_LO_READ (R47). -/
def execTimeSecLoRead (m : Master) (s : State) : Host.Outcome State Fault Refusal :=
  s.run (give m (readTimeSecLo m))

/-- FFO_LO_READ (R48). -/
def execFfoLoRead (m : Master) (s : State) : Host.Outcome State Fault Refusal :=
  s.run (give m (readFfoLo m))

/-- FREQ_LO_READ (R77). -/
def execFreqLoRead (m : Master) (n : Fin 4) (s : State) : Host.Outcome State Fault Refusal :=
  s.run (give m (readFreqLo m n))

/-- FILTER_UPDATE (R53). -/
def execFilterUpdate (s : State) : Host.Outcome State Fault Refusal :=
  s.run filterCmd

/-- FFO_APPLY (R48). The coming catch, when an update's output waits for it. -/
def execFfoApply (s : State) : Host.Outcome State Fault Refusal :=
  s.run (atCatch fun d => d.tb.out.isSome)

/-- OSC_FAULT (R52). Enabled oscillator `n` meets a fault condition. -/
def execOscFault (n : Fin 4) (s : State) : Host.Outcome State Fault Refusal :=
  s.run (oscFaultCmd n)

/-- OSC_RETURN (R52). The coming catch, when oscillator `n` returns at it. -/
def execOscReturn (n : Fin 4) (s : State) : Host.Outcome State Fault Refusal :=
  s.run (atCatch fun d => d.oscReturns d.catchTime n)

/-- CARRIER_CHANGE (R49). Keel's service ends; the DCO moves at the next catch. -/
def execCarrierChange (s : State) : Host.Outcome State Fault Refusal :=
  s.run (keelCmd .carrierChange (svcEffect .carrierChange))

/-- MODEL_SAVE (R58). -/
def execModelSave (s : State) : Host.Outcome State Fault Refusal :=
  s.run (keelCmd .modelSave (svcEffect .modelSave))

/-- MODEL_CLEAR (R59). -/
def execModelClear (s : State) : Host.Outcome State Fault Refusal :=
  s.run (onBus modelClear)

/-- TIME_SET_GO (R64). -/
def execTimeSetGo (s : State) : Host.Outcome State Fault Refusal :=
  s.run (onBus timeSetGo)

/-- TIME_SET (R64). Keel's service ends; the set applies at the next catch. -/
def execTimeSet (s : State) : Host.Outcome State Fault Refusal :=
  s.run (keelCmd .timeSet (svcEffect .timeSet))

/-- TIME_STEP (R62). The coming catch, when a step is due at it. -/
def execTimeStep (s : State) : Host.Outcome State Fault Refusal :=
  s.run (atCatch fun d => d.stepDue.isSome)

/-- TB_STATE_CHANGE (R65). The coming catch, when a state change is due at it. -/
def execTbStateChange (s : State) : Host.Outcome State Fault Refusal :=
  s.run (atCatch fun d => d.tb.change.isSome)

/-- LEAP_SECOND (R72). The coming catch, when a leap second is due at it. -/
def execLeapSecond (s : State) : Host.Outcome State Fault Refusal :=
  s.run (atCatch fun d => d.leapDue d.catchTime)

/-- MOORED_TICK (R74). -/
def execMooredTick (s : State) : Host.Outcome State Fault Refusal :=
  s.run mooredCmd

end Sys2Proof.Machine
end

