-- ==== Sys2Proof/Machine/CmdTrust.lean ====
section
/-!
DEFINITION. Sys2Proof/Machine/CmdTrust.lean: Commands of the trust core.
-/
namespace Sys2Proof.Machine

/-- PROVISION (R477). -/
def execProvision (s : State) : Host.Outcome State Fault Refusal :=
  s.run (onBus (trustCall 1))

/-- ATTEST (R483). -/
def execAttest (s : State) : Host.Outcome State Fault Refusal :=
  s.run (onBus (trustCall 3))

/-- CMD_SET_POLICY (R477). -/
def execCmdSetPolicy (s : State) : Host.Outcome State Fault Refusal :=
  s.run (onBus (trustCall 4))

/-- CMD_CLEAR_TAMPER (R489). -/
def execCmdClearTamper (s : State) : Host.Outcome State Fault Refusal :=
  s.run (onBus (trustCall 5))

/-- DEPLOY (R481). `sigOk`: the token's signatures verify. -/
def execDeploy (sigOk : Bool) (s : State) : Host.Outcome State Fault Refusal :=
  s.run (onBus (tokenCall 1 sigOk none))

/-- SERVICE (R481). -/
def execService (sigOk : Bool) (s : State) : Host.Outcome State Fault Refusal :=
  s.run (onBus (tokenCall 2 sigOk none))

/-- BOATHOUSE (R481). -/
def execBoathouse (sigOk : Bool) (s : State) : Host.Outcome State Fault Refusal :=
  s.run (onBus (tokenCall 3 sigOk none))

/-- ADD_KEY (R476). -/
def execAddKey (sigOk : Bool) (s : State) : Host.Outcome State Fault Refusal :=
  s.run (onBus (tokenCall 4 sigOk none))

/-- REVOKE_KEY (R476). -/
def execRevokeKey (sigOk : Bool) (s : State) : Host.Outcome State Fault Refusal :=
  s.run (onBus (tokenCall 5 sigOk none))

/-- TOKEN_SET_POLICY (R481). -/
def execTokenSetPolicy (sigOk : Bool) (s : State) : Host.Outcome State Fault Refusal :=
  s.run (onBus (tokenCall 6 sigOk none))

/-- SET_TAMPER (R481). -/
def execSetTamper (sigOk : Bool) (s : State) : Host.Outcome State Fault Refusal :=
  s.run (onBus (tokenCall 7 sigOk none))

/-- TOKEN_CLEAR_TAMPER (R481). -/
def execTokenClearTamper (sigOk : Bool) (s : State) : Host.Outcome State Fault Refusal :=
  s.run (onBus (tokenCall 8 sigOk none))

/-- KEYS (R485). `plain`: the plaintext of the key package; none when its tag fails. -/
def execKeys (sigOk : Bool) (plain : Option (List Nat)) (s : State) : Host.Outcome State Fault Refusal :=
  s.run (onBus (tokenCall 9 sigOk plain))

/-- RELEASE (R481). -/
def execRelease (sigOk : Bool) (s : State) : Host.Outcome State Fault Refusal :=
  s.run (onBus (tokenCall 10 sigOk none))

/-- SCRAP (R481). -/
def execScrap (sigOk : Bool) (s : State) : Host.Outcome State Fault Refusal :=
  s.run (onBus (tokenCall 11 sigOk none))

/-- TRUST_CMD_COMPLETE (R477). -/
def execTrustCmdComplete (sigOk : Bool) (plain : Option (List Nat)) (s : State) : Host.Outcome State Fault Refusal :=
  s.run (onBus (trustRun sigOk plain))

/-- TAMPER_FIRE (R489). -/
def execTamperFire (i : Fin 6) (s : State) : Host.Outcome State Fault Refusal :=
  s.run (tamperFire i)

/-- SERIAL_LO_READ (R494). -/
def execSerialLoRead (m : Master) (s : State) : Host.Outcome State Fault Refusal :=
  s.run (give m (serialLoRead m))

/-- RD_DATA_READ (R495). -/
def execRdDataRead (m : Master) (s : State) : Host.Outcome State Fault Refusal :=
  s.run (give m fun d => d.logRead)

end Sys2Proof.Machine
end

