-- ==== Sys2Proof/Machine/Dispatch.lean ====
section
/-!
DEFINITION. Sys2Proof/Machine/Dispatch.lean: one arm for each command of the opcode table.
-/
namespace Sys2Proof.Machine

def exec (i : Instr) (s : State) : Host.Outcome State Fault Refusal :=
  match i with
  | .strokeCatch => Sys2Proof.Machine.execStrokeCatch s
  | .finishWindow => Sys2Proof.Machine.execFinishWindow s
  | .periodChange => Sys2Proof.Machine.execPeriodChange s
  | .fabricGrant kind => Sys2Proof.Machine.execFabricGrant kind s
  | .strokeNoLoRead m => Sys2Proof.Machine.execStrokeNoLoRead m s
  | .maxwaitClear => Sys2Proof.Machine.execMaxwaitClear s
  | .timeSecLoRead m => Sys2Proof.Machine.execTimeSecLoRead m s
  | .ffoLoRead m => Sys2Proof.Machine.execFfoLoRead m s
  | .freqLoRead m n => Sys2Proof.Machine.execFreqLoRead m n s
  | .filterUpdate => Sys2Proof.Machine.execFilterUpdate s
  | .ffoApply => Sys2Proof.Machine.execFfoApply s
  | .oscFault n => Sys2Proof.Machine.execOscFault n s
  | .oscReturn n => Sys2Proof.Machine.execOscReturn n s
  | .carrierChange => Sys2Proof.Machine.execCarrierChange s
  | .modelSave => Sys2Proof.Machine.execModelSave s
  | .modelClear => Sys2Proof.Machine.execModelClear s
  | .timeSetGo => Sys2Proof.Machine.execTimeSetGo s
  | .timeSet => Sys2Proof.Machine.execTimeSet s
  | .timeStep => Sys2Proof.Machine.execTimeStep s
  | .tbStateChange => Sys2Proof.Machine.execTbStateChange s
  | .leapSecond => Sys2Proof.Machine.execLeapSecond s
  | .mooredTick => Sys2Proof.Machine.execMooredTick s
  | .trkEdge n stamp edge => Sys2Proof.Machine.execTrkEdge n stamp edge s
  | .toothDecision n width => Sys2Proof.Machine.execToothDecision n width s
  | .syntheticTooth n => Sys2Proof.Machine.execSyntheticTooth n s
  | .qualExpire n => Sys2Proof.Machine.execQualExpire n s
  | .holdExpire n => Sys2Proof.Machine.execHoldExpire n s
  | .pullInDone n => Sys2Proof.Machine.execPullInDone n s
  | .ttDataHiWrite n v => Sys2Proof.Machine.execTtDataHiWrite n v s
  | .trkRestart n => Sys2Proof.Machine.execTrkRestart n s
  | .trkRelease n => Sys2Proof.Machine.execTrkRelease n s
  | .phaseTrigger n k => Sys2Proof.Machine.execPhaseTrigger n k s
  | .revNoLoRead m n => Sys2Proof.Machine.execRevNoLoRead m n s
  | .cntIndex n at_ => Sys2Proof.Machine.execCntIndex n at_ s
  | .cntGate n => Sys2Proof.Machine.execCntGate n s
  | .cntArm n => Sys2Proof.Machine.execCntArm n s
  | .countLoRead m n => Sys2Proof.Machine.execCountLoRead m n s
  | .splitPop m f => Sys2Proof.Machine.execSplitPop m f s
  | .coxConversion => Sys2Proof.Machine.execCoxConversion s
  | .refillBurst => Sys2Proof.Machine.execRefillBurst s
  | .refillReturn k bad => Sys2Proof.Machine.execRefillReturn k bad s
  | .armedLoRead m => Sys2Proof.Machine.execArmedLoRead m s
  | .perfClear => Sys2Proof.Machine.execPerfClear s
  | .actionNop n => Sys2Proof.Machine.execActionNop n s
  | .setHigh n => Sys2Proof.Machine.execSetHigh n s
  | .setLow n => Sys2Proof.Machine.execSetLow n s
  | .toggle n => Sys2Proof.Machine.execToggle n s
  | .pulse n => Sys2Proof.Machine.execPulse n s
  | .trainStart n => Sys2Proof.Machine.execTrainStart n s
  | .trainStop n => Sys2Proof.Machine.execTrainStop n s
  | .captureArm n => Sys2Proof.Machine.execCaptureArm n s
  | .captureDisarm n => Sys2Proof.Machine.execCaptureDisarm n s
  | .trigAdc n => Sys2Proof.Machine.execTrigAdc n s
  | .trigDma n => Sys2Proof.Machine.execTrigDma n s
  | .signalCe n => Sys2Proof.Machine.execSignalCe n s
  | .raiseIrq n => Sys2Proof.Machine.execRaiseIrq n s
  | .gateOpen n => Sys2Proof.Machine.execGateOpen n s
  | .gateClose n => Sys2Proof.Machine.execGateClose n s
  | .mark n => Sys2Proof.Machine.execMark n s
  | .pulseReturn n => Sys2Proof.Machine.execPulseReturn n s
  | .trainPulse n => Sys2Proof.Machine.execTrainPulse n s
  | .hevGo n => Sys2Proof.Machine.execHevGo n s
  | .flush n => Sys2Proof.Machine.execFlush n s
  | .fifoClear n => Sys2Proof.Machine.execFifoClear n s
  | .chCountClear n => Sys2Proof.Machine.execChCountClear n s
  | .captureEdge n t rising => Sys2Proof.Machine.execCaptureEdge n t rising s
  | .measTimeout n => Sys2Proof.Machine.execMeasTimeout n s
  | .starve n => Sys2Proof.Machine.execStarve n s
  | .calibration n => Sys2Proof.Machine.execCalibration n s
  | .kaPatternEvent n => Sys2Proof.Machine.execKaPatternEvent n s
  | .kaEnd n => Sys2Proof.Machine.execKaEnd n s
  | .synCalibrationDone n => Sys2Proof.Machine.execSynCalibrationDone n s
  | .phaseLock n => Sys2Proof.Machine.execPhaseLock n s
  | .lockLost n => Sys2Proof.Machine.execLockLost n s
  | .synAligned n => Sys2Proof.Machine.execSynAligned n s
  | .recal n => Sys2Proof.Machine.execRecal n s
  | .guardPeriod n => Sys2Proof.Machine.execGuardPeriod n s
  | .calRound n => Sys2Proof.Machine.execCalRound n s
  | .calOverdue n => Sys2Proof.Machine.execCalOverdue n s
  | .txgOpen n => Sys2Proof.Machine.execTxgOpen n s
  | .txgClose n => Sys2Proof.Machine.execTxgClose n s
  | .gateTimeout n => Sys2Proof.Machine.execGateTimeout n s
  | .ceStart n => Sys2Proof.Machine.execCeStart n s
  | .wheelAccessComplete n => Sys2Proof.Machine.execWheelAccessComplete n s
  | .interruptEntry n => Sys2Proof.Machine.execInterruptEntry n s
  | .waitWake n => Sys2Proof.Machine.execWaitWake n s
  | .halt n => Sys2Proof.Machine.execHalt n s
  | .resume n => Sys2Proof.Machine.execResume n s
  | .ceStep n => Sys2Proof.Machine.execCeStep n s
  | .xregWrite n k v => Sys2Proof.Machine.execXregWrite n k v s
  | .specWrite n j v => Sys2Proof.Machine.execSpecWrite n j v s
  | .runmaxClear n => Sys2Proof.Machine.execRunmaxClear n s
  | .ceNop n c => Sys2Proof.Machine.execCeNop n c s
  | .ceJmpr n c a => Sys2Proof.Machine.execCeJmpr n c a s
  | .ceCallr n c a sh => Sys2Proof.Machine.execCeCallr n c a sh s
  | .ceRet n c sh => Sys2Proof.Machine.execCeRet n c sh s
  | .ceRtt n c => Sys2Proof.Machine.execCeRtt n c s
  | .ceRti n c => Sys2Proof.Machine.execCeRti n c s
  | .ceYield n c => Sys2Proof.Machine.execCeYield n c s
  | .ceWait n c => Sys2Proof.Machine.execCeWait n c s
  | .ceTrap n c => Sys2Proof.Machine.execCeTrap n c s
  | .ceSpill n c => Sys2Proof.Machine.execCeSpill n c s
  | .ceFill n c => Sys2Proof.Machine.execCeFill n c s
  | .ceRep n c a t => Sys2Proof.Machine.execCeRep n c a t s
  | .ceRepi n c k t => Sys2Proof.Machine.execCeRepi n c k t s
  | .ceMfs n c d sr => Sys2Proof.Machine.execCeMfs n c d sr s
  | .ceMts n c sr a => Sys2Proof.Machine.execCeMts n c sr a s
  | .ceEi n c => Sys2Proof.Machine.execCeEi n c s
  | .ceDi n c => Sys2Proof.Machine.execCeDi n c s
  | .ceJmp n c target => Sys2Proof.Machine.execCeJmp n c target s
  | .ceCall n c target sh => Sys2Proof.Machine.execCeCall n c target sh s
  | .ceAdd n c alu1 d a b f => Sys2Proof.Machine.execCeAdd n c alu1 d a b f s
  | .ceAdc n c alu1 d a b f => Sys2Proof.Machine.execCeAdc n c alu1 d a b f s
  | .ceSub n c alu1 d a b f => Sys2Proof.Machine.execCeSub n c alu1 d a b f s
  | .ceSbc n c alu1 d a b f => Sys2Proof.Machine.execCeSbc n c alu1 d a b f s
  | .ceAnd n c alu1 d a b f => Sys2Proof.Machine.execCeAnd n c alu1 d a b f s
  | .ceOr n c alu1 d a b f => Sys2Proof.Machine.execCeOr n c alu1 d a b f s
  | .ceXor n c alu1 d a b f => Sys2Proof.Machine.execCeXor n c alu1 d a b f s
  | .ceAndn n c alu1 d a b f => Sys2Proof.Machine.execCeAndn n c alu1 d a b f s
  | .ceShl n c alu1 d a b f => Sys2Proof.Machine.execCeShl n c alu1 d a b f s
  | .ceShr n c alu1 d a b f => Sys2Proof.Machine.execCeShr n c alu1 d a b f s
  | .ceSar n c alu1 d a b f => Sys2Proof.Machine.execCeSar n c alu1 d a b f s
  | .ceRol n c alu1 d a b f => Sys2Proof.Machine.execCeRol n c alu1 d a b f s
  | .ceMin n c alu1 d a b f => Sys2Proof.Machine.execCeMin n c alu1 d a b f s
  | .ceMax n c alu1 d a b f => Sys2Proof.Machine.execCeMax n c alu1 d a b f s
  | .ceMinu n c alu1 d a b f => Sys2Proof.Machine.execCeMinu n c alu1 d a b f s
  | .ceMaxu n c alu1 d a b f => Sys2Proof.Machine.execCeMaxu n c alu1 d a b f s
  | .ceCmp n c alu1 a b f => Sys2Proof.Machine.execCeCmp n c alu1 a b f s
  | .ceTst n c alu1 a b f => Sys2Proof.Machine.execCeTst n c alu1 a b f s
  | .ceMov n c alu1 d a f => Sys2Proof.Machine.execCeMov n c alu1 d a f s
  | .ceNeg n c alu1 d a f => Sys2Proof.Machine.execCeNeg n c alu1 d a f s
  | .ceNot n c alu1 d a f => Sys2Proof.Machine.execCeNot n c alu1 d a f s
  | .ceAbs n c alu1 d a f => Sys2Proof.Machine.execCeAbs n c alu1 d a f s
  | .ceSext8 n c alu1 d a f => Sys2Proof.Machine.execCeSext8 n c alu1 d a f s
  | .ceSwapb n c alu1 d a f => Sys2Proof.Machine.execCeSwapb n c alu1 d a f s
  | .ceAdds n c alu1 d a b f => Sys2Proof.Machine.execCeAdds n c alu1 d a b f s
  | .ceSubs n c alu1 d a b f => Sys2Proof.Machine.execCeSubs n c alu1 d a b f s
  | .ceAddi n c alu1 d a f imm => Sys2Proof.Machine.execCeAddi n c alu1 d a f imm s
  | .ceAndi n c alu1 d a f imm => Sys2Proof.Machine.execCeAndi n c alu1 d a f imm s
  | .ceOri n c alu1 d a f imm => Sys2Proof.Machine.execCeOri n c alu1 d a f imm s
  | .ceXori n c alu1 d a f imm => Sys2Proof.Machine.execCeXori n c alu1 d a f imm s
  | .ceShli n c alu1 d a f imm => Sys2Proof.Machine.execCeShli n c alu1 d a f imm s
  | .ceShri n c alu1 d a f imm => Sys2Proof.Machine.execCeShri n c alu1 d a f imm s
  | .ceSari n c alu1 d a f imm => Sys2Proof.Machine.execCeSari n c alu1 d a f imm s
  | .ceRoli n c alu1 d a f imm => Sys2Proof.Machine.execCeRoli n c alu1 d a f imm s
  | .ceCmpi n c alu1 a f imm => Sys2Proof.Machine.execCeCmpi n c alu1 a f imm s
  | .ceMovi n c alu1 d imm => Sys2Proof.Machine.execCeMovi n c alu1 d imm s
  | .ceLd n c r k a disp => Sys2Proof.Machine.execCeLd n c r k a disp s
  | .ceLdp n c r k a disp => Sys2Proof.Machine.execCeLdp n c r k a disp s
  | .ceSt n c r k a disp => Sys2Proof.Machine.execCeSt n c r k a disp s
  | .ceStp n c r k a disp => Sys2Proof.Machine.execCeStp n c r k a disp s
  | .ceLdPostinc n c r k a => Sys2Proof.Machine.execCeLdPostinc n c r k a s
  | .ceLdpPostinc n c r k a => Sys2Proof.Machine.execCeLdpPostinc n c r k a s
  | .ceStPostinc n c r k a => Sys2Proof.Machine.execCeStPostinc n c r k a s
  | .ceStpPostinc n c r k a => Sys2Proof.Machine.execCeStpPostinc n c r k a s
  | .ceLda n c r k imm => Sys2Proof.Machine.execCeLda n c r k imm s
  | .ceSta n c r k imm => Sys2Proof.Machine.execCeSta n c r k imm s
  | .ceLdpa n c r k imm => Sys2Proof.Machine.execCeLdpa n c r k imm s
  | .ceStpa n c r k imm => Sys2Proof.Machine.execCeStpa n c r k imm s
  | .ceMovw n c ks kd a b => Sys2Proof.Machine.execCeMovw n c ks kd a b s
  | .ceScanw n c r k a => Sys2Proof.Machine.execCeScanw n c r k a s
  | .ceArm n c d m nh => Sys2Proof.Machine.execCeArm n c d m nh s
  | .ceArmp n c d m => Sys2Proof.Machine.execCeArmp n c d m s
  | .ceGetsn n c d => Sys2Proof.Machine.execCeGetsn n c d s
  | .ceGetct n c d => Sys2Proof.Machine.execCeGetct n c d s
  | .ceTclr n c => Sys2Proof.Machine.execCeTclr n c s
  | .ceBset n c d a p => Sys2Proof.Machine.execCeBset n c d a p s
  | .ceBclr n c d a p => Sys2Proof.Machine.execCeBclr n c d a p s
  | .ceBtgl n c d a p => Sys2Proof.Machine.execCeBtgl n c d a p s
  | .ceBtst n c a p => Sys2Proof.Machine.execCeBtst n c a p s
  | .ceBext n c d a p q => Sys2Proof.Machine.execCeBext n c d a p q s
  | .ceBins n c d a p q => Sys2Proof.Machine.execCeBins n c d a p q s
  | .ceClz n c d a => Sys2Proof.Machine.execCeClz n c d a s
  | .cePopc n c d a => Sys2Proof.Machine.execCePopc n c d a s
  | .cePar n c d a p q => Sys2Proof.Machine.execCePar n c d a p q s
  | .ceBrev n c d a => Sys2Proof.Machine.execCeBrev n c d a s
  | .ceBrev8 n c d a => Sys2Proof.Machine.execCeBrev8 n c d a s
  | .ceCrcb n c d a code => Sys2Proof.Machine.execCeCrcb n c d a code s
  | .ceCrcw n c d a code => Sys2Proof.Machine.execCeCrcw n c d a code s
  | .ceMul n c d a b f => Sys2Proof.Machine.execCeMul n c d a b f s
  | .ceMulu n c d a b f => Sys2Proof.Machine.execCeMulu n c d a b f s
  | .ceMac n c d a b f => Sys2Proof.Machine.execCeMac n c d a b f s
  | .ceMacs n c d a b f => Sys2Proof.Machine.execCeMacs n c d a b f s
  | .ceMsu n c d a b f => Sys2Proof.Machine.execCeMsu n c d a b f s
  | .ceMacu n c d a b f => Sys2Proof.Machine.execCeMacu n c d a b f s
  | .ceMulq n c d a b f => Sys2Proof.Machine.execCeMulq n c d a b f s
  | .peStart n => Sys2Proof.Machine.execPeStart n s
  | .peBr n ofs side pins cond target => Sys2Proof.Machine.execPeBr n ofs side pins cond target s
  | .peHold n ofs side pins lvl src index => Sys2Proof.Machine.execPeHold n ofs side pins lvl src index s
  | .peSend n ofs side pins dst count => Sys2Proof.Machine.execPeSend n ofs side pins dst count s
  | .peTake n ofs side pins src count => Sys2Proof.Machine.execPeTake n ofs side pins src count s
  | .peLoad n ofs side pins wait ifex => Sys2Proof.Machine.execPeLoad n ofs side pins wait ifex s
  | .peStore n ofs side pins wait ifword => Sys2Proof.Machine.execPeStore n ofs side pins wait ifword s
  | .pePut n ofs side pins dst imm => Sys2Proof.Machine.execPePut n ofs side pins dst imm s
  | .peLdc n ofs side pins y tsh imm => Sys2Proof.Machine.execPeLdc n ofs side pins y tsh imm s
  | .peSync n ofs side pins anchor => Sys2Proof.Machine.execPeSync n ofs side pins anchor s
  | .peFlagSet n ofs side pins flag => Sys2Proof.Machine.execPeFlagSet n ofs side pins flag s
  | .peFlagClear n ofs side pins flag => Sys2Proof.Machine.execPeFlagClear n ofs side pins flag s
  | .peFlagSignal n ofs side pins flag => Sys2Proof.Machine.execPeFlagSignal n ofs side pins flag s
  | .peFlagWait n ofs side pins flag => Sys2Proof.Machine.execPeFlagWait n ofs side pins flag s
  | .peXfer n ofs side pins dst cpl src => Sys2Proof.Machine.execPeXfer n ofs side pins dst cpl src s
  | .peUnstall n pins => Sys2Proof.Machine.execPeUnstall n pins s
  | .idleFlush n => Sys2Proof.Machine.execIdleFlush n s
  | .txqPush n v => Sys2Proof.Machine.execTxqPush n v s
  | .rxqPop m n => Sys2Proof.Machine.execRxqPop m n s
  | .gflagsWrite n v => Sys2Proof.Machine.execGflagsWrite n v s
  | .peRestart n => Sys2Proof.Machine.execPeRestart n s
  | .peCountClear n => Sys2Proof.Machine.execPeCountClear n s
  | .rigLoad => Sys2Proof.Machine.execRigLoad s
  | .rigLoadComplete load => Sys2Proof.Machine.execRigLoadComplete load s
  | .rigAccept => Sys2Proof.Machine.execRigAccept s
  | .rigClear => Sys2Proof.Machine.execRigClear s
  | .codeCopy => Sys2Proof.Machine.execCodeCopy s
  | .txnBegin m => Sys2Proof.Machine.execTxnBegin m s
  | .commitNext m handle => Sys2Proof.Machine.execCommitNext m handle s
  | .commitAtStroke m handle => Sys2Proof.Machine.execCommitAtStroke m handle s
  | .commitAtTime m handle => Sys2Proof.Machine.execCommitAtTime m handle s
  | .rollback m handle => Sys2Proof.Machine.execRollback m handle s
  | .commitCrew m handle => Sys2Proof.Machine.execCommitCrew m handle s
  | .timing h x => Sys2Proof.Machine.execTiming h x s
  | .sdUp h recs => Sys2Proof.Machine.execSdUp h recs s
  | .sdDown h slots stale => Sys2Proof.Machine.execSdDown h slots stale s
  | .rollPoll h epoch round => Sys2Proof.Machine.execRollPoll h epoch round s
  | .rollReply h x => Sys2Proof.Machine.execRollReply h x s
  | .rollResult h x => Sys2Proof.Machine.execRollResult h x s
  | .rollReq h => Sys2Proof.Machine.execRollReq h s
  | .rollCallRound => Sys2Proof.Machine.execRollCallRound s
  | .rollCallComplete => Sys2Proof.Machine.execRollCallComplete s
  | .ccBegin h => Sys2Proof.Machine.execCcBegin h s
  | .ccPrepare h at_ => Sys2Proof.Machine.execCcPrepare h at_ s
  | .ccVote h prepared => Sys2Proof.Machine.execCcVote h prepared s
  | .ccDecide h go => Sys2Proof.Machine.execCcDecide h go s
  | .ccCtrlBegin m => Sys2Proof.Machine.execCcCtrlBegin m s
  | .ccDecision => Sys2Proof.Machine.execCcDecision s
  | .raGo => Sys2Proof.Machine.execRaGo s
  | .raReq h addr v write ct => Sys2Proof.Machine.execRaReq h addr v write ct s
  | .raResp h result v => Sys2Proof.Machine.execRaResp h result v s
  | .raTimeout => Sys2Proof.Machine.execRaTimeout s
  | .dbTxGo => Sys2Proof.Machine.execDbTxGo s
  | .doorbell h idx datum => Sys2Proof.Machine.execDoorbell h idx datum s
  | .keyInit h nonce => Sys2Proof.Machine.execKeyInit h nonce s
  | .keyConf h => Sys2Proof.Machine.execKeyConf h s
  | .rekey => Sys2Proof.Machine.execRekey s
  | .rekeyTimer k => Sys2Proof.Machine.execRekeyTimer k s
  | .portBlockLock k gained => Sys2Proof.Machine.execPortBlockLock k gained s
  | .timingLoss k => Sys2Proof.Machine.execTimingLoss k s
  | .electionEnd => Sys2Proof.Machine.execElectionEnd s
  | .rollcall => Sys2Proof.Machine.execRollcall s
  | .raiseLevel => Sys2Proof.Machine.execRaiseLevel s
  | .crewQualify => Sys2Proof.Machine.execCrewQualify s
  | .leadSerLoRead m => Sys2Proof.Machine.execLeadSerLoRead m s
  | .ethLinkChange n up rxclk => Sys2Proof.Machine.execEthLinkChange n up rxclk s
  | .ethRetrain n => Sys2Proof.Machine.execEthRetrain n s
  | .ptpSyncRx h t1 cs twoStep => Sys2Proof.Machine.execPtpSyncRx h t1 cs twoStep s
  | .ptpFollowUpRx h t1 cs => Sys2Proof.Machine.execPtpFollowUpRx h t1 cs s
  | .ptpDelayReqRx h => Sys2Proof.Machine.execPtpDelayReqRx h s
  | .ptpDelayRespRx h t4 cd => Sys2Proof.Machine.execPtpDelayRespRx h t4 cd s
  | .ptpAnnounceRx h x => Sys2Proof.Machine.execPtpAnnounceRx h x s
  | .ptpSignalingRx h => Sys2Proof.Machine.execPtpSignalingRx h s
  | .pdelayRx h => Sys2Proof.Machine.execPdelayRx h s
  | .esmcPduRx n ssm essm => Sys2Proof.Machine.execEsmcPduRx n ssm essm s
  | .hostFrameRx n bytes => Sys2Proof.Machine.execHostFrameRx n bytes s
  | .syncLaunch n => Sys2Proof.Machine.execSyncLaunch n s
  | .delayReqLaunch n mii => Sys2Proof.Machine.execDelayReqLaunch n mii s
  | .announceLaunch n => Sys2Proof.Machine.execAnnounceLaunch n s
  | .announceTimeout n => Sys2Proof.Machine.execAnnounceTimeout n s
  | .esmcInfoPdu n => Sys2Proof.Machine.execEsmcInfoPdu n s
  | .esmcTimeout n => Sys2Proof.Machine.execEsmcTimeout n s
  | .ptpMeasurementTooth n => Sys2Proof.Machine.execPtpMeasurementTooth n s
  | .parentLoRead m n => Sys2Proof.Machine.execParentLoRead m n s
  | .clkIdLoRead m => Sys2Proof.Machine.execClkIdLoRead m s
  | .watchdog svc upc frames => Sys2Proof.Machine.execWatchdog svc upc frames s
  | .patchLoad => Sys2Proof.Machine.execPatchLoad s
  | .patchVerifyDone vendorOk load => Sys2Proof.Machine.execPatchVerifyDone vendorOk load s
  | .install => Sys2Proof.Machine.execInstall s
  | .patchAccept => Sys2Proof.Machine.execPatchAccept s
  | .patchClear => Sys2Proof.Machine.execPatchClear s
  | .pramAddrWrite v => Sys2Proof.Machine.execPramAddrWrite v s
  | .peakClear => Sys2Proof.Machine.execPeakClear s
  | .stackClr => Sys2Proof.Machine.execStackClr s
  | .sourcePending n => Sys2Proof.Machine.execSourcePending n s
  | .ack m t => Sys2Proof.Machine.execAck m t s
  | .eoi t => Sys2Proof.Machine.execEoi t s
  | .pendClear k v => Sys2Proof.Machine.execPendClear k v s
  | .dbRing m idx datum => Sys2Proof.Machine.execDbRing m idx datum s
  | .msixMessage => Sys2Proof.Machine.execMsixMessage s
  | .vctrlWrite v mask => Sys2Proof.Machine.execVctrlWrite v mask s
  | .skwGo m k => Sys2Proof.Machine.execSkwGo m k s
  | .skwCtlWrite m k v => Sys2Proof.Machine.execSkwCtlWrite m k v s
  | .capLoRead m k => Sys2Proof.Machine.execCapLoRead m k s
  | .skwTimeLoRead m => Sys2Proof.Machine.execSkwTimeLoRead m s
  | .irqVecRead m => Sys2Proof.Machine.execIrqVecRead m s
  | .irqDone m => Sys2Proof.Machine.execIrqDone m s
  | .dmaStart c => Sys2Proof.Machine.execDmaStart c s
  | .dmaStop c => Sys2Proof.Machine.execDmaStop c s
  | .dmaCountClear c => Sys2Proof.Machine.execDmaCountClear c s
  | .descriptorFetch c bad => Sys2Proof.Machine.execDescriptorFetch c bad s
  | .burst => Sys2Proof.Machine.execBurst s
  | .burstReadReturn c kind addr => Sys2Proof.Machine.execBurstReadReturn c kind addr s
  | .descriptorComplete c => Sys2Proof.Machine.execDescriptorComplete c s
  | .lateResponse c => Sys2Proof.Machine.execLateResponse c s
  | .chkInit n => Sys2Proof.Machine.execChkInit n s
  | .chkGo n => Sys2Proof.Machine.execChkGo n s
  | .scanDone n err => Sys2Proof.Machine.execScanDone n err s
  | .eccWriteback k => Sys2Proof.Machine.execEccWriteback k s
  | .scrub errs => Sys2Proof.Machine.execScrub errs s
  | .dramTrain => Sys2Proof.Machine.execDramTrain s
  | .dramTrainingDone => Sys2Proof.Machine.execDramTrainingDone s
  | .mr4Sample above => Sys2Proof.Machine.execMr4Sample above s
  | .zqCalibration => Sys2Proof.Machine.execZqCalibration s
  | .dramAccessComplete kind => Sys2Proof.Machine.execDramAccessComplete kind s
  | .maxlatClear => Sys2Proof.Machine.execMaxlatClear s
  | .pciePostedWrite addr bytes => Sys2Proof.Machine.execPciePostedWrite addr bytes s
  | .pcieReadRequest addr bytes tag => Sys2Proof.Machine.execPcieReadRequest addr bytes tag s
  | .pcieCompletion => Sys2Proof.Machine.execPcieCompletion s
  | .perstLow => Sys2Proof.Machine.execPerstLow s
  | .hotReset => Sys2Proof.Machine.execHotReset s
  | .functionLevelReset => Sys2Proof.Machine.execFunctionLevelReset s
  | .spiWrite addr words part => Sys2Proof.Machine.execSpiWrite addr words part s
  | .spiRead addr words late bad => Sys2Proof.Machine.execSpiRead addr words late bad s
  | .spiCsRise => Sys2Proof.Machine.execSpiCsRise s
  | .i2cWrite addr v pec => Sys2Proof.Machine.execI2cWrite addr v pec s
  | .i2cRead addr bad => Sys2Proof.Machine.execI2cRead addr bad s
  | .i2cTimeout => Sys2Proof.Machine.execI2cTimeout s
  | .qspiGo => Sys2Proof.Machine.execQspiGo s
  | .qspiDone bytes => Sys2Proof.Machine.execQspiDone bytes s
  | .uartDataWrite v => Sys2Proof.Machine.execUartDataWrite v s
  | .uartDataRead m => Sys2Proof.Machine.execUartDataRead m s
  | .uartRxByte v => Sys2Proof.Machine.execUartRxByte v s
  | .provision => Sys2Proof.Machine.execProvision s
  | .attest => Sys2Proof.Machine.execAttest s
  | .cmdSetPolicy => Sys2Proof.Machine.execCmdSetPolicy s
  | .cmdClearTamper => Sys2Proof.Machine.execCmdClearTamper s
  | .deploy sigOk => Sys2Proof.Machine.execDeploy sigOk s
  | .service sigOk => Sys2Proof.Machine.execService sigOk s
  | .boathouse sigOk => Sys2Proof.Machine.execBoathouse sigOk s
  | .addKey sigOk => Sys2Proof.Machine.execAddKey sigOk s
  | .revokeKey sigOk => Sys2Proof.Machine.execRevokeKey sigOk s
  | .tokenSetPolicy sigOk => Sys2Proof.Machine.execTokenSetPolicy sigOk s
  | .setTamper sigOk => Sys2Proof.Machine.execSetTamper sigOk s
  | .tokenClearTamper sigOk => Sys2Proof.Machine.execTokenClearTamper sigOk s
  | .keys sigOk plain => Sys2Proof.Machine.execKeys sigOk plain s
  | .release sigOk => Sys2Proof.Machine.execRelease sigOk s
  | .scrap sigOk => Sys2Proof.Machine.execScrap sigOk s
  | .trustCmdComplete sigOk plain => Sys2Proof.Machine.execTrustCmdComplete sigOk plain s
  | .tamperFire k => Sys2Proof.Machine.execTamperFire k s
  | .serialLoRead m => Sys2Proof.Machine.execSerialLoRead m s
  | .rdDataRead m => Sys2Proof.Machine.execRdDataRead m s
  | .modeChange => Sys2Proof.Machine.execModeChange s
  | .windDownEnd => Sys2Proof.Machine.execWindDownEnd s
  | .wake took dir => Sys2Proof.Machine.execWake took dir s
  | .wakeTimer => Sys2Proof.Machine.execWakeTimer s
  | .gtio1Wake => Sys2Proof.Machine.execGtio1Wake s
  | .tempSample t => Sys2Proof.Machine.execTempSample t s
  | .powerOnReset b => Sys2Proof.Machine.execPowerOnReset b s
  | .supplyMonitorReset => Sys2Proof.Machine.execSupplyMonitorReset s
  | .warmReset => Sys2Proof.Machine.execWarmReset s
  | .warm m => Sys2Proof.Machine.execWarm m s
  | .warmResetComplete => Sys2Proof.Machine.execWarmResetComplete s
  | .adcConversionEnd uv => Sys2Proof.Machine.execAdcConversionEnd uv s
  | .supplySample mv => Sys2Proof.Machine.execSupplySample mv s
  | .sliceEnd k fault => Sys2Proof.Machine.execSliceEnd k fault s
  | .passStart => Sys2Proof.Machine.execPassStart s
  | .full => Sys2Proof.Machine.execFull s
  | .fullRunDone failed => Sys2Proof.Machine.execFullRunDone failed s
  | .struct => Sys2Proof.Machine.execStruct s
  | .registerWrite m addr v => Sys2Proof.Machine.execRegisterWrite m addr v s
  | .counterInputEdge n stamp => Sys2Proof.Machine.execCounterInputEdge n stamp s
  | .frameOfOtherType h => Sys2Proof.Machine.execFrameOfOtherType h s
  | .dramRefresh => Sys2Proof.Machine.execDramRefresh s
  | .perstRise => Sys2Proof.Machine.execPerstRise s
  | .porstNLow => Sys2Proof.Machine.execPorstNLow s
  | .pcieLinkStateChange up speed width l1 => Sys2Proof.Machine.execPcieLinkStateChange up speed width l1 s
  | .pcieConfigWrite bme msixEn mask => Sys2Proof.Machine.execPcieConfigWrite bme msixEn mask s
  | .uartByteSent => Sys2Proof.Machine.execUartByteSent s
  | .hostFrameSent n => Sys2Proof.Machine.execHostFrameSent n s
  | .tapInstructionUpdate v => Sys2Proof.Machine.execTapInstructionUpdate v s

end Sys2Proof.Machine
end

