-- ==== Sys2Proof/Safety.lean ====
section
/-!
DEFINITION. Sys2Proof/Safety.lean: the terms in which claims are stated: a command that completes with a given effect, what the
consequences of a command may change, and the invariants of the device.
-/
namespace Sys2Proof.Machine

/-! ### A command completes -/

/-- `i` completes at `s`: it answers the state whose device is `d` with what follows from that in the same TCLK (`aftermath`), the queue
being what it was. -/
def Completes (i : Instr) (s : State) (d : Dev) : Prop := exec i s = .next { s with dev := aftermath s.dev d }

/-- `i` completes at `s`: it answers a next state whose queue is what it was and whose device has the property `P`. -/
def Does (i : Instr) (s : State) (P : Dev → Prop) : Prop := ∃ t, exec i s = .next t ∧ t.pending = s.pending ∧ P t.dev

/-- `i` completes at `s` with an effect, a device before its consequences in the same TCLK, that has the property `P`. -/
def Yields (i : Instr) (s : State) (P : Dev → Prop) : Prop := ∃ d, Completes i s d ∧ P d

/-- Every register field whose key is not in `keys` reads in `e` as in `d`. -/
def Keeps (keys : List Nat) (d e : Dev) : Prop := ∀ f : Field, f.key ∉ keys → e.get f = d.get f

/-- Beside its registers and what the TCLK has seen, `e` differs from `d` at most in what `p` makes alike: `p` overwrites the parts that may
differ. -/
def SameBut (p : Dev → Dev) (d e : Dev) : Prop := p { e with regs := [], cyc := {} } = p { d with regs := [], cyc := {} }

/-! ### Conditions of commands -/

/-- The device is in a stroke and the current TCLK lies before its end: an event of this TCLK passes no catch. -/
def InStroke (s : State) : Prop := s.dev.clock.phase = .run ∧ s.dev.clock.now < s.dev.clock.endAt

/-- Engine `n` is RUNNING with its issue cycle now; nothing it issued is on its way, and no block repeat is in progress. -/
def CeReady (s : State) (n : Nat) : Prop :=
  InStroke s ∧ s.dev.ceTurn n = true ∧ (s.dev.ceAt n).step = false ∧ (s.dev.ceAt n).lands = [] ∧ (s.dev.ceAt n).wheel = [] ∧
  (s.dev.ceAt n).wheelAt = none ∧ (s.dev.ceAt n).tim = [] ∧ bits (s.dev.spec n 13) 0 15 = 0

/-! ### What the consequences of a command may change -/

/-- Fields that `Dev.settle` may write: GOOD, and the gates' configuration, status and counts. -/
def gateKey (k : Nat) : Bool := k == 0x110000 * 32 + 3 || (decide (0x41008 * 32 ≤ k) && decide (k < 0x41200 * 32))

/-- Fields of the interrupt controller that follow sources: pending bits, T[t].STATUS, doorbell data and counts, and the MSI-X PBA. -/
def irqKey (k : Nat) : Bool :=
  (decide (0xb1000 * 32 ≤ k) && decide (k < 0xb1080 * 32)) || (decide (0xb2000 * 32 ≤ k) && decide (k < 0xb3000 * 32) && k / 32 % 0x40 == 0xc)
    || k == 0xb3004 * 32 || (decide (0xb3100 * 32 ≤ k) && decide (k < 0xb3200 * 32)) || k == 0xf0a00 * 32

/-- Fields that the rest of the consequences may write: DMA requests, self-test, and the interrupt fields. -/
def tailKey (k : Nat) : Bool :=
  (decide (0xc0100 * 32 ≤ k) && decide (k < 0xc0500 * 32) && k % 32 == 10) || (decide (0x140000 * 32 ≤ k) && decide (k < 0x140100 * 32)) || irqKey k

/-- Every field that the consequences of a command may write. -/
def afterKey (k : Nat) : Bool := gateKey k || tailKey k

/-- The device without what the consequences of a command may change beside registers: what the TCLK
has seen, interrupts, self-test, DMA requests, fuses. -/
def Dev.rest (d : Dev) : Dev := { d with regs := [], cyc := {}, irq := {}, bist := {}, dma := [] }


/-- Every register field outside `W` and outside the consequences of a command reads in `e` as in `d`, whatever its reset value. -/
def RegsKept (W : Nat → Bool) (d e : Dev) : Prop := ∀ r k, W k = false → afterKey k = false → aget r k e.regs = aget r k d.regs

/-! ### Invariants -/

/-- R200, R203: a gate is OPEN only while every qualification that its configuration selects holds. -/
def GatesSafe (d : Dev) : Prop := ∀ n, n < 8 → d.get (TXG_STATUS_STATE n) = 2 → d.gateQual n = true

/-- R205: TXG.STATUS.TXINH shows what drives TXINH_N low: a selected gate that is not OPEN, or a test instruction of the TAP. -/
def InhibitShown (d : Dev) : Prop := d.on TXG_ALL_STATUS_TXINH = d.txinh

/-- R398: T[t].STATUS.CAND of every target shows its candidate. -/
def CandidatesShown (d : Dev) : Prop := ∀ t, t < 11 → d.get (IRQ_T_STATUS_CAND t) = d.candidate t

/-- The invariant that every step keeps. -/
structure Inv (s : State) : Prop where
  gates : GatesSafe s.dev
  inhibit : InhibitShown s.dev
  candidates : CandidatesShown s.dev

end Sys2Proof.Machine
end

