-- ==== Sys2Proof/Certificates/Slice0/Obligations.lean ====
section
/-!
DEFINITION. Sys2Proof/Certificates/Slice0/Obligations.lean: the statements for the provers. Each docstring names the rules of the spec that it
rests on; a statement that rests on a choice of the model says so and names the log entry.
-/
open Sys2Proof Sys2Proof.Machine

/-- The event of `i` takes place: from the device `a` time comes to the instant that `inst` gives, and if the event is still due there, in
the device `b`, the command completes with an effect `d` such that `P b d`. -/
def TakesPlaceFrom (a : Dev) (i : Instr) (s : State) (inst : Dev → Option Nat) (P : Dev → Dev → Prop) : Prop :=
  ∀ t, inst a = some t → (passTo t a).due (inst (passTo t a)) = true → Yields i s (P (passTo t a))

/-- The event of `i` takes place from the state's device. -/
def TakesPlace (i : Instr) (s : State) (inst : Dev → Option Nat) (P : Dev → Dev → Prop) : Prop := TakesPlaceFrom s.dev i s inst P

/-- The event of `i` is due at the catch that ends the stroke: the command completes with that catch. -/
def WithCatch (i : Instr) (s : State) (due : Dev → Bool) : Prop :=
  due (toCatch s.dev) = true → Completes i s (openNext (toCatch s.dev)) ∧ Does i s fun e => e.clock.owed = true

/-- A read command of master `m` completes: it returns `v`, latches the words of `ls` for that master, and has no other effect. -/
def ReadsAs (i : Instr) (s : State) (m : Master) (v : Nat) (ls : List (Nat × Nat)) : Prop :=
  Completes i s ((ls.foldl (fun d x => d.latchTo m x.1 x.2) s.dev).ret m v) ∧
  Does i s fun e => e.lastRead m = v ∧ ∀ x, x ∈ ls → e.latched m x.1 = x.2

/-- For every command and state, a step of the state with the command at the front of its queue is exec of the command on the state with the
rest of the queue. On an empty queue a step is what the device does in one TCLK without a command; a device held in reset stays as it is.
This is the model's choice (log entry 1). (R74, R513) -/
def Obligations.StepsRunCommandsOrOneClock : Prop :=
  (∀ (c : Instr) (rest : List Instr) (s : State), step { s with pending := c :: rest } = exec c { s with pending := rest }) ∧
  (∀ s : State, s.pending = [] →
    (s.dev.clock.phase = .held → step s = .next s) ∧
    (s.dev.clock.phase ≠ .held → step s = .next { s with dev := aftermath s.dev (tick s.dev) }))

/-- Every command, in every state, answers a next state (no fault, no refusal) whose queue is as it was and whose fused values are as they
were. In a device held in reset every command but the power-on reset, the supply monitor reset, PORST_N and the TAP instruction update
leaves the whole state unchanged. (R468, R513, R576) -/
def Obligations.CommandsCompleteAndHeldOnesWait : Prop :=
  (∀ (i : Instr) (s : State), Does i s fun e => e.fused = s.dev.fused) ∧
  (∀ (i : Instr) (s : State), s.dev.clock.phase = .held →
    (∀ b, i ≠ .powerOnReset b) → i ≠ .supplyMonitorReset → i ≠ .porstNLow → (∀ v, i ≠ .tapInstructionUpdate v) → exec i s = .next s)

/-- For every device before and after the effect of a command, the consequences in the same TCLK leave every register field outside the named
keys as it was, and every other part of the device but interrupts, self-test and the channels of the DMA engine; memory reads the same at
every address. This is the frame of every statement that names a whole next device. (R200, R203, R205, R398, R403, R411, R487, R538) -/
def Obligations.ConsequencesChangeOnlyTheirFields : Prop :=
  ∀ b d : Dev, RegsKept (fun _ => false) d (aftermath b d) ∧
    { (aftermath b d).rest with fused := d.fused } = d.rest ∧
    (∀ a, (aftermath b d).mem.byte a = d.mem.byte a) ∧ (aftermath b d).fused = b.fused

/-- Gates, TXINH and the candidates of the interrupt targets satisfy the invariant at reset. (R203, R205, R398) -/
def Obligations.InvariantHoldsAtReset : Prop :=
  Inv State.reset

/-- From every state in which each OPEN gate has every qualification that its configuration selects, TXG.STATUS.TXINH shows whether TXINH_N is
driven low, and every target shows its candidate, a step answers a state in which all of it holds again. (R200, R201, R203, R205, R398) -/
def Obligations.InvariantKeptByEveryStep : Prop :=
  ∀ s t : State, Inv s → step s = .next t → Inv t

/-- STROKE_NO_LO_READ, TIME_SEC_LO_READ, FFO_LO_READ and FREQ_LO_READ return the low word of their value and latch the high words for the
reading master, without another effect. REV_NO_LO_READ, COUNT_LO_READ, ARMED_LO_READ, LEAD_SER_LO_READ, CLK_ID_LO_READ, SERIAL_LO_READ,
PARENT_LO_READ and, in FORERUNNER, SKW_TIME_LO_READ return the low word and latch the high word (PARENT_LO also the parent information),
without another effect. (R9, R47, R48, R77, R95, R115, R150, R348, R371, R494, R508) -/
def Obligations.ReadsLatchTheirHighWords : Prop :=
  (∀ (s : State) (m : Master), s.dev.hostsRun = true →
    ReadsAs (.strokeNoLoRead m) s m (s.dev.clock.strokeNo % 2 ^ 32) [(0x18, s.dev.clock.strokeNo / 2 ^ 32 % 2 ^ 32)] ∧
    ReadsAs (.timeSecLoRead m) s m (s.dev.clock.now / 1000000000 % 2 ^ 32)
      [(0x10014, s.dev.clock.now / 1000000000 / 2 ^ 32 % 2 ^ 16), (0x10018, s.dev.clock.now % 1000000000)] ∧
    ReadsAs (.ffoLoRead m) s m (s.dev.get TB_FFO_LO_FFO_LO % 2 ^ 32) [(0x1004c, signHi (s.dev.get TB_FFO_HI_FFO_HI))] ∧
    ∀ n : Fin 4, ReadsAs (.freqLoRead m n) s m (s.dev.get (TB_OSC_FREQ_LO_FREQ_LO n) % 2 ^ 32)
      [(0x10110 + 0x40 * n, signHi (s.dev.get (TB_OSC_FREQ_HI_FREQ_HI n)))]) ∧
  (∀ (s : State) (m : Master), s.dev.hostsRun = true →
    (∀ n : Fin 8, ReadsAs (.revNoLoRead m n) s m (s.dev.revNow n % 2 ^ 32) [(0x2008c + 0x200 * n, s.dev.revNow n / 2 ^ 32 % 2 ^ 32)]) ∧
    (∀ n : Fin 32, ReadsAs (.countLoRead m n) s m ((s.dev.cntAt n).count % 2 ^ 32) [(0x22018 + 0x80 * n, (s.dev.cntAt n).count / 2 ^ 32)]) ∧
    ReadsAs (.armedLoRead m) s m (s.dev.cox.armed % 2 ^ 32) [(0x3000c, s.dev.cox.armed / 2 ^ 32)] ∧
    ReadsAs (.leadSerLoRead m) s m (s.dev.get CREW_LEAD_SER_LO_LO % 2 ^ 32) [(0x80030, s.dev.get CREW_LEAD_SER_HI_HI)] ∧
    ReadsAs (.clkIdLoRead m) s m (s.dev.fused.clockId % 2 ^ 32) [(0x90208, s.dev.fused.clockId / 2 ^ 32 % 2 ^ 32)] ∧
    ReadsAs (.serialLoRead m) s m (s.dev.fused.serial % 2 ^ 32) [(0x110008, s.dev.fused.serial / 2 ^ 32 % 2 ^ 32)] ∧
    (∀ n : Fin 4, ReadsAs (.parentLoRead m n) s m (s.dev.get (ETH_PARENT_LO_ID_LO n) % 2 ^ 32)
      [(0x9003c + 0x4000 * n, s.dev.get (ETH_PARENT_HI_ID_HI n)),
       (0x90040 + 0x4000 * n, s.dev.get (ETH_PARENT_INFO_GM_CLASS n) + 256 * s.dev.get (ETH_PARENT_INFO_STEPS n)
         + 65536 * s.dev.get (ETH_PARENT_INFO_PORT_NO n))]) ∧
    (s.dev.mode = 4 → ReadsAs (.skwTimeLoRead m) s m (s.dev.clock.now % 2 ^ 32) [(0x160808, s.dev.clock.now / 2 ^ 32 % 2 ^ 32)]))

/-- SPLIT_POP of a tracker, a counter, or a channel that does not stream to DMA returns word 7 of the head split (0 from an empty FIFO) and
removes the head from that FIFO alone; a channel that streams to DMA reads 0 and keeps its FIFO. (R121, R122, R173, R178) -/
def Obligations.SplitReadPopsTheHead : Prop :=
  ∀ (s : State) (m : Master), s.dev.hostsRun = true →
    (∀ n : Fin 8, Completes (.splitPop m (.trk n)) s
      ((s.dev.putTrk n { s.dev.trkAt n with fifo := (s.dev.trkAt n).fifo.pop }).ret m ((s.dev.trkAt n).fifo.peek 7 % 2 ^ 32))) ∧
    (∀ n : Fin 32, Completes (.splitPop m (.cnt n)) s
      ((s.dev.putCnt n { s.dev.cntAt n with fifo := (s.dev.cntAt n).fifo.pop }).ret m ((s.dev.cntAt n).fifo.peek 7 % 2 ^ 32))) ∧
    (∀ n : Fin 256, s.dev.on (CH_SPLIT_CFG_STREAM n) = true → Completes (.splitPop m (.ch n)) s (s.dev.ret m 0)) ∧
    (∀ n : Fin 256, s.dev.on (CH_SPLIT_CFG_STREAM n) = false → Yields (.splitPop m (.ch n)) s fun d =>
      d.lastRead m = (s.dev.chAt n).fifo.peek 7 % 2 ^ 32 ∧ (d.chAt n).fifo.items = (s.dev.chAt n).fifo.items.tail ∧
      (∀ k, k ≠ n.val → d.chAt k = s.dev.chAt k) ∧ d.get (CH_STATUS_FIFO_DEPTH n) = ((s.dev.chAt n).fifo.items.length - 1) % 2 ^ (CH_STATUS_FIFO_DEPTH n).w)

/-- ACK of target 0 or 1, and IRQ_VEC_READ in FORERUNNER for target 0: with a candidate the read returns its number (ACK also its PRIO), its
priority is pushed onto the target stack, the other stacks stay, and its pending bit is clear afterwards when it is EDGE and has not risen
again in this TCLK; without one the read returns 1,023 (255 for IRQ_VEC), leaves the stacks and, of ACK, counts a spurious claim. ACK of
another target returns 1,023 without an effect. Each comes after the insertions and wheel accesses of its TCLK. (R399, R400, R407, R507) -/
def Obligations.ClaimReturnsTheCandidate : Prop :=
  ∀ (s : State) (m : Master), s.dev.hostsRun = true →
    let b := busFirst s.dev
    (∀ t : Fin 11, t.val < 2 → b.candidate t ≠ 1023 → Yields (.ack m t) s fun d =>
      d.lastRead m = b.candidate t + 1024 * b.get (IRQ_SRC_CFG_PRIO (b.candidate t)) ∧
      d.irqStack t = b.srcPrio (b.candidate t) :: b.irqStack t ∧ (∀ k, k ≠ t.val → d.irqStack k = b.irqStack k) ∧
      (b.edgeSense (b.candidate t) = true → b.raisedNow (b.candidate t) = false → d.pend (b.candidate t) = false)) ∧
    (∀ t : Fin 11, t.val < 2 → b.candidate t = 1023 → Yields (.ack m t) s fun d =>
      d.lastRead m = 1023 ∧ d.irq.prios = b.irq.prios ∧
      d.get (IRQ_T_COUNTS_SPURIOUS_CNT t) = (b.inc (IRQ_T_COUNTS_SPURIOUS_CNT t)).get (IRQ_T_COUNTS_SPURIOUS_CNT t)) ∧
    (∀ t : Fin 11, 2 ≤ t.val → Completes (.ack m t) s (b.ret m 1023)) ∧
    (b.mode = 4 → b.candidate 0 ≠ 1023 → Yields (.irqVecRead m) s fun d =>
      d.lastRead m = b.candidate 0 ∧ d.irqStack 0 = 0 :: b.irqStack 0) ∧
    (b.mode = 4 → b.candidate 0 = 1023 → Yields (.irqVecRead m) s fun d => d.lastRead m = 255 ∧ d.irq.prios = b.irq.prios)

/-- EOI of a target, and IRQ_DONE of target 0 in FORERUNNER: on an empty stack the only effect is the count of EOI_EMPTY_CNT, which saturates;
otherwise the top of the stack of that target is removed and the other stacks stay. Outside FORERUNNER IRQ_DONE counts as an access to an
unmapped address. (R401) -/
def Obligations.EndOfInterruptPopsTheStack : Prop :=
  ∀ s : State, s.dev.hostsRun = true →
    let b := busFirst s.dev
    (∀ t : Fin 11, b.irqStack t = [] → Completes (.eoi t) s (b.inc (IRQ_T_COUNTS_EOI_EMPTY_CNT t))) ∧
    (∀ (t : Fin 11) (p : Nat) (r : List Nat), b.irqStack t = p :: r → Yields (.eoi t) s fun d =>
      d.irqStack t = r ∧ ∀ k, k ≠ t.val → d.irqStack k = b.irqStack k) ∧
    (∀ (m : Master) (p : Nat) (r : List Nat), b.mode = 4 → b.irqStack 0 = p :: r → Yields (.irqDone m) s fun d => d.irqStack 0 = r) ∧
    (∀ m : Master, b.mode = 4 → b.irqStack 0 = [] → Completes (.irqDone m) s (b.inc (IRQ_T_COUNTS_EOI_EMPTY_CNT 0))) ∧
    (∀ m : Master, b.mode ≠ 4 → Completes (.irqDone m) s (unmapped m b))

/-- SOURCE_PENDING of a source with a change or ring on its way: device time comes to its instant, and nothing that is due then stays
undelivered. What a delivery does: of a line change, LEVEL follows the line and EDGE keeps a rise; of a ring, the pending bit is set,
DB_DATA shows datum and ringer, and a bit that was set already counts OVR_CNT; the other pending bits stay. A source without one has no
effect. DB_RING of a host interface, or of an engine whose permission bit is set, queues a ring for 5 TCLK later with its datum and
ringer; of an engine without permission it counts DENIED_CNT and queues nothing. (R299, R396, R405) -/
def Obligations.LinesRingsAndDoorbellsReachPending : Prop :=
  ((∀ (s : State) (n : Fin 1024), s.dev.clock.phase ≠ .held →
    (s.dev.sourceAt n = none → Completes (.sourcePending n) s s.dev) ∧
    (∀ t : Nat, s.dev.sourceAt n = some t → Completes (.sourcePending n) s (passTo t s.dev) ∧
      ((passTo t s.dev).clock.phase = .run → Does (.sourcePending n) s fun e =>
        (∀ c, c ∈ e.irq.chg → (passTo t s.dev).clock.now < c.at_) ∧ ∀ r, r ∈ e.irq.rings → (passTo t s.dev).clock.now < r.at_))) ∧
  (∀ (d : Dev) (t : Nat) (c : LineChg), (d.irq.chg.filter fun x => decide (x.at_ ≤ t)) = [c] → (d.irq.rings.filter fun x => decide (x.at_ ≤ t)) = [] →
    c.src < 960 → let e := irqDeliver t d
      e.pend c.src = (if d.edgeSense c.src then d.pend c.src || c.up else c.up) ∧ ∀ k, k < 1024 → k ≠ c.src → e.pend k = d.pend k) ∧
  ∀ (d : Dev) (t : Nat) (r : Ring), (d.irq.chg.filter fun x => decide (x.at_ ≤ t)) = [] → (d.irq.rings.filter fun x => decide (x.at_ ≤ t)) = [r] →
    r.idx ≤ 62 → let e := irqDeliver t d
      e.pend (960 + r.idx) = true ∧ (∀ k, k < 1024 → k ≠ 960 + r.idx → e.pend k = d.pend k) ∧
      e.get (IRQ_DB_DATA_DATUM r.idx) = r.datum % 2 ^ 16 ∧ e.get (IRQ_DB_DATA_RINGER r.idx) = r.ringer % 2 ^ (IRQ_DB_DATA_RINGER r.idx).w ∧
      e.get IRQ_DB_COUNTS_OVR_CNT = (if d.pend (960 + r.idx) then d.inc IRQ_DB_COUNTS_OVR_CNT else d).get IRQ_DB_COUNTS_OVR_CNT) ∧
  (∀ (s : State) (idx : BitVec 6) (v : BitVec 32), s.dev.hostsRun = true →
    let b := busFirst s.dev
    let rung (d : Dev) (who : Nat) : Prop := d.regs = b.regs ∧
      ∀ r, r ∈ d.irq.rings ↔ r ∈ b.irq.rings ∨ r = ⟨b.clock.now + 5, min idx.toNat 62, v.toNat % 65536, who⟩
    (∀ k : Nat, k < 8 → bit b.rig.bells k = true → Yields (.dbRing (.ce k) idx v) s fun d => rung d (8 + k)) ∧
    (∀ k : Nat, k < 8 → bit b.rig.bells k = false → Completes (.dbRing (.ce k) idx v) s (b.inc IRQ_DB_COUNTS_DENIED_CNT)) ∧
    (Yields (.dbRing .pcie idx v) s fun d => rung d 0) ∧ (Yields (.dbRing .spi idx v) s fun d => rung d 1) ∧
    (Yields (.dbRing .i2c idx v) s fun d => rung d 2))

/-- PEND_CLEAR of word i with value v clears the pending bit of each existing EDGE source whose bit is 1 in v, but for one that has become
pending in this TCLK; every other source keeps its pending bit. MSIX_MESSAGE: at the instant of the first message waiting, with MSI-X
enabled and the vector open, address and data of the vector leave and the PBA bit is 0; masked, the PBA bit is 1 and nothing leaves.
VCTRL_WRITE with mask 1 sets the mask bit and sends nothing; with mask 0 it clears it and sends the message of a vector whose PBA bit is
the only one set. (R396, R402, R454) -/
def Obligations.EdgeClearsAndMessages : Prop :=
  (∀ (s : State) (i : Fin 32) (v : BitVec 32), s.dev.hostsRun = true →
    let b := busFirst s.dev
    Yields (.pendClear i v) s fun d => ∀ n : Nat, n < 1024 → d.pend n =
      (b.pend n && !(decide (n / 32 = i.val) && bit v.toNat (n % 32) && b.edgeSense n && srcExists n && !b.raisedNow n))) ∧
  (∀ (s : State), (s.dev.tclkRuns = true → TakesPlace .msixMessage s (fun d => (d.irq.msi.head?).map fun x => x.1) fun b d =>
      ∀ (t : Nat) (v : Fin 32) (r : List (Nat × Nat)), b.irq.msi = (t, v.val) :: r → b.on HOST_PCIE_STAT_MSIX_EN = true → d.irq.msi = r ∧
        (b.msixOpen v = true → bit (d.get HOST_MSIX_PBA_PEND) v = false ∧ d.irq.msiOut =
          [(b.get (HOST_MSIX_ADDR_LO_ADDR_LO v) + 2 ^ 32 * b.get (HOST_MSIX_ADDR_HI_ADDR_HI v), b.get (HOST_MSIX_DATA_DATA v))]) ∧
        (b.msixOpen v = false → bit (d.get HOST_MSIX_PBA_PEND) v = true ∧ d.irq.msiOut = b.irq.msiOut)) ∧
    (s.dev.hostsRun = true → ∀ v : Fin 32, let b := busFirst s.dev
      (Yields (.vctrlWrite v true) s fun d => d.on (HOST_MSIX_VCTRL_MASK v) = true ∧
        (b.get HOST_MSIX_PBA_PEND = 0 → d.irq = b.irq)) ∧
      (b.get HOST_MSIX_PBA_PEND = 2 ^ v.val → b.on HOST_PCIE_STAT_MSIX_EN = true → b.on HOST_PCIE_STAT_BME = true →
        b.on HOST_PCIE_STAT_FUNC_MASK = false → Yields (.vctrlWrite v false) s fun d =>
          d.on (HOST_MSIX_VCTRL_MASK v) = false ∧ d.get HOST_MSIX_PBA_PEND = 0 ∧ d.irq.msiOut =
            [(b.get (HOST_MSIX_ADDR_LO_ADDR_LO v) + 2 ^ 32 * b.get (HOST_MSIX_ADDR_HI_ADDR_HI v), b.get (HOST_MSIX_DATA_DATA v))])))

/-- UART_DATA_WRITE appends a byte to the transmit FIFO, UART_RX_BYTE to the receive FIFO, UART_DATA_READ returns the receive head with VALID
and removes it (0 from an empty FIFO), UART_BYTE_SENT removes the transmit head; a byte that finds 16 waiting is discarded and only its
counter changes. RD_DATA_READ from 0x080000 to the end of the stored region returns the stored word; OFFSET moves on by 4 and wraps at 4
MiB; the key store region from 0x070000 to 0x080000 reads 0; no other register changes. (R466, R495) -/
def Obligations.UartFifosAndLogbookReads : Prop :=
  (∀ s : State, s.dev.hostsRun = true →
    let w := busFirst s.dev
    (∀ v : BitVec 8, 16 ≤ w.host.uartTx.length → Completes (.uartDataWrite v) s (w.inc HOST_UART_STAT_TX_DROP_CNT)) ∧
    (∀ v : BitVec 8, w.host.uartTx.length < 16 → Yields (.uartDataWrite v) s fun d =>
      d.host = { w.host with uartTx := w.host.uartTx ++ [v.toNat] } ∧ d.get HOST_UART_STAT_TX_LEVEL = w.host.uartTx.length + 1 ∧
      Keeps [HOST_UART_STAT_TX_LEVEL.key, HOST_UART_STAT_RX_LEVEL.key] w d ∧ SameBut (fun x => { x with host := {} }) w d) ∧
    (∀ v : BitVec 8, 16 ≤ s.dev.host.uartRx.length → Completes (.uartRxByte v) s (s.dev.inc HOST_UART_STAT_RX_OVR_CNT)) ∧
    (∀ v : BitVec 8, s.dev.host.uartRx.length < 16 → Yields (.uartRxByte v) s fun d =>
      d.host = { s.dev.host with uartRx := s.dev.host.uartRx ++ [v.toNat] } ∧ d.get HOST_UART_STAT_RX_LEVEL = s.dev.host.uartRx.length + 1 ∧
      Keeps [HOST_UART_STAT_TX_LEVEL.key, HOST_UART_STAT_RX_LEVEL.key] s.dev d ∧ SameBut (fun x => { x with host := {} }) s.dev d) ∧
    (∀ (m : Master) (b : Nat) (r : List Nat), s.dev.host.uartRx = b :: r → Yields (.uartDataRead m) s fun d =>
      d.lastRead m = (b + 256) % 2 ^ 32 ∧ d.host = { s.dev.host with uartRx := r }) ∧
    (∀ m : Master, s.dev.host.uartRx = [] → Completes (.uartDataRead m) s (s.dev.ret m 0)) ∧
    Yields .uartByteSent s fun d => d.host = { s.dev.host with uartTx := s.dev.host.uartTx.tail } ∧
      Keeps [HOST_UART_STAT_TX_LEVEL.key, HOST_UART_STAT_RX_LEVEL.key] s.dev d) ∧
  (∀ (s : State) (m : Master), s.dev.hostsRun = true →
    (0x080000 ≤ s.dev.get LOG_RD_ADDR_OFFSET → Yields (.rdDataRead m) s fun d => d.lastRead m = s.dev.log.mem.read (s.dev.get LOG_RD_ADDR_OFFSET) 4 % 2 ^ 32) ∧
    (0x070000 ≤ s.dev.get LOG_RD_ADDR_OFFSET → s.dev.get LOG_RD_ADDR_OFFSET < 0x080000 → Yields (.rdDataRead m) s fun d => d.lastRead m = 0) ∧
    (Yields (.rdDataRead m) s fun d => d.get LOG_RD_ADDR_OFFSET = (s.dev.get LOG_RD_ADDR_OFFSET + 4) % 0x400000 ∧
      Keeps [LOG_RD_ADDR_OFFSET.key] s.dev d ∧ SameBut (fun x => { x with readOut := [], fresh := 0 }) s.dev d))

/-- Keel's service `k`, asked for, comes to its end in the device `b`, with nothing to install and no patch or overflow in its way: the
command completes with an effect `d` such that `P b d`. -/
def ServiceEnds (i : Instr) (s : State) (k : KeelSvc) (P : Dev → Dev → Prop) : Prop :=
  s.dev.hostsRun = true → s.dev.keelAsked k = true → ∀ b, passUntil (fun d => d.keelEnds k) 1000000 s.dev = some b →
    b.keel.install = false → Yields i s (P b)

/-- Beside registers, `e` differs from `d` at most in the timebase, the logbook, Keel and the count of free values. -/
def tbKeel (d : Dev) : Dev := { d with tb := {}, log := {}, keel := {}, cyc := {}, fresh := 0 }

/-- CATCH of a device that runs completes with the catch that ends the stroke: the new stroke opens at the end of the old one, displaced by a
step due there; its number is that time divided by the stroke period then in effect, rounded down; without a step it ends one period
later. (R9, R20, R22, R30) -/
def Obligations.CatchOpensTheNextStroke : Prop :=
  ∀ s : State, s.dev.tclkRuns = true →
    let b := toCatch s.dev
    Completes .strokeCatch s (openNext b) ∧
    (b.tclkRuns = true → b.clock.endAt ≤ b.clock.now + 1 → Does .strokeCatch s fun e =>
      e.clock.openAt = b.catchTime ∧ e.clock.strokeNo = e.clock.openAt / e.period ∧ e.clock.owed = true ∧
      (b.stepDue = none → e.clock.openAt = b.clock.endAt ∧ e.clock.endAt = e.clock.openAt + e.period) ∧
      (∀ k : Int, b.stepDue = some k → e.clock.openAt = ((b.clock.endAt : Int) + k).toNat))

/-- PERIOD_CHANGE, MODE_CHANGE, FFO_APPLY, OSC_RETURN, TIME_STEP, TB_STATE_CHANGE, LEAP_SECOND, CNT_GATE, ROLL_CALL_ROUND, ROLL_CALL_COMPLETE,
CC_DECISION, RA_TIMEOUT, SYNC_LAUNCH, ANNOUNCE_LAUNCH, ESMC_INFO_PDU, IDLE_FLUSH and PTP_MEASUREMENT_TOOTH complete with the catch that
ends the stroke when their event is due at it. When the coming catch begins a starvation, rejects a gate request, starts an engine or a
pin engine, ends a pull-in, takes a port down or ends an election, the command of that name completes with it and the state shows it:
STARVED is 1, the gate is CLOSED, the engine is RUNNING (so is the pin engine), PULLING is 0, the port is DOWN, the role is no longer
ELECTING. (R28, R48, R65, R72, R118, R179, R203, R208, R273, R319, R329, R344) -/
def Obligations.EventsOfTheCatch : Prop :=
  (∀ s : State, s.dev.tclkRuns = true →
    WithCatch .periodChange s Dev.periodDue ∧ WithCatch .modeChange s Dev.modeDue ∧ WithCatch .ffoApply s (fun d => d.tb.out.isSome) ∧
    (∀ n : Fin 4, WithCatch (.oscReturn n) s fun d => d.oscReturns d.catchTime n) ∧ WithCatch .timeStep s (fun d => d.stepDue.isSome) ∧
    WithCatch .tbStateChange s (fun d => d.tb.change.isSome) ∧ WithCatch .leapSecond s (fun d => d.leapDue d.catchTime) ∧
    (∀ n : Fin 32, WithCatch (.cntGate n) s fun d => d.cntGateDue n) ∧ WithCatch .rollCallRound s Dev.rollRoundDue ∧
    WithCatch .rollCallComplete s Dev.rollDue ∧ WithCatch .ccDecision s Dev.decisionDue ∧ WithCatch .raTimeout s Dev.raTimeoutDue ∧
    (∀ n : Fin 4, WithCatch (.syncLaunch n) s fun d => d.syncDue n) ∧ (∀ n : Fin 4, WithCatch (.announceLaunch n) s fun d => d.annDue n) ∧
    (∀ n : Fin 4, WithCatch (.esmcInfoPdu n) s fun d => d.infoDue n) ∧ (∀ n : Fin 32, WithCatch (.idleFlush n) s fun d => d.idleDue n) ∧
    (∀ n : Fin 4, WithCatch (.ptpMeasurementTooth n) s fun d => d.measAtCatch n)) ∧
  (∀ s : State, s.dev.tclkRuns = true →
    let b := toCatch s.dev
    let c := openNext b
    (∀ n : Fin 256, b.on (CH_STATUS_STARVED n) = false → c.on (CH_STATUS_STARVED n) = true →
      Completes (.starve n) s c ∧ Does (.starve n) s fun e => e.on (CH_STATUS_STARVED n) = true) ∧
    (∀ n : Fin 8, b.get (TXG_STATUS_STATE n) = 1 → c.get (TXG_STATUS_STATE n) = 0 →
      Completes (.gateTimeout n) s c ∧ Does (.gateTimeout n) s fun e => e.get (TXG_STATUS_STATE n) = 0) ∧
    (∀ n : Fin 8, b.get (CE_STATUS_RUN n) = 0 ∨ b.get (CE_STATUS_RUN n) = 6 → c.get (CE_STATUS_RUN n) = 1 →
      Completes (.ceStart n) s c ∧ Does (.ceStart n) s fun e => e.get (CE_STATUS_RUN n) = 1) ∧
    (∀ n : Fin 32, b.get (PE_STATUS_RUN n) = 0 ∨ b.get (PE_STATUS_RUN n) = 3 → c.get (PE_STATUS_RUN n) = 1 →
      Completes (.peStart n) s c ∧ Does (.peStart n) s fun e => e.get (PE_STATUS_RUN n) = 1) ∧
    (∀ n : Fin 8, b.on (TRK_STATE_PULLING n) = true → c.on (TRK_STATE_PULLING n) = false →
      Completes (.pullInDone n) s c ∧ Does (.pullInDone n) s fun e => e.on (TRK_STATE_PULLING n) = false) ∧
    (∀ k : Fin 4, 2 ≤ b.pstate k → c.pstate k = 0 → Completes (.timingLoss k) s c ∧ Does (.timingLoss k) s fun e => e.pstate k = 0) ∧
    (b.get CREW_STATUS_ROLE = 3 → c.get CREW_STATUS_ROLE ≠ 3 →
      Completes .electionEnd s c ∧ Does .electionEnd s fun e => e.get CREW_STATUS_ROLE ≠ 3))

/-- For every device in the catch cycle: a waiting period takes effect on a whole second; a permitted change of TARGET that leaves the period
alone changes the mode; the output of the last filter update becomes FFO and OFFSET; a timebase change becomes STATE and ETE_VALID; a leap
second that is due adds 1 to the UTC offset, or takes 1 from it, and ends PENDING; a counter gate without edges clears VALID and sets
NO_SIGNAL, one that a step touched leaves every register alone; a channel whose idle count reaches LIMIT is STARVED; a PENDING gate opens
when qualified and closes at its time-out. (R28, R48, R65, R67, R72, R119, R120, R179, R202, R203, R497) -/
def Obligations.TheCatchAppliesWhatIsDue : Prop :=
  (∀ (d : Dev) (wake : Bool) (q : Nat), d.clock.nextPeriod = some q → onSecond d.clock.now = true → d.pwr.trip = false →
    d.get PWR_MODE_TARGET = d.mode → (periodMode wake d).period = clampPeriod d.mode q % 2 ^ SYS_STROKE_CFG_PERIOD_NS.w ∧
      (periodMode wake d).clock.nextPeriod = none ∧ (periodMode wake d).mode = d.mode) ∧
  (∀ (d : Dev) (wake : Bool) (m : Nat), d.clock.nextPeriod = none → d.pwr.trip = false → d.get PWR_MODE_TARGET = m → m ≠ d.mode → 1 ≤ m →
    m ≤ 4 → d.modePermitted m false = true → clampPeriod m d.period = d.period → (periodMode wake d).mode = m ∧
      (periodMode wake d).on PWR_IRQ_STAT_MODE = true ∧ (periodMode wake d).clock.modeWait = false) ∧
  (∀ (d : Dev) (o : FilterOut), d.tb.out = some o → (ffoApply d).get TB_FFO_LO_FFO_LO + 2 ^ 32 * (ffoApply d).get TB_FFO_HI_FFO_HI =
      ofSigned 48 o.ffo % 2 ^ 48 ∧ (ffoApply d).on TB_STATUS_FFO_LIMIT = o.limited ∧ (ffoApply d).tb.out = none ∧
      (ffoApply d).get TB_OFFSET_NS_OFFSET = ofSigned 32 (satS 32 o.offset) % 2 ^ 32 ∧ (ffoApply d).get TB_STATUS_STATE = d.get TB_STATUS_STATE) ∧
  (∀ (d : Dev) (c : TbChange), d.tb.change = some c → c.state ≤ 4 → (tbStateApply d).get TB_STATUS_STATE = c.state ∧
    (tbStateApply d).on TB_STATUS_ETE_VALID = (c.state != 0) ∧ (tbStateApply d).tb.change = none ∧
    (c.state ≠ d.get TB_STATUS_STATE → (tbStateApply d).on TB_IRQ_STAT_STATE = true)) ∧
  (∀ d : Dev, d.leapDue d.clock.now = true → (leapSecond d).on TB_LEAP_CFG_PENDING = false ∧
    (leapSecond d).get TB_UTC_OFFSET_OFFSET_S = ofSigned TB_UTC_OFFSET_OFFSET_S.w (if d.on TB_LEAP_CFG_DIR then d.gets TB_UTC_OFFSET_OFFSET_S - 1
      else d.gets TB_UTC_OFFSET_OFFSET_S + 1) % 2 ^ TB_UTC_OFFSET_OFFSET_S.w) ∧
  (∀ (d : Dev) (n : Nat), n < 32 → (d.cntAt n).gateFrom.isSome = true →
    ((d.cntAt n).gateBad = true → (cntGateClose n d).regs = d.regs ∧ (cntGateClose n d).cntAt n =
      { d.cntAt n with gateFrom := none, edges := 0, tFirst := none, tLast := none, gateBad := false }) ∧
    ((d.cntAt n).gateBad = false → (d.cntAt n).edges = 0 → (cntGateClose n d).on (CNT_STATUS_VALID n) = false ∧
      (cntGateClose n d).on (CNT_STATUS_NO_SIGNAL n) = true ∧ (cntGateClose n d).on (CNT_IRQ_STAT_GATE n) = true)) ∧
  (∀ (d : Dev) (n : Nat), n < 256 → d.chIdle n = true → d.get (CH_STARVE_LIMIT n) ≠ 0 → (d.chAt n).starve + 1 = d.get (CH_STARVE_LIMIT n) →
    (starveCatch n d).on (CH_STATUS_STARVED n) = true ∧ (starveCatch n d).on (CH_IRQ_STAT_STARVE n) = true) ∧
  (∀ (d : Dev) (n : Nat), n < 8 → d.get (TXG_STATUS_STATE n) = 1 →
    (d.gateQual n = true → gatePending n d = d.set (TXG_STATUS_STATE n) 2) ∧
    (d.gateQual n = false → d.clock.now < (d.gateAt n).reqAt + d.get (TXG_CFG_TIMEOUT_MS n) * 1000000 → gatePending n d = d) ∧
    (d.gateQual n = false → (d.gateAt n).reqAt + d.get (TXG_CFG_TIMEOUT_MS n) * 1000000 ≤ d.clock.now →
      (gatePending n d).get (TXG_STATUS_STATE n) = 0 ∧ (gatePending n d).on (TXG_STATUS_LAST_REJECT n) = true))

/-- FILTER_UPDATE at the end of its service: TB.FFO, the timebase state and the clock stay as they are, and an output is left whose FFO lies
in ±36,028,797,018,964 units and whose steering part lies within SLEW_LIMIT; without a qualified reference its offset is OFFSET as it
stands (the computed frequency and offset are free values, log entry 10). Where the multiply-accumulate unit overflows, which is a free
value too, MAC_OVF is counted with cause 3 and its results are discarded. In MOORED the command is the next whole second. OSC_FAULT of an
enabled oscillator marks it faulty, starts its 60 s anew, leaves every register and the other oscillators alone, and moves the DCO to its
internal reference when it is the carrier; of one that is not enabled it has no effect. At a catch an oscillator returns exactly when it
is enabled and its 60 s have passed, and the return puts it back into the ensemble and clears FAULT. TIME_SET_GO in FREE notes the
requested time and the instant and asks Keel for the service, in another state sets TSET_REJECT alone. TIME_SET and CARRIER_CHANGE at the
end of their services mark the request as served, so that the next catch applies it; no register changes. MODEL_SAVE at the end of its
service stores each model that an oscillator has, with its MODEL_ID, in the logbook. MODEL_CLEAR leaves no oscillator with a model, VALID,
RESTORED, SPAN and AGE at 0, and the logbook without models. (R48, R49, R50, R52, R53, R58, R59, R60, R64, R375, R379) -/
def Obligations.TimeModelsAndFilterUpdates : Prop :=
  (∀ s : State,
    (ServiceEnds .filterUpdate s .filterUpdate fun b d => ∀ u, b.tb.upd = some u → b.keel.frames.length < 8 →
      (if Config.macOverflow b.fresh then d.tb.out = b.tb.out ∧ d.on KEEL_STATUS_RESTARTED = b.on KEEL_STATUS_RESTARTED ∧ d.get KEEL_FAULT_CAUSE = 3
        else ∃ o, d.tb.out = some o ∧ -36028797018964 ≤ o.ffo ∧ o.ffo ≤ 36028797018964 ∧ -(b.slewLimit : Int) ≤ o.steer ∧ o.steer ≤ b.slewLimit ∧
          (u.refs = [] → o.offset = b.gets TB_OFFSET_NS_OFFSET)) ∧ d.tb.upd = none ∧
      d.get TB_FFO_LO_FFO_LO = b.get TB_FFO_LO_FFO_LO ∧ d.get TB_FFO_HI_FFO_HI = b.get TB_FFO_HI_FFO_HI ∧
      d.get TB_STATUS_STATE = b.get TB_STATUS_STATE ∧ d.clock = b.clock) ∧
    (s.dev.clock.phase = .moored → Completes .filterUpdate s (passTo s.dev.boundary s.dev))) ∧
  ((∀ (s : State) (n : Fin 4), s.dev.clock.phase ≠ .held →
    (s.dev.on (TB_OSC_CFG_ENABLE n) = true → Yields (.oscFault n) s fun d =>
      (d.oscAt n).faulty = true ∧ (d.oscAt n).clearSince = some s.dev.clock.now ∧ (∀ k, k ≠ n.val → d.oscAt k = s.dev.oscAt k) ∧ d.regs = s.dev.regs ∧
      (s.dev.get TB_STATUS_CARRIER = n.val → d.tb.internalRef = true) ∧
      (s.dev.get TB_STATUS_CARRIER ≠ n.val → d.tb.internalRef = s.dev.tb.internalRef)) ∧
    (s.dev.on (TB_OSC_CFG_ENABLE n) = false → Completes (.oscFault n) s s.dev)) ∧
  ∀ (d : Dev) (n : Nat), n < 4 →
    (∀ t : Nat, d.oscReturns t n = true ↔ d.on (TB_OSC_CFG_ENABLE n) = true ∧ ∃ b, (d.oscAt n).clearSince = some b ∧ b + 60000000000 ≤ t) ∧
    ((oscReturn n d).oscAt n).faulty = false ∧ ((oscReturn n d).oscAt n).inEnsemble = true ∧ ((oscReturn n d).oscAt n).clearSince = none ∧
    (∀ k, k ≠ n → (oscReturn n d).oscAt k = d.oscAt k) ∧ (oscReturn n d).get (TB_OSC_MODEL_STAT_FAULT n) = 0 ∧
    Keeps [(TB_OSC_MODEL_STAT_FAULT n).key] d (oscReturn n d)) ∧
  (∀ s : State,
    (s.dev.hostsRun = true → let b := busFirst s.dev
      (b.get TB_STATUS_STATE = 0 → Yields .timeSetGo s fun d => d.tb.tset = some (b.tsetNs, b.clock.now) ∧ d.tb.tsetDone = false ∧
        d.keelAsked .timeSet = true ∧ d.regs = b.regs ∧ SameBut tbKeel b d) ∧
      (b.get TB_STATUS_STATE ≠ 0 → Completes .timeSetGo s (b.cause TB_STATUS_TSET_REJECT))) ∧
    (ServiceEnds .timeSet s .timeSet fun b d => b.tb.tset.isSome = true → d.tb = { b.tb with tsetDone := true }) ∧
    (ServiceEnds .carrierChange s .carrierChange fun b d => b.tb.carrierReq.isSome = true → d.tb = { b.tb with carrierDone := true })) ∧
  (∀ s : State,
    (ServiceEnds .modelSave s .modelSave fun b d => ∀ n m, n < 4 → (b.oscAt n).model = some m →
      aget {} n d.log.models = { m with id := b.get (TB_OSC_MODEL_ID_ID n) }) ∧
    (s.dev.hostsRun = true → Yields .modelClear s fun d => d.log.models = [] ∧ ∀ n, n < 4 → (d.oscAt n).model = none ∧
      d.get (TB_OSC_MODEL_STAT_VALID n) = 0 ∧ d.get (TB_OSC_MODEL_STAT_RESTORED n) = 0 ∧ d.get (TB_OSC_MODEL_STAT_SPAN_C n) = 0 ∧
      d.get (TB_OSC_MODEL_STAT_AGE_DAYS n) = 0))

/-- FINISH_WINDOW of a running device takes time to cycle P − 64, where the window is open (finishDone) and every present engine that still
runs and has not yielded is in overrun; when it is open already the command has no effect. MOORED_TICK of a moored device, or of one in
the wind-down, takes device time to the next whole second; in other phases it has no effect. A MOORED tick without a step due shows
exactly the next whole second. (R24, R25, R74, R229) -/
def Obligations.WindowsAndSecondsOpen : Prop :=
  (∀ s : State, s.dev.tclkRuns = true →
    (s.dev.clock.finishDone = true → Completes .finishWindow s s.dev) ∧
    (s.dev.clock.finishDone = false →
      let b := passTo (s.dev.clock.endAt - 64) s.dev
      Completes .finishWindow s (finishWindow b) ∧
      (b.clock.phase = .run → Does .finishWindow s fun e => e.clock.finishDone = true) ∧
      ∀ n : Nat, n < 8 → b.clock.phase = .run → b.clock.finishDone = false → b.get (CE_STATUS_RUN n) = 1 → cePresent b.mode n = true →
        (b.ceAt n).yielded = false → (finishWindow b).on (CE_STATUS_OVERRUN n) = true)) ∧
  ((∀ s : State, s.dev.clock.phase ≠ .held →
    (s.dev.clock.phase = .moored ∨ s.dev.clock.phase = .windDown → Completes .mooredTick s (passTo (nextSecond s.dev.clock.now) s.dev)) ∧
    (s.dev.tclkRuns = true → Completes .mooredTick s s.dev)) ∧
  ∀ d : Dev, d.clock.phase = .moored → d.stepDue = none → (mooredTick d).clock.now = nextSecond d.clock.now)

/-- TRK_EDGE of the direction that EDGE selects, at a tracker in TRACKING or QUALIFIED that no record feeds, at its time: with no candidate,
an edge within the window around the expected tooth becomes the candidate; an edge outside it, or a second one, counts A_NOISE_CNT and
touches no candidate. An edge of the other direction, or at a tracker in OFF or QUARANTINED, has no effect (QUARANTINED: log entry 90).
TOOTH_DECISION at its instant: a candidate that passes the conditions of R90 shows its tooth in LAST_TOOTH with SYNTH 0, another counts a
REJECT and sets its cause; either way no candidate is left. Without a candidate it has no effect. SYNTHETIC_TOOTH, once the window without
a candidate has closed, shows SYNTH 1, sets the SYNTH cause and leaves no candidate. (R88, R89, R90, R91, R92, R94) -/
def Obligations.CandidatesAndTeeth : Prop :=
  (∀ (s : State) (n : Fin 8) (stamp width : Nat) (rising : Bool), s.dev.clock.phase ≠ .held →
    let b := passTo (dueOf stamp) s.dev
    let t := b.trkAt n
    let off := (b.trkStamp stamp - b.delayU n - b.measTime n t.expRev t.expTooth).natAbs
    let marked := b.widthClass n width == some 2
    (b.tclkRuns = true ∨ n = 0) → b.clock.phase ≠ .held → b.feeder n = none →
    (rising = b.on (TRK_CFG_EDGE n) → Completes (.trkEdge n stamp ⟨rising, width⟩) s b) ∧
    (rising ≠ b.on (TRK_CFG_EDGE n) → b.trkEff n = 2 ∨ b.trkEff n = 3 →
      (t.cand = none → off ≤ (b.windowU n).natAbs → Yields (.trkEdge n stamp ⟨rising, width⟩) s fun d =>
        d.trkAt n = { t with cand := some ⟨b.trkStamp stamp, t.expTooth, t.expRev⟩, lastMarker := marked } ∧ d.regs = b.regs ∧
        ∀ j, j ≠ n.val → d.trkAt j = b.trkAt j) ∧
      (t.cand ≠ none ∨ (b.windowU n).natAbs < off → Yields (.trkEdge n stamp ⟨rising, width⟩) s fun d =>
        d.trkAt n = { t with lastMarker := marked } ∧ d.regs = (b.inc (TRK_COUNTS_A_NOISE_CNT n)).regs ∧ ∀ j, j ≠ n.val → d.trkAt j = b.trkAt j)) ∧
    (b.trkEff n = 0 ∨ b.trkEff n = 5 → Completes (.trkEdge n stamp ⟨rising, width⟩) s b)) ∧
  (∀ (s : State) (n : Fin 8), s.dev.clock.phase ≠ .held →
    (∀ width : Nat, TakesPlace (.toothDecision n width) s (fun d => d.decisionAt n width) fun b d => b.tclkRuns = true →
      ∀ c : Cand, (b.trkAt n).cand = some c → (d.trkAt n).cand = none ∧
        (b.candOk n c (b.widthClass n width) = true → d.on (TRK_STATE_SYNTH n) = false ∧
          d.get (TRK_STATE_LAST_TOOTH n) = c.tooth % 2 ^ (TRK_STATE_LAST_TOOTH n).w) ∧
        (b.candOk n c (b.widthClass n width) = false → d.on (TRK_IRQ_STAT_REJECT n) = true)) ∧
    (∀ width : Nat, (s.dev.trkAt n).cand = none → Completes (.toothDecision n width) s s.dev) ∧
    TakesPlace (.syntheticTooth n) s (fun d => d.windowEnd n) fun b d => b.tclkRuns = true →
      (d.trkAt n).cand = none ∧ d.on (TRK_STATE_SYNTH n) = true ∧ d.on (TRK_IRQ_STAT_SYNTH n) = true)

/-- TRK_RESTART notes the restart and TRK_RELEASE the release for the coming catch, in the finish window for the one after it; a RELEASE whose
gates the image locks has no effect. TT_DATA_HI_WRITE stores the defined bits of both halves at INDEX while the tracker is OFF, nothing
otherwise, and increments INDEX when AUTOINC is 1. (R79, R81, R98, R106) -/
def Obligations.TrackerControlsWaitForTheCatch : Prop :=
  ∀ (s : State) (n : Fin 8), s.dev.hostsRun = true →
    let b := busFirst s.dev
    let t := b.trkAt n
    Completes (.trkRestart n) s (b.putTrk n { t with restart :=
      if b.inFinish then { t.restart with late := true } else { t.restart with soon := true } }) ∧
    (bit b.rig.locks n = true → Completes (.trkRelease n) s b) ∧
    (bit b.rig.locks n = false → Completes (.trkRelease n) s (b.putTrk n { t with release :=
      if b.inFinish then { t.release with late := true } else { t.release with soon := true } })) ∧
    ∀ v : BitVec 32, Yields (.ttDataHiWrite n v) s fun d =>
      (b.get (TRK_STATE_STATE n) = 0 →
        aget 0 (b.get (TRK_TT_ADDR_INDEX n)) (d.trkAt n).table = b.get (TRK_TT_DATA_LO_LO n) + 2 ^ 32 * (v.toNat % 2 ^ 20)) ∧
      (b.get (TRK_STATE_STATE n) ≠ 0 → d.trk = b.trk) ∧
      d.get (TRK_TT_ADDR_INDEX n) = (if b.on (TRK_TT_ADDR_AUTOINC n) then
        (b.get (TRK_TT_ADDR_INDEX n) + 1) % 2 ^ (TRK_TT_ADDR_INDEX n).w else b.get (TRK_TT_ADDR_INDEX n)) ∧
      Keeps [(TRK_TT_ADDR_INDEX n).key] b d

/-- QUAL_EXPIRE in TRACKING at its instant notes QUALIFIED for the catch, HOLD_EXPIRE in QUARANTINED notes LOST and a release; both leave
every register and every other tracker as it is. PHASE_TRIGGER at its converted time, of a trigger that is enabled: the time is used up
and, with XOUT, the line of the tracker is driven for 4 TCLK; of a trigger that is not enabled, only the time is used up. (R98, R104,
R112, R113) -/
def Obligations.TrackerTimersAndTriggers : Prop :=
  (∀ (s : State) (n : Fin 8), s.dev.clock.phase ≠ .held →
    (TakesPlace (.qualExpire n) s (fun d => (d.trkAt n).qualEnd) fun b d => b.tclkRuns = true → b.trkEff n = 2 →
      d = b.putTrk n { (b.trkAt n).pend 3 with qualEnd := none }) ∧
    TakesPlace (.holdExpire n) s (fun d => (d.trkAt n).holdEnd) fun b d => b.tclkRuns = true → b.get (TRK_STATE_STATE n) = 5 →
      d = b.putTrk n { (b.trkAt n).pend 4 with holdEnd := none, release := { (b.trkAt n).release with soon := true } }) ∧
  (∀ (s : State) (n : Fin 8) (k : Fin 4), s.dev.clock.phase ≠ .held →
    TakesPlace (.phaseTrigger n k) s (fun d => d.trigTime n k) fun b d => ∀ t, b.trigTime n k = some t →
      (d.trkAt n).trigAt = (b.trkAt n).trigAt.erase (k.val, t) ∧ (∀ j, j ≠ n.val → d.trkAt j = b.trkAt j) ∧
      (b.on (TRK_TRIG_CFG_EN n k) = false → d = b.putTrk n { b.trkAt n with trigAt := (b.trkAt n).trigAt.erase (k.val, t) }) ∧
      (b.on (TRK_TRIG_CFG_EN n k) = true → b.trkTiming n = true → b.mode ≠ 0 → b.on (TRK_TRIG_CFG_XOUT n k) = true →
        (d.trkAt n).trigLine = t + 4))

/-- COUNTER_INPUT_EDGE of a counter that runs, at its time, adds 1 to its count, modulo 2^48, and leaves every register and the other counters
alone; of one that does not run it has no effect. CNT_INDEX at an instant at which the index event of its source occurs (R116), in
continuous mode, or armed in armed mode, sets the count to 0, or to 1 when an edge came in that TCLK, counts the index, sets the INDEX
cause and, in armed mode, clears ARMED; a second one of the same TCLK has no effect. CNT_ARM sets ARMED and nothing else. (R102, R115,
R116) -/
def Obligations.CountersCountAndCapture : Prop :=
  ∀ (s : State) (n : Fin 32), s.dev.tclkRuns = true →
    (∀ stamp : Nat, let b := passTo (dueOf stamp) s.dev
      (b.cntRuns n = true → Yields (.counterInputEdge n stamp) s fun d =>
        (d.cntAt n).count = ((b.cntAt n).count + 1) % 2 ^ 48 ∧ d.regs = b.regs ∧ ∀ k, k ≠ n.val → d.cntAt k = b.cntAt k) ∧
      (b.cntRuns n = false → Completes (.counterInputEdge n stamp) s b)) ∧
    (∀ at_ : Nat, let b := passTo at_ s.dev
      (b.cntRuns n = true → (b.cntAt n).idxAt ≠ b.clock.now + 1 → b.idxLive n b.clock.now = true →
        (b.get (CNT_CFG_IDX_MODE n) = 1 ∨ (b.get (CNT_CFG_IDX_MODE n) = 2 ∧ b.on (CNT_STATUS_ARMED n) = true)) →
        Yields (.cntIndex n at_) s fun d =>
          (d.cntAt n).count = b2n ((b.cntAt n).edgeAt == b.clock.now + 1) ∧ (d.cntAt n).idxCount = (b.cntAt n).idxCount + 1 ∧
          d.on (CNT_IRQ_STAT_INDEX n) = true ∧ (b.get (CNT_CFG_IDX_MODE n) = 2 → d.on (CNT_STATUS_ARMED n) = false) ∧
          Keeps [(CNT_IRQ_STAT_INDEX n).key, (CNT_STATUS_ARMED n).key] b d ∧ ∀ k, k ≠ n.val → d.cntAt k = b.cntAt k) ∧
      ((b.cntAt n).idxAt = b.clock.now + 1 → Completes (.cntIndex n at_) s b)) ∧
    (s.dev.hostsRun = true → Completes (.cntArm n) s ((busFirst s.dev).set (CNT_STATUS_ARMED n) 1))

/-- COX_CONVERSION has no effect while COX.CTRL.ENABLE is 0, no list has an entry to convert, or no slot is left in the stroke. Else, in the
cycle after the next free conversion slot, it uses that slot. The conversion of a list takes exactly the head of its ring and leaves every
other list alone. PERF_CLEAR sets PEAK_ARM to 0 and MIN_SLACK to 32,767 and changes nothing else. (R136, R137, R138, R150) -/
def Obligations.CoxConvertsOneEntryPerSlot : Prop :=
  (∀ s : State, s.dev.tclkRuns = true →
    (s.dev.on COX_CTRL_ENABLE = false ∨ s.dev.convPick = none ∨ s.dev.clock.endAt ≤ s.dev.clock.openAt + s.dev.convInsert →
      Completes .coxConversion s s.dev) ∧
    (TakesPlace .coxConversion s Dev.convAt fun b d => b.clock.phase = .run →
      (∃ k, b.convPick = some k) ∧ d.cox.conv = (b.convInsert - 3) / 2 + 1) ∧
    (s.dev.hostsRun = true → Completes .perfClear s (((busFirst s.dev).set COX_PERF_PEAK_ARM 0).set COX_PERF_MIN_SLACK 32767))) ∧
  ∀ (d : Dev) (k : Nat) (it : RingEntry) (rest : List RingEntry), k < 8 → (d.listAt k).ring = it :: rest →
    ((convertNext k d).listAt k).ring = rest ∧ ((convertNext k d).listAt k).rev = it.rev ∧
    ∀ j, j ≠ k → (convertNext k d).listAt j = d.listAt j

/-- REFILL_BURST without a list in need has no effect; for a list with entries left it issues min(8, left) of them, each the little-endian 8
bytes at ENT_BASE + 8 × index, behind the bursts that have not returned. REFILL_RETURN appends the oldest burst to the ring of its list;
with an uncorrectable error it drops it, sets DRAM_ERR and LATE, and counts the entries; with none in flight it has no effect. (R131,
R135) -/
def Obligations.RefillReadsEightEntries : Prop :=
  ∀ s : State, s.dev.tclkRuns = true →
    (s.dev.on COX_CTRL_ENABLE = false ∨ s.dev.refillPick = none → Completes .refillBurst s s.dev) ∧
    (∀ k, s.dev.on COX_CTRL_ENABLE = true → s.dev.refillPick = some k →
      let x := seekEntry k 1024 s.dev
      (x.listAt k).refLeft ≠ 0 → Yields .refillBurst s fun d => ∃ es, (d.listAt k).bursts = (x.listAt k).bursts ++ [es] ∧
        (d.listAt k).refLeft = (x.listAt k).refLeft - min 8 (x.listAt k).refLeft ∧
        es.map (fun e => e.entry) = (List.range (min 8 (x.listAt k).refLeft)).map fun i =>
          x.mem.read (x.get (COX_LIST_ENT_BASE_BASE k) + 8 * ((x.listAt k).refIdx + i)) 8) ∧
    ∀ k : Fin 8,
      ((s.dev.listAt k).bursts = [] → ∀ bad : Bool, Completes (.refillReturn k bad) s s.dev) ∧
      ∀ (es : List RingEntry) (rest : List (List RingEntry)), (s.dev.listAt k).bursts = es :: rest →
        (Yields (.refillReturn k false) s fun d => (d.listAt k).ring = (s.dev.listAt k).ring ++ es ∧ (d.listAt k).bursts = rest) ∧
        Yields (.refillReturn k true) s fun d =>
          (d.listAt k).ring = (s.dev.listAt k).ring ∧ (d.listAt k).bursts = rest ∧ d.on COX_STATUS_DRAM_ERR = true ∧
          d.on COX_IRQ_STAT_LATE = true ∧ d.mem = s.dev.mem ∧
          d.get COX_DROPS_LATE = min (s.dev.get COX_DROPS_LATE + es.length) (2 ^ COX_DROPS_LATE.w - 1)

/-- Fields of the register block of timer channel `n`. -/
def chKey (n k : Nat) : Bool := decide ((0x100000 + 0x100 * n) * 32 ≤ k) && decide (k < (0x100100 + 0x100 * n) * 32)

/-- In `b` the event `e` heads channel `n`'s queue and is the one of its TCLK; strokes run, and no pulse, train or keep-alive of the
channel is in progress. -/
def Alone (b : Dev) (n : Nat) (e : ChEvent) (rest : List ChEvent) : Prop :=
  b.clock.phase = .run ∧ (b.chAt n).queue = e :: rest ∧ (∀ x, x ∈ rest → dueOf x.time ≠ dueOf e.time) ∧
  b.on (CH_STATUS_KA_RUN n) = false ∧ (b.chAt n).train = none ∧ (b.chAt n).ret = none

/-- The event at the head of channel `n`'s queue, with the action `code`, fires in its due TCLK: it leaves the queue, the other channels
stay as they are, and from the device `b` of that TCLK the effect `d` has the property `P b e d`. -/
def Fires (i : Instr) (s : State) (n code : Nat) (P : Dev → ChEvent → Dev → Prop) : Prop :=
  TakesPlace i s (fun d => d.headDue n code) fun b d => ∀ e rest, Alone b n e rest →
    (d.chAt n).queue = rest ∧ (∀ k, k ≠ n → d.chAt k = b.chAt k) ∧ P b e d

/-- A level action of channel `n` gives its output the level `v`, ends starvation, and leaves every register of the other units as it is. -/
def Drives (n : Nat) (v : Bool) (b d : Dev) : Prop :=
  b.chHeld n = false → d.on (CH_STATUS_LEVEL n) = v ∧ d.on (CH_STATUS_STARVED n) = false ∧
  (∀ f : Field, chKey n f.key = false → d.get f = b.get f) ∧ d.mem = b.mem

/-- In its due TCLK the event fires and leaves the queue; none of these drives the output. ACTION_NOP has no other effect; MARK takes a
sequence number of the FIFO for its split; CAPTURE_ARM and CAPTURE_DISARM go to the capture unit in order of their time, which opens the
gate with a count of 0, or closes it; TRIG_ADC holds a conversion of each named input 8 TCLK later; TRIG_DMA without EV_CH reaches no DMA
channel; SIGNAL_CE sets its bit of the signal word of its engine; RAISE_IRQ sets RAISE; GATE_OPEN opens a qualified CLOSED gate, leaves
another PENDING and is rejected in MOORED and BOATHOUSE; GATE_CLOSE closes it. (R125, R159, R166, R202, R203, R204, R215, R421, R526) -/
def Obligations.OtherActionsHaveTheirEffect : Prop :=
  (∀ (s : State) (n : Fin 256), s.dev.tclkRuns = true →
    (Fires (.actionNop n) s n 0 fun b _ d => d.get (CH_STATUS_LEVEL n) = b.get (CH_STATUS_LEVEL n)) ∧
    (Fires (.mark n) s n 15 fun b _ d => (d.chAt n).fifo.seq = ((b.chAt n).fifo.seq + 1) % 2 ^ 28 ∧
      d.get (CH_STATUS_LEVEL n) = b.get (CH_STATUS_LEVEL n)) ∧
    (Fires (.captureArm n) s n 7 fun b e d => (d.chAt n).cap = insertCap ⟨e.time, .arm e.param⟩ (b.chAt n).cap) ∧
    (Fires (.captureDisarm n) s n 8 fun b e d => (d.chAt n).cap = insertCap ⟨e.time, .disarm (2 * b2n e.synth)⟩ (b.chAt n).cap) ∧
    (Fires (.trigAdc n) s n 9 fun b e d => ∀ i : Nat, i < 16 → e.param = 2 ^ i → b.mode ≠ 0 → b.ainBusy i = false →
      d.mon.held = b.mon.held ++ [⟨i, dueOf e.time + 8⟩]) ∧
    (Fires (.trigDma n) s n 10 fun b e d => (b.on (DMA_CFG_EV_CH (e.param % 16)) = false → d.dma = b.dma ∧
        d.get (DMA_STATUS_EV_COUNT (e.param % 16)) = b.get (DMA_STATUS_EV_COUNT (e.param % 16))) ∧
      (b.on (DMA_CFG_EV_CH (e.param % 16)) = true → b.get (DMA_STATUS_STATE (e.param % 16)) ≠ 0 → b.get (DMA_STATUS_EV_COUNT (e.param % 16)) < 255 →
        d.get (DMA_STATUS_EV_COUNT (e.param % 16)) = b.get (DMA_STATUS_EV_COUNT (e.param % 16)) + 1)) ∧
    (Fires (.signalCe n) s n 11 fun _ e d => bit (d.get (CE_SPEC_VALUE (e.param % 8) 4)) (e.param / 16 % 16) = true) ∧
    (Fires (.raiseIrq n) s n 12 fun _ _ d => d.on (CH_IRQ_STAT_RAISE n) = true) ∧
    (Fires (.gateOpen n) s n 13 fun b e d => (b.mode ≠ 0 → b.mode ≠ 5 → b.get (TXG_STATUS_STATE (e.param % 8)) = 0 →
        d.get (TXG_STATUS_STATE (e.param % 8)) = if b.gateQual (e.param % 8) then 2 else 1) ∧
      (b.mode = 0 ∨ b.mode = 5 → d.get (TXG_STATUS_STATE (e.param % 8)) = b.get (TXG_STATUS_STATE (e.param % 8)) ∧
        d.on (TXG_STATUS_LAST_REJECT (e.param % 8)) = true)) ∧
    (Fires (.gateClose n) s n 14 fun _ e d => d.get (TXG_STATUS_STATE (e.param % 8)) = 0)) ∧
  ∀ (d : Dev) (n limit flags : Nat) (t : Int), n < 256 → d.on (CH_CAP_CFG_ALWAYS n) = false →
    ((captureArm n t limit d).chAt n).armedAt = some t ∧ ((captureArm n t limit d).chAt n).disarmAt = none ∧
    ((captureArm n t limit d).chAt n).splitsLeft = limit ∧ (captureArm n t limit d).get (CH_COUNT_LIVE_COUNT n) = 0 ∧
    ((d.chAt n).armedAt.isSome = true → (d.chAt n).disarmAt = none → ((captureDisarm n t flags d).chAt n).disarmAt = some t)

/-- In its due TCLK the event fires and leaves the queue. SET_HIGH drives 1, SET_LOW 0, TOGGLE the other level; PULSE drives the active level
and returns after its width (that of the parameter in ns, or the register for 0); TRAIN_START begins a train with its first pulse at the
event time; TRAIN_STOP without a train drives the idle level. A level action ends starvation and touches no register outside its channel.
While the output is held (fallback, BOATHOUSE) it keeps its level. An event with flag bit 1 sets FIRE. PULSE_RETURN at the time of the
pending return drives the idle level and leaves none pending. TRAIN_PULSE at the end of a pulse of a train that is up drives the idle
level; at the start of the next pulse it drives the active level. (R157, R159, R160, R161, R162, R163, R164, R181, R183) -/
def Obligations.LevelsPulsesAndTrains : Prop :=
  (∀ (s : State) (n : Fin 256), s.dev.tclkRuns = true →
    (Fires (.setHigh n) s n 1 fun b e d => Drives n true b d ∧ (bit e.flags 1 = true → d.on (CH_IRQ_STAT_FIRE n) = true) ∧
      (b.chHeld n = true → d.on (CH_STATUS_LEVEL n) = b.on (CH_STATUS_LEVEL n))) ∧
    (Fires (.setLow n) s n 2 fun b e d => Drives n false b d ∧ (bit e.flags 1 = true → d.on (CH_IRQ_STAT_FIRE n) = true)) ∧
    (Fires (.toggle n) s n 3 fun b _ d => Drives n (!b.on (CH_STATUS_LEVEL n)) b d) ∧
    (Fires (.pulse n) s n 4 fun b e d => Drives n (!b.on (CH_CFG_IDLE n)) b d ∧
      (d.chAt n).ret = some (e.time + (if e.param = 0 then b.get (CH_PULSE_WIDTH_WIDTH n) * 64 else e.param * 65536 : Nat))) ∧
    (Fires (.trainStart n) s n 5 fun b e d => (∀ x, x ∈ (d.chAt n).queue → x.action ≠ 6) → b.get (CH_TRAIN_HIGH_HIGH n) ≠ 0 → 0 < b.trainPer n →
      Drives n (!b.on (CH_CFG_IDLE n)) b d ∧
      (d.chAt n).train = some ⟨e.time, b.trainPer n, b.get (CH_TRAIN_HIGH_HIGH n) * 64, e.param, 1, true,
        e.time + (b.get (CH_TRAIN_HIGH_HIGH n) * 64 : Nat)⟩) ∧
    (Fires (.trainStop n) s n 6 fun b _ d => Drives n (b.on (CH_CFG_IDLE n)) b d)) ∧
  (∀ (s : State) (n : Fin 256), s.dev.tclkRuns = true →
    (TakesPlace (.pulseReturn n) s (fun d => (d.chAt n).ret.map dueOf) fun b d => b.chHeld n = false →
      d.on (CH_STATUS_LEVEL n) = b.on (CH_CFG_IDLE n) ∧ (d.chAt n).ret = none ∧ (∀ k, k ≠ n.val → d.chAt k = b.chAt k) ∧
      ∀ f : Field, chKey n f.key = false → d.get f = b.get f) ∧
    TakesPlace (.trainPulse n) s (fun d => (d.trainNext n).map dueOf) fun b d => ∀ tr : Train, b.chHeld n = false →
      (b.chAt n).train = some tr → 0 < tr.high → tr.high < tr.period →
      (tr.up = true → 1 ≤ tr.k → tr.upEnd = tr.start + ((tr.k : Int) - 1) * tr.period + tr.high → d.on (CH_STATUS_LEVEL n) = b.on (CH_CFG_IDLE n)) ∧
      (tr.up = false → b.trainNext n = some (tr.start + (tr.k : Int) * tr.period) → d.on (CH_STATUS_LEVEL n) = !b.on (CH_CFG_IDLE n)))

/-- HEV_GO, and SKW_GO in FORERUNNER with an action: an event due at least 16 TCLK ahead of a channel that is present with room in its 16
places (those of events that fired in this TCLK count) enters the queue in time order (DONE); one due sooner, or before the first catch
(log entry 45), is LATE, one without room FULL: both count REFUSED_CNT, set DROP and leave the queue alone; one for an absent channel has
no such effect. SKW_GO outside FORERUNNER counts as an access to an unmapped address. SKW_CTL_WRITE without GO leaves the queues alone and
stages the capture configuration of the channel for its catch; outside FORERUNNER it counts as unmapped. CAP_LO_READ returns the low word
of the stamp of the head split in ns, latches its high word for the master and pops the head; from an empty FIFO it returns 0 without an
effect. (R151, R154, R155, R507, R508) -/
def Obligations.HostEventsAndTheOlderWindow : Prop :=
  (∀ (s : State) (n : Fin 256), s.dev.hostsRun = true →
    let b := busFirst s.dev
    let time : Int := b.hevTime n
    let late : Prop := dueOf time < b.clock.now + 16 ∨ (b.clock.phase = .waitFirst ∧ dueOf time < b.clock.endAt)
    let depth := (b.chAt n).queue.length + if (b.chAt n).firedAt = b.clock.now then (b.chAt n).fired else 0
    let word := ownWord n (b.get (CH_HEV_WORD_ACTION n)) (b.get (CH_HEV_WORD_FLAGS n)) (b.get (CH_HEV_WORD_PARAM n))
    let e : ChEvent := ⟨time, b.get (CH_HEV_WORD_ACTION n), b.get (CH_HEV_WORD_FLAGS n), b.get (CH_HEV_WORD_PARAM n), false, word⟩
    (chPresent b.mode n = true → ¬ late → depth < 16 → Yields (.hevGo n) s fun d =>
      (d.chAt n).queue = insertEvent e (b.chAt n).queue ∧ d.on (CH_HEV_CTRL_DONE n) = true ∧ d.on (CH_HEV_CTRL_LATE n) = false ∧
      d.on (CH_HEV_CTRL_FULL n) = false ∧ (∀ k, k ≠ n.val → d.chAt k = b.chAt k) ∧ ∀ f : Field, chKey n f.key = false → d.get f = b.get f) ∧
    (chPresent b.mode n = true → late → Yields (.hevGo n) s fun d =>
      d.ch = b.ch ∧ d.on (CH_HEV_CTRL_LATE n) = true ∧ d.on (CH_HEV_CTRL_DONE n) = false ∧ d.on (CH_IRQ_STAT_DROP n) = true ∧
      d.get (CH_COUNTS_A_REFUSED_CNT n) = (b.inc (CH_COUNTS_A_REFUSED_CNT n)).get (CH_COUNTS_A_REFUSED_CNT n)) ∧
    (chPresent b.mode n = true → ¬ late → 16 ≤ depth → Yields (.hevGo n) s fun d =>
      d.ch = b.ch ∧ d.on (CH_HEV_CTRL_FULL n) = true ∧ d.on (CH_HEV_CTRL_DONE n) = false ∧ d.on (CH_IRQ_STAT_DROP n) = true) ∧
    (chPresent b.mode n = false → Yields (.hevGo n) s fun d => d.ch = b.ch ∧ d.on (CH_HEV_CTRL_DONE n) = false ∧
      d.get (CH_IRQ_STAT_DROP n) = b.get (CH_IRQ_STAT_DROP n)) ∧
    (∀ (m : Master) (k : Fin 64), b.mode = 4 → b.get (SKW_CH_CTL_ACT k) = 0 → Completes (.skwGo m k) s b) ∧
    (∀ (m : Master) (k : Fin 64), b.mode = 4 → b.get (SKW_CH_CTL_ACT k) ≠ 0 →
      b.get (SKW_CH_CMP_LO_T_LO k) + 2 ^ 32 * b.get (SKW_CH_CMP_HI_T_HI k) < b.clock.now + 16 → Yields (.skwGo m k) s fun d =>
        d.ch = b.ch ∧ d.on (CH_HEV_CTRL_LATE k) = true) ∧
    (∀ (m : Master) (k : Fin 64), b.mode ≠ 4 → Completes (.skwGo m k) s (unmapped m b))) ∧
  (∀ (s : State) (m : Master) (k : Fin 64), s.dev.hostsRun = true →
    let b := busFirst s.dev
    (∀ v : BitVec 32, b.mode ≠ 4 → Completes (.skwCtlWrite m k v) s (unmapped m b)) ∧
    (∀ v : BitVec 32, b.mode = 4 → bit v.toNat 8 = false → Yields (.skwCtlWrite m k v) s fun d =>
      d.ch = b.ch ∧ d.get (SKW_CH_CTL_ACT k) = (if 4 < v.toNat % 8 then 0 else v.toNat % 8) ∧
      d.txn.unbound.length = b.txn.unbound.length + 1 ∧ ∃ w, d.txn.unbound.getLast? = some w ∧ w.addr = (CH_CAP_CFG_MEAS k).addr) ∧
    (s.dev.mode = 4 → (s.dev.chAt k).fifo.items = [] → Completes (.capLoRead m k) s (s.dev.ret m 0)) ∧
    (∀ (x : Split) (r : List Split), s.dev.mode = 4 → (s.dev.chAt k).fifo.items = x :: r → Yields (.capLoRead m k) s fun d =>
      d.lastRead m = x.stampU / 65536 % 2 ^ 32 ∧ d.latched m (0x160014 + 0x20 * k) = x.stampU / 65536 / 2 ^ 32 % 2 ^ 32 ∧
      (d.chAt k).fifo.items = r))

/-- FLUSH notes the flush for the catch, in the finish window for the one after it, and changes nothing else; FIFO_CLEAR empties the split
FIFO of the channel alone and shows a depth of 0; CH_COUNT_CLEAR sets the five counts to 0 and changes nothing else; CALIBRATION in a mode
with calibration marks new coefficients as ready and in another mode has no effect. CAPTURE_EDGE of a channel that counts edges (MEAS 6),
with no gate event waiting, its gate open and an edge that counts, adds 1 to COUNT_LIVE, after the channel events of its TCLK.
MEAS_TIMEOUT at its instant leaves no first edge pending and changes no register. KA_END at its instant clears KA_RUN and sets KA_END.
KA_PATTERN_EVENT at its instant moves to the next event of the pattern. (R153, R158, R167, R168, R172, R177, R186, R187, R189) -/
def Obligations.ChannelControlsCapturesAndKeepAlive : Prop :=
  (∀ (s : State) (n : Fin 256), s.dev.hostsRun = true →
    let b := busFirst s.dev
    let c := b.chAt n
    Completes (.flush n) s (b.putCh n { c with flush := if b.inFinish then { c.flush with late := true } else { c.flush with soon := true } }) ∧
    (Yields (.fifoClear n) s fun d => (d.chAt n).fifo.items = [] ∧ (d.chAt n).fifo.seq = c.fifo.seq ∧
      (d.chAt n).queue = c.queue ∧ d.get (CH_STATUS_FIFO_DEPTH n) = 0 ∧ (∀ k, k ≠ n.val → d.chAt k = b.chAt k) ∧
      ∀ f : Field, chKey n f.key = false → d.get f = b.get f) ∧
    (Yields (.chCountClear n) s fun d => d.get (CH_COUNT_LIVE_COUNT n) = 0 ∧ d.get (CH_COUNTS_A_OVERFLOW_CNT n) = 0 ∧
      d.get (CH_COUNTS_A_REFUSED_CNT n) = 0 ∧ d.get (CH_COUNTS_B_STARVE_CNT n) = 0 ∧ d.get (CH_COUNTS_B_FLUSH_CNT n) = 0 ∧
      Keeps [(CH_COUNT_LIVE_COUNT n).key, (CH_COUNTS_A_OVERFLOW_CNT n).key, (CH_COUNTS_A_REFUSED_CNT n).key,
        (CH_COUNTS_B_STARVE_CNT n).key, (CH_COUNTS_B_FLUSH_CNT n).key] b d ∧ SameBut id b d) ∧
    (s.dev.mode = 2 ∨ s.dev.mode = 3 ∨ s.dev.mode = 5 → Completes (.calibration n) s (s.dev.putCh n { s.dev.chAt n with calDue := true })) ∧
    (s.dev.mode ≠ 2 → s.dev.mode ≠ 3 → s.dev.mode ≠ 5 → Completes (.calibration n) s s.dev)) ∧
  (∀ (s : State) (n : Fin 256), s.dev.tclkRuns = true →
    (∀ (t : Nat) (rising : Bool), let b := passTo (dueOf t) s.dev
      let c := runTo (b.clock.now + 1) b
      chPresent c.mode n = true → c.get (CH_CAP_CFG_MEAS n) = 6 → (c.chAt n).cap = [] → dueOf (c.edgeStamp n t) ≤ c.clock.now →
      c.inGate n (c.edgeStamp n t) = true → c.edgeCounts n rising = true → Yields (.captureEdge n t rising) s fun d =>
        d.get (CH_COUNT_LIVE_COUNT n) = (c.get (CH_COUNT_LIVE_COUNT n) + 1) % 2 ^ (CH_COUNT_LIVE_COUNT n).w ∧ (d.chAt n).fifo = (c.chAt n).fifo) ∧
    (TakesPlace (.measTimeout n) s (fun d => d.measEnd n) fun b d => d.regs = b.regs ∧ ((b.chAt n).pend.isSome = true → (d.chAt n).pend = none) ∧
      ((b.chAt n).pend = none → (d.chAt n).prevEdge = none) ∧ ∀ k, k ≠ n.val → d.chAt k = b.chAt k) ∧
    (TakesPlace (.kaEnd n) s (fun d => d.kaLimit n) fun _ d => d.on (CH_STATUS_KA_RUN n) = false ∧ d.on (CH_IRQ_STAT_KA_END n) = true) ∧
    TakesPlace (.kaPatternEvent n) s (fun d => (d.kaNext n).map fun e => e.1) fun b d => ∀ t a : Nat, b.kaNext n = some (t, a) →
      (b.chAt n).kaEnd = none → t < (b.chAt n).kaFrom + 64000000 →
        (d.chAt n).kaIdx = if (b.repEvents n).length ≤ (b.chAt n).kaIdx then 1 else (b.chAt n).kaIdx + 1)

/-- SYN_CALIBRATION_DONE takes CALIBRATING to SETTLING, PHASE_LOCK SETTLING to LOCKED_UNALIGNED once 100 µs have passed, SYN_ALIGNED
LOCKED_UNALIGNED to ALIGNED when alignment is enabled and the frequency fits the grid, LOCK_LOST either locked state to SETTLING with a
count and the LOCK_LOST cause; in other states they have no effect. RECAL, TXG_OPEN and TXG_CLOSE note their request for the catch, in the
finish window for the one after it; of OPEN and CLOSE for one catch the later decides. CAL_ROUND at its time starts a round, if none runs,
of a synthesiser that has left CALIBRATING, and the next comes INTERVAL_S later. GUARD_PERIOD opens the converted guard period for LEN_NS.
CAL_OVERDUE after 4 × INTERVAL_S with the round still running sets CAL_OVERDUE and its cause. (R192, R194, R196, R197, R202) -/
def Obligations.SynthesisersAndRequests : Prop :=
  (∀ (s : State) (n : Fin 4), s.dev.tclkRuns = true →
    (s.dev.get (SYN_STATUS_STATE n) = 1 → Yields (.synCalibrationDone n) s fun d => d.get (SYN_STATUS_STATE n) = 2 ∧
      d.on (SYN_IRQ_STAT_STATE n) = true ∧ (d.synAt n).since = s.dev.clock.now ∧ Keeps [(SYN_STATUS_STATE n).key, (SYN_IRQ_STAT_STATE n).key] s.dev d) ∧
    (s.dev.get (SYN_STATUS_STATE n) ≠ 1 → Completes (.synCalibrationDone n) s s.dev) ∧
    (TakesPlace (.phaseLock n) s (fun d => d.lockAt n) fun b d => d.get (SYN_STATUS_STATE n) = 3 ∧ (d.synAt n).out = true ∧
      d.on (SYN_STATUS_NO_ALIGN n) = (b.on (SYN_ALIGN_ALIGN_EN n) && !b.synWhole n)) ∧
    (s.dev.get (SYN_STATUS_STATE n) ≠ 2 → Completes (.phaseLock n) s s.dev) ∧
    (s.dev.get (SYN_STATUS_STATE n) = 3 ∨ s.dev.get (SYN_STATUS_STATE n) = 4 → Yields (.lockLost n) s fun d =>
      d.get (SYN_STATUS_STATE n) = 2 ∧ d.on (SYN_IRQ_STAT_LOCK_LOST n) = true ∧ (d.synAt n).since = s.dev.clock.now ∧
      d.get (SYN_COUNTS_LOCK_LOSS_CNT n) = (s.dev.inc (SYN_COUNTS_LOCK_LOSS_CNT n)).get (SYN_COUNTS_LOCK_LOSS_CNT n)) ∧
    (s.dev.get (SYN_STATUS_STATE n) ≠ 3 → s.dev.get (SYN_STATUS_STATE n) ≠ 4 → Completes (.lockLost n) s s.dev) ∧
    (s.dev.get (SYN_STATUS_STATE n) = 3 → s.dev.on (SYN_ALIGN_ALIGN_EN n) = true → s.dev.synWhole n = true →
      Yields (.synAligned n) s fun d => d.get (SYN_STATUS_STATE n) = 4 ∧ d.on (SYN_IRQ_STAT_STATE n) = true ∧
        Keeps [(SYN_STATUS_STATE n).key, (SYN_IRQ_STAT_STATE n).key] s.dev d) ∧
    (s.dev.get (SYN_STATUS_STATE n) ≠ 3 → Completes (.synAligned n) s s.dev)) ∧
  ((∀ (s : State), s.dev.hostsRun = true → let b := busFirst s.dev
    let ask (x : Due) : Due := if b.inFinish then { x with late := true } else { x with soon := true }
    let drop (x : Due) : Due := if b.inFinish then { x with late := false } else { x with soon := false }
    (∀ n : Fin 4, Completes (.recal n) s (b.putSyn n { b.synAt n with recal := ask (b.synAt n).recal })) ∧
    (∀ n : Fin 8, Completes (.txgOpen n) s (b.putGate n { b.gateAt n with openReq := ask (b.gateAt n).openReq, closeReq := drop (b.gateAt n).closeReq })) ∧
    (∀ n : Fin 8, Completes (.txgClose n) s (b.putGate n { b.gateAt n with closeReq := ask (b.gateAt n).closeReq, openReq := drop (b.gateAt n).openReq }))) ∧
  ∀ (s : State) (n : Fin 4), s.dev.tclkRuns = true →
    (TakesPlace (.calRound n) s (fun d => (d.synAt n).nextRound) fun b d => d.regs = b.regs ∧
      (2 ≤ b.get (SYN_STATUS_STATE n) → (d.synAt n).nextRound = some (b.clock.now + b.get (SYN_CAL_CFG_INTERVAL_S n) * 1000000000) ∧
        ((b.synAt n).roundAt = none → (d.synAt n).roundAt = some b.clock.now ∧ (d.synAt n).slices = 0) ∧
        ((b.synAt n).roundAt.isSome = true → (d.synAt n).roundAt = (b.synAt n).roundAt)) ∧
      ∀ k, k ≠ n.val → d.synAt k = b.synAt k) ∧
    (TakesPlace (.guardPeriod n) s (fun d => (d.synAt n).guardAt.head?) fun b d => (d.synAt n).guardAt = (b.synAt n).guardAt.tail ∧
      ∀ t, (b.synAt n).guardAt.head? = some t → b.guardLive n = true → b.get (SYN_STATUS_STATE n) ≠ 0 →
        (d.synAt n).guardEnd = t + b.get (SYN_GUARD_LEN_NS n)) ∧
    TakesPlace (.calOverdue n) s (fun d => d.calLimit n) fun b d => ((synSlices n b).synAt n).roundAt.isSome = true →
      d.on (SYN_STATUS_CAL_OVERDUE n) = true ∧ d.on (SYN_IRQ_STAT_CAL_OVERDUE n) = true)

/-- The fields of engine `n` that every bundle writes: the PC, and what STATUS and STAGE show of FLAGS and the stage. -/
def issueKeys (n : Nat) : List Nat :=
  [(CE_STATUS_PC n).key, (CE_STATUS_IE n).key, (CE_STATUS_TS n).key, (CE_STAGE_DEPTH n).key, (CE_STAGE_OVF n).key]

/-- The key of the physical register that `x` of engine `n` names, and of special register `j`. -/
def xKey (s : State) (n x : Nat) : Nat := (CE_XREG_VALUE n (s.dev.phys n x)).key
def specKey (n j : Nat) : Nat := (CE_SPEC_VALUE n j).key

/-- The device `e` once what engine `n` issued in this engine cycle, and in the `k - 1` before it, has landed (R244). -/
def Lands (s : State) (n k : Nat) (e : Dev) : Dev := landTo n (s.dev.clock.now + k * ceCycle s.dev.mode) e

/-- The CE instruction `i` completes on an engine that is ready, when its condition `c` holds: the next bundle, at `pc`, issues `delay`
engine cycles later. At once only the fields of `at_` and those that every bundle writes change; one engine cycle later, when results have
landed, also those of `keys`. Every other register field is kept, every other engine, and every part of the device outside `p`; and `P`
holds of the device, and of the device with the landed results. -/
def Issues (i : Instr) (s : State) (n : Nat) (c : BitVec 4) (pc delay : Nat) (at_ keys : List Nat) (p : Dev → Dev) (P : Dev → Dev → Prop) : Prop :=
  CeReady s n → s.dev.cond n c.toNat s.dev.clock.now = true → Yields i s fun e =>
    e.get (CE_STATUS_PC n) = pc % 65536 ∧ (e.ceAt n).issueAt = s.dev.clock.now + delay * ceCycle s.dev.mode ∧
    Keeps (at_ ++ issueKeys n) s.dev e ∧ Keeps (at_ ++ keys ++ issueKeys n) s.dev (Lands s n 1 e) ∧
    SameBut p s.dev e ∧ (∀ k, k ≠ n → e.ceAt k = s.dev.ceAt k) ∧ P e (Lands s n 1 e)

/-- Only the engines differ. -/
def ceOnly (d : Dev) : Dev := { d with ce := [] }

/-- Only the engines, memory and the record of bank accesses differ. -/
def ceMem (d : Dev) : Dev := { d with ce := [], mem := [], memc := {} }

/-- The bundle after the one at the PC of engine `n`. -/
def nextPc (s : State) (n : Nat) : Nat := (s.dev.get (CE_STATUS_PC n) + 1) % 65536

/-- The flags that an ALU result `r` leaves when it writes them: Z, N, C and V; the other flags stay. -/
def AluFlags (s : State) (n : Nat) (r : Half) (c v : Bool) (e : Dev) : Prop :=
  e.flag n 0 = (r == 0) ∧ e.flag n 1 = r.msb ∧ e.flag n 2 = c ∧ e.flag n 3 = v ∧ ∀ j, 4 ≤ j → j < 16 → e.flag n j = s.dev.flag n j

/-- The ALU instruction `i` writes `r` to `d` and, with `f`, the flags `c` and `v`; it lands one engine cycle after issue. -/
def AluWrites (i : Instr) (s : State) (n : Nat) (cond : BitVec 4) (d : BitVec 5) (f : Bool) (r : Half) (c v : Bool) : Prop :=
  Issues i s n cond (nextPc s n) 1 [] [xKey s n d.toNat, specKey n 0] ceOnly fun _ e =>
    e.xr n d.toNat = r ∧ (e.ceAt n).lands = [] ∧ (f = false → e.spec n 0 = s.dev.spec n 0) ∧ (f = true → AluFlags s n r c v e)

/-- An R-format instruction of two operands, whose result, C and V are these functions of xa, xb, C and V. -/
def AluR (mk : Fin 8 → BitVec 4 → Bool → BitVec 5 → BitVec 5 → BitVec 5 → Bool → Instr) (r : Half → Half → Bool → Half)
    (c v : Half → Half → Bool → Bool → Bool) : Prop :=
  ∀ (s : State) (n : Fin 8) (cond : BitVec 4) (u : Bool) (d a b : BitVec 5) (f : Bool),
    let x := s.dev.xr n a.toNat
    let y := s.dev.xr n b.toNat
    let cy := s.dev.flag n 2
    AluWrites (mk n cond u d a b f) s n cond d f (r x y cy) (c x y cy (s.dev.flag n 3)) (v x y cy (s.dev.flag n 3))

/-- An R-format instruction of one operand. -/
def AluU (mk : Fin 8 → BitVec 4 → Bool → BitVec 5 → BitVec 5 → Bool → Instr) (r : Half → Half) (c v : Half → Bool → Bool) : Prop :=
  ∀ (s : State) (n : Fin 8) (cond : BitVec 4) (u : Bool) (d a : BitVec 5) (f : Bool),
    let x := s.dev.xr n a.toNat
    AluWrites (mk n cond u d a f) s n cond d f (r x) (c x (s.dev.flag n 2)) (v x (s.dev.flag n 3))

/-- An I-format instruction with an immediate of `w` bits, which `ext` makes the second operand. -/
def AluI (w : Nat) (ext : BitVec w → Half) (mk : Fin 8 → BitVec 4 → Bool → BitVec 5 → BitVec 5 → Bool → BitVec w → Instr)
    (r : Half → Half → Half) (c v : Half → Half → Bool → Bool) : Prop :=
  ∀ (s : State) (n : Fin 8) (cond : BitVec 4) (u : Bool) (d a : BitVec 5) (f : Bool) (k : BitVec w),
    let x := s.dev.xr n a.toNat
    let y := ext k
    AluWrites (mk n cond u d a f k) s n cond d f (r x y) (c x y (s.dev.flag n 2)) (v x y (s.dev.flag n 3))

/-- A comparison writes flags alone. -/
def Compares (i : Instr) (s : State) (n : Nat) (cond : BitVec 4) (r : Half) (c v : Bool) : Prop :=
  Issues i s n cond (nextPc s n) 1 [] [specKey n 0] ceOnly fun _ e => (e.ceAt n).lands = [] ∧ AluFlags s n r c v e

/-- C of an addition with the exact sum `i`, V of a result `r` with the exact value `i`, and the saturated value of `i`. -/
def carryOf (i : Nat) : Bool := decide (65536 ≤ i)
def overOf (r : Half) (i : Int) : Bool := decide (r.toInt ≠ i)
def sat16 (i : Int) : Half := BitVec.ofInt 16 (max (-32768) (min 32767 i))

/-- On an engine that is ready, each R-format ALU instruction that writes a register writes the stated function of xa, xb and C to xd; with F
it writes Z, N, C and V as R255 states and keeps the other flags, without F it keeps FLAGS. The result lands one engine cycle later, when
the next bundle issues; every other register and every other part of the device is kept. (R221, R244, R254, R255) -/
def Obligations.AluResultsAndFlags : Prop :=
  AluR Instr.ceAdd (fun a b _ => a + b) (fun a b _ _ => carryOf (a.toNat + b.toNat)) (fun a b _ _ => overOf (a + b) (a.toInt + b.toInt)) ∧
  AluR Instr.ceAdc (fun a b c => a + b + (if c then 1 else 0)) (fun a b c _ => carryOf (a.toNat + b.toNat + (if c then 1 else 0))) (fun a b c _ => overOf (a + b + (if c then 1 else 0)) (a.toInt + b.toInt + (if c then 1 else 0))) ∧
  AluR Instr.ceSub (fun a b _ => a - b) (fun a b _ _ => decide (b.toNat ≤ a.toNat)) (fun a b _ _ => overOf (a - b) (a.toInt - b.toInt)) ∧
  AluR Instr.ceSbc (fun a b c => a - b - (if c then 0 else 1)) (fun a b c _ => decide (b.toNat + (if c then 0 else 1) ≤ a.toNat)) (fun a b c _ => overOf (a - b - (if c then 0 else 1)) (a.toInt - b.toInt - (if c then 0 else 1))) ∧
  AluR Instr.ceAnd (fun a b _ => a &&& b) (fun _ _ c _ => c) (fun _ _ _ v => v) ∧
  AluR Instr.ceOr (fun a b _ => a ||| b) (fun _ _ c _ => c) (fun _ _ _ v => v) ∧
  AluR Instr.ceXor (fun a b _ => a ^^^ b) (fun _ _ c _ => c) (fun _ _ _ v => v) ∧
  AluR Instr.ceAndn (fun a b _ => a &&& ~~~b) (fun _ _ c _ => c) (fun _ _ _ v => v) ∧
  AluR Instr.ceShl (fun a b _ => a <<< (b.toNat % 16)) (fun a b c _ => if b.toNat % 16 = 0 then c else a.getLsbD (16 - b.toNat % 16)) (fun _ _ _ v => v) ∧
  AluR Instr.ceShr (fun a b _ => a >>> (b.toNat % 16)) (fun a b c _ => if b.toNat % 16 = 0 then c else a.getLsbD (b.toNat % 16 - 1)) (fun _ _ _ v => v) ∧
  AluR Instr.ceSar (fun a b _ => a.sshiftRight (b.toNat % 16)) (fun a b c _ => if b.toNat % 16 = 0 then c else a.getLsbD (b.toNat % 16 - 1)) (fun _ _ _ v => v) ∧
  AluR Instr.ceRol (fun a b _ => a.rotateLeft (b.toNat % 16)) (fun a b c _ => if b.toNat % 16 = 0 then c else (a.rotateLeft (b.toNat % 16)).getLsbD 0) (fun _ _ _ v => v) ∧
  AluR Instr.ceMin (fun a b _ => if a.slt b then a else b) (fun _ _ c _ => c) (fun _ _ _ v => v) ∧
  AluR Instr.ceMax (fun a b _ => if a.slt b then b else a) (fun _ _ c _ => c) (fun _ _ _ v => v) ∧
  AluR Instr.ceMinu (fun a b _ => if a.ult b then a else b) (fun _ _ c _ => c) (fun _ _ _ v => v) ∧
  AluR Instr.ceMaxu (fun a b _ => if a.ult b then b else a) (fun _ _ c _ => c) (fun _ _ _ v => v) ∧
  AluR Instr.ceAdds (fun a b _ => sat16 (a.toInt + b.toInt)) (fun _ _ c _ => c) (fun a b _ _ => overOf (sat16 (a.toInt + b.toInt)) (a.toInt + b.toInt)) ∧
  AluR Instr.ceSubs (fun a b _ => sat16 (a.toInt - b.toInt)) (fun _ _ c _ => c) (fun a b _ _ => overOf (sat16 (a.toInt - b.toInt)) (a.toInt - b.toInt)) ∧
  AluU Instr.ceMov (fun a => a) (fun _ c => c) (fun _ c => c) ∧
  AluU Instr.ceNeg (fun a => -a) (fun a _ => decide (a = 0)) (fun a _ => overOf (-a) (-a.toInt)) ∧
  AluU Instr.ceNot (fun a => ~~~a) (fun _ c => c) (fun _ c => c) ∧
  AluU Instr.ceAbs (fun a => if a.msb then -a else a) (fun _ c => c) (fun a _ => a == 0x8000) ∧
  AluU Instr.ceSext8 (fun a => (a.setWidth 8).signExtend 16) (fun _ c => c) (fun _ c => c) ∧
  AluU Instr.ceSwapb (fun a => a.rotateLeft 8) (fun _ c => c) (fun _ c => c)

/-- ADDI, ANDI, ORI and XORI use the sign-extended immediate, SHLI, SHRI, SARI and ROLI the amount; result and flags as in the register forms.
CMP, TST and CMPI write Z, N, C and V whatever F says, and no register. MOVI writes its immediate and no flags. (R244, R254, R255) -/
def Obligations.ImmediatesAndComparisons : Prop :=
  AluI 7 (BitVec.signExtend 16) Instr.ceAddi (fun a b => a + b) (fun a b _ => carryOf (a.toNat + b.toNat)) (fun a b _ => overOf (a + b) (a.toInt + b.toInt)) ∧
  AluI 7 (BitVec.signExtend 16) Instr.ceAndi (fun a b => a &&& b) (fun _ _ c => c) (fun _ _ v => v) ∧
  AluI 7 (BitVec.signExtend 16) Instr.ceOri (fun a b => a ||| b) (fun _ _ c => c) (fun _ _ v => v) ∧
  AluI 7 (BitVec.signExtend 16) Instr.ceXori (fun a b => a ^^^ b) (fun _ _ c => c) (fun _ _ v => v) ∧
  AluI 4 (BitVec.setWidth 16) Instr.ceShli (fun a b => a <<< b.toNat) (fun a b c => if b.toNat = 0 then c else a.getLsbD (16 - b.toNat)) (fun _ _ v => v) ∧
  AluI 4 (BitVec.setWidth 16) Instr.ceShri (fun a b => a >>> b.toNat) (fun a b c => if b.toNat = 0 then c else a.getLsbD (b.toNat - 1)) (fun _ _ v => v) ∧
  AluI 4 (BitVec.setWidth 16) Instr.ceSari (fun a b => a.sshiftRight b.toNat) (fun a b c => if b.toNat = 0 then c else a.getLsbD (b.toNat - 1)) (fun _ _ v => v) ∧
  AluI 4 (BitVec.setWidth 16) Instr.ceRoli (fun a b => a.rotateLeft b.toNat) (fun a b c => if b.toNat = 0 then c else (a.rotateLeft b.toNat).getLsbD 0) (fun _ _ v => v) ∧
  ∀ (s : State) (n : Fin 8) (c : BitVec 4) (u f : Bool) (d a b : BitVec 5),
    let x := s.dev.xr n a.toNat
    let y := s.dev.xr n b.toNat
    Compares (.ceCmp n c u a b f) s n c (x - y) (decide (y.toNat ≤ x.toNat)) (overOf (x - y) (x.toInt - y.toInt)) ∧
    Compares (.ceTst n c u a b f) s n c (x &&& y) (s.dev.flag n 2) (s.dev.flag n 3) ∧
    (∀ k : BitVec 7, let z : Half := k.signExtend 16
      Compares (.ceCmpi n c u a f k) s n c (x - z) (decide (z.toNat ≤ x.toNat)) (overOf (x - z) (x.toInt - z.toInt))) ∧
    ∀ k : BitVec 16, Issues (.ceMovi n c u d k) s n c (nextPc s n) 1 [] [xKey s n d.toNat] ceOnly fun _ e =>
      e.xr n d.toNat = k ∧ (e.ceAt n).lands = []

/-- The BIT instruction `i` writes a value with the property `P` to `d`, and no flags; it lands one engine cycle after issue. -/
def BitWrites (i : Instr) (s : State) (n : Nat) (c : BitVec 4) (d : BitVec 5) (P : Half → Prop) : Prop :=
  Issues i s n c (nextPc s n) 1 [] [xKey s n d.toNat] ceOnly fun _ e => P (e.xr n d.toNat) ∧ (e.ceAt n).lands = []

/-- The number of 1 bits of `x` among the bits that `f` names. -/
def ones (x : Half) (f : List Nat) : Nat := f.countP fun j => x.getLsbD j

/-- The MAC instruction `i` with destination pair `d` leaves the 32-bit value `r` in flight, landing two engine cycles later, and its
flags with it when `f` is 1. -/
def MacWrites (i : Instr) (s : State) (n : Nat) (c : BitVec 4) (d : BitVec 5) (f : Bool) (r : BitVec 32) (v : Bool) : Prop :=
  Issues i s n c (nextPc s n) 1 [] [] ceOnly fun e _ =>
    e.macReg n d.toNat = r.toNat % 65536 ∧ e.macReg n (d.toNat + 1) = r.toNat / 65536 ∧
    (∀ l, l ∈ (e.ceAt n).lands → l.at_ = s.dev.clock.now + 2 * ceCycle s.dev.mode) ∧
    (f = true → ⟨s.dev.clock.now + 2 * ceCycle s.dev.mode, 6, .flags 11 (b2n (r == 0) + 2 * b2n r.msb + 8 * b2n v)⟩ ∈ (e.ceAt n).lands) ∧
    (f = false → ∀ l m w, l ∈ (e.ceAt n).lands → l.eff ≠ .flags m w)

/-- A form of MAC: the value and V of the pair, from xa, xb and the pair's value. -/
def MacForm (mk : Fin 8 → BitVec 4 → BitVec 5 → BitVec 5 → BitVec 5 → Bool → Instr) (r : Half → Half → BitVec 32 → BitVec 32)
    (v : Half → Half → BitVec 32 → Bool) : Prop :=
  ∀ (s : State) (n : Fin 8) (c : BitVec 4) (d a b : BitVec 5) (f : Bool), d.toNat % 2 = 0 →
    let p : BitVec 32 := (s.dev.xr n (d.toNat + 1)) ++ (s.dev.xr n d.toNat)
    MacWrites (mk n c d a b f) s n c d f (r (s.dev.xr n a.toNat) (s.dev.xr n b.toNat) p) (v (s.dev.xr n a.toNat) (s.dev.xr n b.toNat) p)

/-- On an engine that is ready, BSET, BCLR, BTGL, BEXT, BINS, CLZ, POPC, PAR, BREV and BREV8 write to xd the value that R263 states, bit by
bit; CRCB and CRCW write the running value after one or two bytes, in xd for codes 2 and 3 and in the pair for codes 0 and 1; BTST writes
Z alone. The next bundle issues one engine cycle later, and everything else is kept. MUL and MULU give the signed and unsigned product,
MAC and MSU the pair plus or minus the signed product modulo 2^32, MACS the sum saturated, MACU the pair plus the unsigned product modulo
2^32, MULQ the rounded product saturated to 16 bits; a MAC syllable sees the value at once, other units two engine cycles later, with V as
R265 states when F is 1. (R244, R263, R264, R265) -/
def Obligations.BitOperationsAndProducts : Prop :=
  (∀ (s : State) (n : Fin 8) (c : BitVec 4) (d a : BitVec 5) (p q : BitVec 4),
    let x := s.dev.xr n a.toNat
    let old := s.dev.xr n d.toNat
    BitWrites (.ceBset n c d a p) s n c d (fun r => r = x ||| (1#16 <<< p.toNat)) ∧
    BitWrites (.ceBclr n c d a p) s n c d (fun r => r = x &&& ~~~(1#16 <<< p.toNat)) ∧
    BitWrites (.ceBtgl n c d a p) s n c d (fun r => r = x ^^^ (1#16 <<< p.toNat)) ∧
    Issues (.ceBtst n c a p) s n c (nextPc s n) 1 [] [specKey n 0] ceOnly (fun _ e =>
      e.flag n 0 = (!x.getLsbD p.toNat) ∧ ∀ j, 1 ≤ j → j < 16 → e.flag n j = s.dev.flag n j) ∧
    BitWrites (.ceBext n c d a p q) s n c d (fun r => ∀ j, j < 16 → r.getLsbD j = (decide (j ≤ q.toNat) && x.getLsbD (p.toNat + j))) ∧
    BitWrites (.ceBins n c d a p q) s n c d (fun r => ∀ j, j < 16 →
      r.getLsbD j = if p.toNat ≤ j ∧ j ≤ p.toNat + q.toNat then x.getLsbD (j - p.toNat) else old.getLsbD j) ∧
    BitWrites (.ceClz n c d a) s n c d (fun r => r.toNat ≤ 16 ∧ (∀ j, 16 - r.toNat ≤ j → x.getLsbD j = false) ∧
      (r.toNat < 16 → x.getLsbD (15 - r.toNat) = true)) ∧
    BitWrites (.cePopc n c d a) s n c d (fun r => r.toNat = ones x (List.range 16)) ∧
    BitWrites (.cePar n c d a p q) s n c d (fun r => r.toNat = ones x ((List.range (q.toNat + 1)).map (p.toNat + ·)) % 2) ∧
    BitWrites (.ceBrev n c d a) s n c d (fun r => ∀ j, j < 16 → r.getLsbD j = x.getLsbD (15 - j)) ∧
    BitWrites (.ceBrev8 n c d a) s n c d (fun r => ∀ j, j < 16 → r.getLsbD j = x.getLsbD (if j < 8 then 7 - j else 23 - j)) ∧
    (∀ k : BitVec 2, 2 ≤ k.toNat →
      let v : Half := if k.toNat = 2 then old else old &&& 0xff
      BitWrites (.ceCrcb n c d a k) s n c d (fun r => r.toNat = crcStep k.toNat v.toNat (x.toNat % 256)) ∧
      BitWrites (.ceCrcw n c d a k) s n c d (fun r => r.toNat = crcStep k.toNat (crcStep k.toNat v.toNat (x.toNat % 256)) (x.toNat / 256))) ∧
    (∀ k : BitVec 2, k.toNat < 2 → d.toNat % 2 = 0 →
      let v := old.toNat + 65536 * (s.dev.xr n (d.toNat + 1)).toNat
      Issues (.ceCrcb n c d a k) s n c (nextPc s n) 1 [] [xKey s n d.toNat, xKey s n (d.toNat + 1)] ceOnly (fun _ e =>
        (e.xr n d.toNat).toNat + 65536 * (e.xr n (d.toNat + 1)).toNat = crcStep k.toNat v (x.toNat % 256)) ∧
      Issues (.ceCrcw n c d a k) s n c (nextPc s n) 1 [] [xKey s n d.toNat, xKey s n (d.toNat + 1)] ceOnly (fun _ e =>
        (e.xr n d.toNat).toNat + 65536 * (e.xr n (d.toNat + 1)).toNat =
          crcStep k.toNat (crcStep k.toNat v (x.toNat % 256)) (x.toNat / 256)))) ∧
  (MacForm Instr.ceMul (fun a b _ => BitVec.ofInt 32 (a.toInt * b.toInt)) (fun _ _ _ => false) ∧
  MacForm Instr.ceMulu (fun a b _ => BitVec.ofNat 32 (a.toNat * b.toNat)) (fun _ _ _ => false) ∧
  MacForm Instr.ceMac (fun a b p => p + BitVec.ofInt 32 (a.toInt * b.toInt))
    (fun a b p => decide ((p + BitVec.ofInt 32 (a.toInt * b.toInt)).toInt ≠ p.toInt + a.toInt * b.toInt)) ∧
  MacForm Instr.ceMacs (fun a b p => BitVec.ofInt 32 (max (-2147483648) (min 2147483647 (p.toInt + a.toInt * b.toInt))))
    (fun a b p => decide (p.toInt + a.toInt * b.toInt < -2147483648 ∨ 2147483647 < p.toInt + a.toInt * b.toInt)) ∧
  MacForm Instr.ceMsu (fun a b p => p - BitVec.ofInt 32 (a.toInt * b.toInt))
    (fun a b p => decide ((p - BitVec.ofInt 32 (a.toInt * b.toInt)).toInt ≠ p.toInt - a.toInt * b.toInt)) ∧
  MacForm Instr.ceMacu (fun a b p => p + BitVec.ofNat 32 (a.toNat * b.toNat)) (fun a b p => decide (2 ^ 32 ≤ p.toNat + a.toNat * b.toNat)) ∧
  ∀ (s : State) (n : Fin 8) (c : BitVec 4) (d a b : BitVec 5) (f : Bool),
    Issues (.ceMulq n c d a b f) s n c (nextPc s n) 1 [] [] ceOnly fun e _ =>
      let i := ((s.dev.xr n a.toNat).toInt * (s.dev.xr n b.toNat).toInt + 0x4000) / 32768
      e.macReg n d.toNat = (sat16 i).toNat ∧ (f = true → ⟨s.dev.clock.now + 2 * ceCycle s.dev.mode, 6,
        .flags 11 (b2n (sat16 i == 0) + 2 * b2n (sat16 i).msb + 8 * b2n (decide ((sat16 i).toInt ≠ i)))⟩ ∈ (e.ceAt n).lands))

/-- A load or store `i` through the access `a`, with data register `r` and, when `inc` is not 0, the base register `b` that it
increments: over the time wheel the access enters the lane of the engine, reaches its target in its slot (a store when it completes) and
completes 10 engine cycles after issue; in the own bank, with no other access and no error there, a store lands one engine cycle after
issue and a load three. -/
def LoadStore (i : Instr) (s : State) (n : Nat) (c : BitVec 4) (a : MemAcc) (r b inc : Nat) : Prop :=
  s.dev.accTrap n a = none →
    let w := s.dev.accWord n a
    let t := s.dev.clock.now
    let done := t + 10 * ceCycle s.dev.mode
    let keys := if inc = 0 then [] else [xKey s n b]
    let bump (e : Dev) : Prop := inc ≠ 0 → e.xr n b = s.dev.xr n b + BitVec.ofNat 16 inc
    (wordPath n w = .wheel → Issues i s n c (nextPc s n) 1 [] keys ceOnly fun e f => bump f ∧
      (e.ceAt n).wheel = [⟨t, if a.store then done else s.dev.wheelSlot n t, done, a.store, w, a.pair,
        (s.dev.xr n r).toNat + (if a.pair then 65536 * (s.dev.xr n (r + 1)).toNat else 0), s.dev.phys n r, s.dev.phys n (r + 1)⟩]) ∧
    (wordPath n w = .own → s.dev.memc.useAt ≠ t → s.dev.memc.bad = [] → Issues i s n c (nextPc s n) 1 [] keys ceMem fun e f => bump f ∧
      e.mem = s.dev.mem ∧
      (a.store = true → f.word w = (s.dev.xr n r).toNat ∧ (a.pair = true → f.word (w + 1) = (s.dev.xr n (r + 1)).toNat) ∧
        ∀ x, (x < 2 * w ∨ 2 * w + (if a.pair then 4 else 2) ≤ x) → f.mem.byte x = s.dev.mem.byte x) ∧
      (a.store = false → f.mem = s.dev.mem ∧
        (f.ceAt n).lands = ⟨t + 3 * ceCycle s.dev.mode, 3, .reg (s.dev.phys n r) (s.dev.word w)⟩ ::
          (if a.pair then [⟨t + 3 * ceCycle s.dev.mode, 3, .reg (s.dev.phys n (r + 1)) (s.dev.word (w + 1))⟩] else [])))

/-- Each load and store of R256 whose access passes the checks of R216: over the time wheel it is queued for 10 engine cycles after issue, a
load with the slot in which it samples (the phase of the wheel: log entry 47), with its word address, data and registers; in the own bank
a store writes exactly its word or pair at the end of its issue cycle and a load lands three engine cycles after issue. The + forms
increment the base register by 1, by 2 for pairs. Every other register, every byte of memory outside the stored words and every other part
is kept. (R42, R43, R216, R217, R218, R219, R256) -/
def Obligations.LoadsAndStores : Prop :=
  ∀ (s : State) (n : Fin 8) (c : BitVec 4) (r : BitVec 5) (k : BitVec 3) (a disp : BitVec 5) (imm : BitVec 10),
    let x := (s.dev.xr n a.toNat).toNat
    let at_ (off : Nat) (pair store : Bool) : MemAcc := ⟨k.toNat, off % 65536, pair, store, false⟩
    LoadStore (.ceLd n c r k a disp) s n c (at_ (x + disp.toNat) false false) r.toNat 0 0 ∧
    LoadStore (.ceSt n c r k a disp) s n c (at_ (x + disp.toNat) false true) r.toNat 0 0 ∧
    LoadStore (.ceLdPostinc n c r k a) s n c (at_ x false false) r.toNat a.toNat 1 ∧
    LoadStore (.ceStPostinc n c r k a) s n c (at_ x false true) r.toNat a.toNat 1 ∧
    LoadStore (.ceLda n c r k imm) s n c (at_ imm.toNat false false) r.toNat 0 0 ∧
    LoadStore (.ceSta n c r k imm) s n c (at_ imm.toNat false true) r.toNat 0 0 ∧
    (r.toNat % 2 = 0 →
      LoadStore (.ceLdp n c r k a disp) s n c (at_ (x + disp.toNat) true false) r.toNat 0 0 ∧
      LoadStore (.ceStp n c r k a disp) s n c (at_ (x + disp.toNat) true true) r.toNat 0 0 ∧
      LoadStore (.ceLdpPostinc n c r k a) s n c (at_ x true false) r.toNat a.toNat 2 ∧
      LoadStore (.ceStpPostinc n c r k a) s n c (at_ x true true) r.toNat a.toNat 2 ∧
      LoadStore (.ceLdpa n c r k imm) s n c (at_ imm.toNat true false) r.toNat 0 0 ∧
      LoadStore (.ceStpa n c r k imm) s n c (at_ imm.toNat true true) r.toNat 0 0)

/-- MOVW moves the word at xa of its source segment to xb of its destination segment, landing three engine cycles after issue, and increments
both; SCANW compares the word at xa with xr, Z landing likewise, and increments xa. ARM and ARMP queue one TIM operation with the channel,
time and event of their group and show TIM busy; GETSN reads the stroke number and GETCT the time of the catch into four registers; TCLR
clears the results. (R256, R258, R259, R260, R261, R262) -/
def Obligations.WordMovesAndTimedOperations : Prop :=
  ∀ (s : State) (n : Fin 8) (c : BitVec 4) (r a b d : BitVec 5) (k k2 : BitVec 3) (m nh : BitVec 4),
    let t3 := s.dev.clock.now + 3 * ceCycle s.dev.mode
    let x (j : Nat) : Nat := (s.dev.xr n (d.toNat + j)).toNat
    let src : MemAcc := ⟨k.toNat, (s.dev.xr n a.toNat).toNat, false, false, true⟩
    let dst : MemAcc := ⟨k2.toNat, (s.dev.xr n b.toNat).toNat, false, true, true⟩
    (s.dev.accTrap n src = none → s.dev.memc.useAt ≠ s.dev.clock.now → s.dev.memc.bad = [] →
      (s.dev.accTrap n dst = none → Issues (.ceMovw n c k k2 a b) s n c (nextPc s n) 1 [] [xKey s n a.toNat, xKey s n b.toNat] ceMem fun _ e =>
        e.mem = s.dev.mem ∧ (e.ceAt n).lands = [⟨t3, 3, .mem (s.dev.accWord n dst) (s.dev.word (s.dev.accWord n src))⟩] ∧
        e.xr n a.toNat = s.dev.xr n a.toNat + 1 ∧ e.xr n b.toNat = s.dev.xr n b.toNat + 1) ∧
      (Issues (.ceScanw n c r k a) s n c (nextPc s n) 1 [] [xKey s n a.toNat] ceMem fun _ e =>
        e.mem = s.dev.mem ∧ e.xr n a.toNat = s.dev.xr n a.toNat + 1 ∧
        (e.ceAt n).lands = [⟨t3, 3, .flags 1 (b2n (s.dev.word (s.dev.accWord n src) == (s.dev.xr n r.toNat).toNat))⟩])) ∧
    (d.toNat % 4 = 0 →
      (Issues (.ceArm n c d m nh) s n c (nextPc s n) 1 [specKey n 15] [] ceOnly fun e _ => bit (e.spec n 15) 0 = true ∧
        ∃ op, (e.ceAt n).tim = [op] ∧ op.ch = x 0 % 256 ∧ op.result = none ∧ ∃ ev, op.ev = some ev ∧
          ev.time = (s.dev.clock.openAt + m.toNat * s.dev.period + nh.toNat * 65536 + x 3 : Nat) * 65536 + (x 2 : Nat) ∧
          ev.action = x 0 / 256 % 16 ∧ ev.flags = x 0 / 4096 % 4 ∧ ev.param = x 1) ∧
      (∀ g : Nat, s.dev.chTracker (x 0 % 256) = some g → s.dev.trkTiming g = true →
        Issues (.ceArmp n c d m) s n c (nextPc s n) 1 [specKey n 15] [] ceOnly fun e _ => bit (e.spec n 15) 0 = true ∧
          ∃ op, (e.ceAt n).tim = [op] ∧ op.ch = x 0 % 256 ∧ op.result = none ∧ ∃ ev, op.ev = some ev ∧ ev.action = x 0 / 256 % 16 ∧
            ev.time = s.dev.convertPhase g (s.dev.convRev g ((s.dev.clock.openAt : Int) * 65536) + m.toNat) (x 2 + 65536 * x 3)) ∧
      (s.dev.chTracker (x 0 % 256) = none → Issues (.ceArmp n c d m) s n c (nextPc s n) 1 [specKey n 15] [] ceOnly fun e _ =>
        ∃ op, (e.ceAt n).tim = [op] ∧ op.ev = none) ∧
      (Issues (.ceGetsn n c d) s n c (nextPc s n) 1 [] ((List.range 4).map fun j => xKey s n (d.toNat + j)) ceOnly fun _ e =>
        ∀ j, j < 4 → (e.xr n (d.toNat + j)).toNat = s.dev.clock.strokeNo / 65536 ^ j % 65536) ∧
      (Issues (.ceGetct n c d) s n c (nextPc s n) 1 [] ((List.range 4).map fun j => xKey s n (d.toNat + j)) ceOnly fun _ e =>
        (e.xr n d.toNat).toNat + 65536 * (e.xr n (d.toNat + 1)).toNat = s.dev.clock.openAt % 1000000000 ∧
        (e.xr n (d.toNat + 2)).toNat + 65536 * (e.xr n (d.toNat + 3)).toNat = s.dev.clock.openAt / 1000000000 % 2 ^ 32)) ∧
    Issues (.ceTclr n c) s n c (nextPc s n) 1 [specKey n 15] [] ceOnly fun e _ =>
      ∀ j, j < 16 → bit (e.spec n 15) j = (bit (s.dev.spec n 15) j && !(decide (1 ≤ j) && decide (j ≤ 5)))

/-- What a window move leaves: depth, window base and oldest frame of engine `n` (R211). -/
def WindowIs (e : Dev) (n depth wb filled : Nat) : Prop := e.depth n = depth ∧ e.wb n = wb ∧ e.filled n = filled

/-- The keys of WIN and its copy. -/
def winKeys (n : Nat) : List Nat := [specKey n 3, (CE_WIN_WIN n).key]

/-- Trap entry (R233): TPC, TCAUSE and TFL are set, TS is 1 and IE 0, and the handler issues at VEC_BASE + 8 × cause. -/
def EntersTrap (i : Instr) (s : State) (n : Nat) (c : BitVec 4) (cause tpc : Nat) : Prop :=
  Issues i s n c (s.dev.get (CE_VEC_BASE n) + 8 * cause) 3
    [specKey n 0, specKey n 8, specKey n 9, specKey n 10, (CE_COUNTS_TRAP_CNT n).key, (CE_IRQ_STAT_TRAP n).key, (CE_TRAPINFO_CAUSE n).key,
      (CE_TRAPINFO_PC n).key] [] ceOnly fun e _ =>
    e.spec n 8 = tpc % 65536 ∧ e.spec n 9 = s.dev.spec n 0 % 65536 ∧ e.spec n 10 = cause ∧ e.flag n 5 = true ∧ e.flag n 4 = false ∧
    (∀ j, j < 4 → e.flag n j = s.dev.flag n j) ∧ e.on (CE_IRQ_STAT_TRAP n) = true

/-- On an engine that is ready: NOP, and a TRAP whose condition does not hold, only advance the PC. JMP and JMPR go to the target; CALL and
CALLR also put the return address into LR and move the window up by their shift, up to a depth of 28, beyond which they enter trap 2; RET
goes to LR and moves it down, and enters trap 3 where the depth does not allow it. TRAP enters trap 7 with the next bundle as TPC. RTT and
RTI restore FLAGS and go to TPC and IPC, RTI back into YIELDED when YLD is 1. (R211, R212, R213, R222, R231, R233, R236, R246, R248) -/
def Obligations.JumpsCallsAndTraps : Prop :=
  ∀ (s : State) (n : Fin 8) (c : BitVec 4) (a : BitVec 5) (sh : BitVec 2) (t : BitVec 16),
    let x := (s.dev.xr n a.toNat).toNat
    let dep := s.dev.depth n
    let up := (s.dev.wb n + 8 * sh.toNat) % 248
    Issues (.ceNop n c) s n c (nextPc s n) 1 [] [] ceOnly (fun _ _ => True) ∧
    (CeReady s n → s.dev.cond n c.toNat s.dev.clock.now = false → Yields (.ceTrap n c) s fun e =>
      e.get (CE_STATUS_PC n) = nextPc s n ∧ Keeps (issueKeys n) s.dev e ∧ SameBut ceOnly s.dev e) ∧
    Issues (.ceJmpr n c a) s n c x 2 [] [] ceOnly (fun _ _ => True) ∧
    Issues (.ceJmp n c t) s n c t.toNat 2 [] [] ceOnly (fun _ _ => True) ∧
    (sh.toNat < 3 → dep + sh.toNat ≤ 28 →
      Issues (.ceCallr n c a sh) s n c x 2 (winKeys n) [specKey n 1] ceOnly (fun e f =>
        f.spec n 1 = nextPc s n ∧ WindowIs e n (dep + sh.toNat) up (s.dev.filled n)) ∧
      Issues (.ceCall n c t sh) s n c t.toNat 2 (winKeys n) [specKey n 1] ceOnly (fun e f =>
        f.spec n 1 = nextPc s n ∧ WindowIs e n (dep + sh.toNat) up (s.dev.filled n))) ∧
    (sh.toNat < 3 → sh.toNat ≤ dep →
      Issues (.ceRet n c sh) s n c (s.dev.spec n 1) 2 (winKeys n) [] ceOnly (fun e _ =>
        WindowIs e n (dep - sh.toNat) ((s.dev.wb n + 248 - 8 * sh.toNat) % 248) (s.dev.filled n))) ∧
    (s.dev.flag n 5 = false →
      (sh.toNat < 3 → 28 < dep + sh.toNat → EntersTrap (.ceCallr n c a sh) s n c 2 (s.dev.get (CE_STATUS_PC n)) ∧
        EntersTrap (.ceCall n c t sh) s n c 2 (s.dev.get (CE_STATUS_PC n))) ∧
      (sh.toNat < 3 → dep < sh.toNat → EntersTrap (.ceRet n c sh) s n c 3 (s.dev.get (CE_STATUS_PC n))) ∧
      EntersTrap (.ceTrap n c) s n c 7 (nextPc s n)) ∧
    Issues (.ceRtt n c) s n c (s.dev.spec n 8) 3 [specKey n 0] [] ceOnly (fun e _ => e.spec n 0 = s.dev.spec n 9 % 256) ∧
    Issues (.ceRti n c) s n c (s.dev.spec n 6) 3 [specKey n 0, (CE_STATUS_RUN n).key] [] ceOnly (fun e _ => e.spec n 0 = s.dev.spec n 7 % 256 ∧
      e.get (CE_STATUS_RUN n) = if bit (s.dev.spec n 7) 7 then 2 else 1)

/-- The special registers that MTS writes as it finds them, and those that it leaves as they are (R215). -/
def mtsPlain : List Nat := [1, 2, 6, 7, 8, 9, 13, 14]
def mtsNone : List Nat := [3, 5, 10, 11, 12, 15, 16]

/-- MFS reads a special register as it stands before the bundle, ECYC as the engine cycles since the catch. MTS writes a plain register,
leaves a read-only one, clears the written bits of the signal word but for those that SIGNAL_CE sets in the same cycle, stores selectors
with SRC 16 to 31 as 15, and of FLAGS leaves TS as it is and clears WK when a 1 is written to it. EI and DI write IE alone. REP and REPI
with a count that is not 0 set BRC and the repeated bundle; with 0 they clear BRC and skip that bundle. (R215, R223, R246, R249, R250) -/
def Obligations.SpecialRegistersAndRepeats : Prop :=
  ∀ (s : State) (n : Fin 8) (c : BitVec 4) (d a j : BitVec 5) (k : BitVec 15) (t : Bool),
    let x := (s.dev.xr n a.toNat).toNat
    let brc (m : Nat) : Nat := m + (if t then 32768 else 0)
    let past := (nextPc s n + (s.dev.bundle n 65536 (nextPc s n)).length) % 65536
    let reps (i : Instr) (m : Nat) : Prop :=
      (m ≠ 0 → Issues i s n c (nextPc s n) 1 [] [specKey n 13, specKey n 14] ceOnly fun _ e => e.spec n 13 = brc m ∧ e.spec n 14 = nextPc s n) ∧
      (m = 0 → Issues i s n c past 2 [] [specKey n 13, specKey n 14] ceOnly fun _ e => e.spec n 13 = 0 ∧ e.spec n 14 = nextPc s n)
    Issues (.ceMfs n c d j) s n c (nextPc s n) 1 [] [xKey s n d.toNat] ceOnly (fun _ e => (e.xr n d.toNat).toNat =
      if j.toNat = 16 then min 65535 ((s.dev.clock.now - s.dev.clock.openAt) / ceCycle s.dev.mode) else s.dev.spec n j.toNat % 65536) ∧
    (j.toNat ∈ mtsPlain → Issues (.ceMts n c j a) s n c (nextPc s n) 1 [] [specKey n j.toNat] ceOnly fun _ e => e.spec n j.toNat = x) ∧
    (j.toNat ∈ mtsNone → Issues (.ceMts n c j a) s n c (nextPc s n) 1 [] [] ceOnly fun _ _ => True) ∧
    (j.toNat = 4 → Issues (.ceMts n c j a) s n c (nextPc s n) 1 [] [specKey n 4] ceOnly fun _ e => ∀ b, b < 16 →
      bit (e.spec n 4) b = (bit (s.dev.spec n 4) b && (!bit x b || (s.dev.ceAt n).sigSet.any fun z => decide (s.dev.clock.now ≤ z.1) && z.2 == b))) ∧
    (17 ≤ j.toNat → Issues (.ceMts n c j a) s n c (nextPc s n) 1 [] [specKey n j.toNat, (CE_CSEL_SEL n (j.toNat - 16)).key] ceOnly fun _ e =>
      e.spec n j.toNat % 32 = min 15 (x % 32) ∧ bit (e.spec n j.toNat) 5 = bit x 5 ∧ e.spec n j.toNat / 256 = x / 256) ∧
    (j.toNat = 0 → Issues (.ceMts n c j a) s n c (nextPc s n) 1 [] [specKey n 0] ceOnly fun _ e => ∀ b, b < 8 →
      e.flag n b = if b = 5 then s.dev.flag n 5 else if b = 6 then s.dev.flag n 6 && !bit x 6 else bit x b) ∧
    Issues (.ceEi n c) s n c (nextPc s n) 1 [] [specKey n 0] ceOnly (fun _ e => e.flag n 4 = true ∧ ∀ b, b ≠ 4 → b < 16 → e.flag n b = s.dev.flag n b) ∧
    Issues (.ceDi n c) s n c (nextPc s n) 1 [] [specKey n 0] ceOnly (fun _ e => e.flag n 4 = false ∧ ∀ b, b ≠ 4 → b < 16 → e.flag n b = s.dev.flag n b) ∧
    reps (.ceRep n c a t) (x % 32768) ∧ reps (.ceRepi n c k t) k.toNat

/-- YIELD leaves the engine YIELDED with an empty open stage and no overrun. WAIT leaves it WAITING when no signal bit is set and no interrupt
is pending, and sets WK otherwise. SPILL, with a frame to spill and a stack in the own bank, stores the 8 registers of the oldest frame
below SP, lowers SP by 8 and the depth by 1; FILL loads them back, raises SP and the depth. Other registers, and memory outside the 8
words, are kept. (R213, R214, R225, R237) -/
def Obligations.YieldWaitSpillAndFill : Prop :=
  ∀ (s : State) (n : Fin 8) (c : BitVec 4),
    let sp := s.dev.spec n 2
    let f := s.dev.filled n
    let f' := (f + 240) % 248
    let base := s.dev.get (CE_SEG_BASE_BASE n 7)
    let pc := s.dev.get (CE_STATUS_PC n)
    Issues (.ceYield n c) s n c (nextPc s n) 1 [(CE_STATUS_RUN n).key, (CE_STATUS_OVERRUN n).key, (CE_RUNMAX_MAXYIELD n).key] [] ceOnly (fun e _ =>
      e.get (CE_STATUS_RUN n) = 2 ∧ e.on (CE_STATUS_OVERRUN n) = false ∧ (e.ceAt n).stage = [] ∧ (e.ceAt n).yielded = true ∧
      ((s.dev.ceAt n).stage ≠ [] → ∃ cl, (e.ceAt n).closed = (s.dev.ceAt n).closed ++ [cl] ∧ cl.writes = (s.dev.ceAt n).stage)) ∧
    (s.dev.spec n 4 = 0 → s.dev.ceIrq n = false → Issues (.ceWait n c) s n c (nextPc s n) 1 [(CE_STATUS_RUN n).key] [] ceOnly fun e _ =>
      e.get (CE_STATUS_RUN n) = 3) ∧
    (s.dev.spec n 4 ≠ 0 ∨ s.dev.ceIrq n = true → Issues (.ceWait n c) s n c (nextPc s n) 1 [] [specKey n 0] ceOnly fun _ e =>
      e.flag n 6 = true ∧ ∀ b, b ≠ 6 → b < 16 → e.flag n b = s.dev.flag n b) ∧
    (s.dev.seqTrap n ⟨0, c.toNat, 9, 0⟩ pc (nextPc s n) = none → s.dev.memc.useAt ≠ s.dev.clock.now → s.dev.memc.bad = [] →
      Issues (.ceSpill n c) s n c (nextPc s n) 4 (winKeys n) [specKey n 2] ceMem fun _ e =>
        e.spec n 2 = (sp + 65528) % 65536 ∧ WindowIs e n (s.dev.depth n - 1) (s.dev.wb n) ((f + 8) % 248) ∧
        (∀ i, i < 8 → e.word (base + (sp + 65528 + i) % 65536) = s.dev.get (CE_XREG_VALUE n ((f + i) % 248)) % 65536) ∧
        ∀ w, (∀ i, i < 8 → w ≠ base + (sp + 65528 + i) % 65536) → e.word w = s.dev.word w) ∧
    (s.dev.seqTrap n ⟨0, c.toNat, 10, 0⟩ pc (nextPc s n) = none → s.dev.memc.useAt ≠ s.dev.clock.now → s.dev.memc.bad = [] →
      Issues (.ceFill n c) s n c (nextPc s n) 4 (winKeys n) (specKey n 2 :: (List.range 8).map fun i => (CE_XREG_VALUE n ((f' + i) % 248)).key)
        ceMem fun _ e => e.spec n 2 = (sp + 8) % 65536 ∧ WindowIs e n (s.dev.depth n + 1) (s.dev.wb n) f' ∧ e.mem = s.dev.mem ∧
          ∀ i, i < 8 → e.get (CE_XREG_VALUE n ((f' + i) % 248)) = s.dev.word (base + (sp + i) % 65536))

/-- HALT of a RUNNING, YIELDED or WAITING engine leaves it HALTED and remembers its state, to which RESUME returns it; of another engine they
have no effect. STEP of an engine halted while RUNNING sets it going for one bundle, after whose issue it is HALTED again; of one that had
yielded or waits it has no effect. XREG_WRITE and SPEC_WRITE act on a STOPPED, HALTED or FAULTED engine only; RUNMAX_CLEAR sets MAXYIELD
to 0. INTERRUPT_ENTRY at the time of its vector fetch saves FLAGS and PC, claims the candidate, clears IE and goes to VEC_BASE + 8;
WAIT_WAKE at its time leaves the engine RUNNING. (R235, R236, R237, R238, R239) -/
def Obligations.EnginesUnderControl : Prop :=
  (∀ (s : State) (n : Fin 8), s.dev.hostsRun = true →
    let b := busFirst s.dev
    let run := b.get (CE_STATUS_RUN n)
    (1 ≤ run → run ≤ 3 → Yields (.halt n) s fun e => e.get (CE_STATUS_RUN n) = 4 ∧ (e.ceAt n).haltRun = run ∧
      Keeps [(CE_STATUS_RUN n).key] b e ∧ SameBut ceOnly b e) ∧
    (run = 0 ∨ 3 < run → Completes (.halt n) s b) ∧
    (run = 4 → (b.ceAt n).haltRun < 8 → Yields (.resume n) s fun e => e.get (CE_STATUS_RUN n) = (b.ceAt n).haltRun ∧
      Keeps [(CE_STATUS_RUN n).key] b e ∧ SameBut ceOnly b e) ∧
    (run ≠ 4 → Completes (.resume n) s b ∧ Completes (.ceStep n) s b) ∧
    (run = 4 → (b.ceAt n).haltRun = 1 → Yields (.ceStep n) s fun e => e.get (CE_STATUS_RUN n) = 1 ∧ (e.ceAt n).step = true ∧
      Keeps [(CE_STATUS_RUN n).key] b e ∧ SameBut ceOnly b e) ∧
    (run = 4 → (b.ceAt n).haltRun ≠ 1 → Completes (.ceStep n) s b) ∧
    (∀ (i : Fin 256) (v : BitVec 32), b.ceDebug n = true → Completes (.xregWrite n i v) s (b.set (CE_XREG_VALUE n i) (v.toNat % 65536))) ∧
    (∀ (i : Fin 256) (j : Fin 32) (v : BitVec 32), b.ceDebug n = false → Completes (.xregWrite n i v) s b ∧ Completes (.specWrite n j v) s b) ∧
    (∀ (j : Fin 32) (v : BitVec 32), b.ceDebug n = true → j.val ∈ mtsPlain → Yields (.specWrite n j v) s fun e =>
      e.spec n j = v.toNat % 65536 ∧ Keeps (specKey n j :: issueKeys n) b e ∧ SameBut id b e) ∧
    Completes (.runmaxClear n) s (b.set (CE_RUNMAX_MAXYIELD n) 0)) ∧
  (∀ (s : State) (n : Fin 8), s.dev.tclkRuns = true →
    (TakesPlaceFrom (ceWatch n s.dev) (.interruptEntry n) s (fun d => d.irqFetchAt n) fun b e => b.tclkRuns = true → b.candidate (2 + n) ≠ 1023 →
      e.get (CE_STATUS_PC n) = (b.get (CE_VEC_BASE n) + 8) % 65536 ∧ e.get (CE_STATUS_RUN n) = 1 ∧
      e.spec n 6 = b.get (CE_STATUS_PC n) % 65536 ∧ e.spec n 5 = b.candidate (2 + n) ∧ e.flag n 4 = false ∧
      e.spec n 7 = b.spec n 0 % 128 + (if b.get (CE_STATUS_RUN n) = 2 then 128 else 0) ∧
      e.irqStack (2 + n) = b.srcPrio (b.candidate (2 + n)) :: b.irqStack (2 + n)) ∧
    TakesPlaceFrom (ceWatch n s.dev) (.waitWake n) s (fun d => d.wakeUpAt n) fun b e =>
      e.get (CE_STATUS_RUN n) = 1 ∧ Keeps [(CE_STATUS_RUN n).key] b e ∧ SameBut ceOnly b e) ∧
  ∀ (d : Dev) (n : Nat), n < 8 → d.get (CE_STATUS_RUN n) = 1 → (d.ceAt n).step = true → (d.ceAt n).wheelAt = none → bits (d.spec n 13) 0 15 = 0 →
    (ceIssue n [⟨0, 0, 0, 0⟩] d).get (CE_STATUS_RUN n) = 4 ∧ ((ceIssue n [⟨0, 0, 0, 0⟩] d).ceAt n).step = false ∧
    (ceIssue n [⟨0, 0, 0, 0⟩] d).get (CE_STATUS_PC n) = (d.get (CE_STATUS_PC n) + 1) % 65536

/-- `d` while a write that was accepted at `o` is carried out (R24). -/
def acceptedAt (o : Option Nat) (d : Dev) : Dev := { d with clock := { d.clock with accept := o } }

/-- WHEEL_ACCESS_COMPLETE takes time to the completion of the oldest access of the lane; with an empty lane it has no effect. An access that
reaches its target leaves the lane: a load of a bank word holds the sample until the access completes, a store writes its word or pair in
the bank and no other byte. A store of a pair to a register writes the 32-bit register as the engine would, accepted when its bundle
issued; a single-word store writes 0 to the other half. (R42, R43, R218, R219, R435) -/
def Obligations.WheelAccessesReachTheirTargets : Prop :=
  (∀ (s : State) (n : Fin 8), s.dev.tclkRuns = true →
    ((s.dev.ceAt n).wheel = [] → (∀ l, l ∈ (s.dev.ceAt n).lands → l.unit ≠ 3) → Completes (.wheelAccessComplete n) s s.dev) ∧
    ∀ t : Nat, s.dev.wheelEnd n = some t → Completes (.wheelAccessComplete n) s (passTo t s.dev)) ∧
  ∀ (d : Dev) (n : Nat) (op : WheelOp), n < 8 → let e := wheelReach n op d
    ((e.ceAt n).wheel.length ≤ (d.ceAt n).wheel.length) ∧
    (op.store = true → bankOf (2 * op.word) = none → e = acceptedAt none (regWrite (.ce n) (2 * op.word)
      (if op.pair then op.data % 2 ^ 32 else if op.word % 2 = 1 then op.data % 65536 * 65536 else op.data % 65536)
      (acceptedAt (some op.at_) (d.putCe n { d.ceAt n with wheel := (d.ceAt n).wheel.erase op })))) ∧
    (∀ k : Nat, bankOf (2 * op.word) = some k → d.memc.useAt ≠ d.clock.now → d.memc.bad = [] →
      (op.store = true → d.sdLocked (2 * op.word) = false → (e.ceAt n).wheel = (d.ceAt n).wheel.erase op ∧
        e.word op.word = op.data % 65536 ∧ (op.pair = true → e.word (op.word + 1) = op.data / 65536 % 65536) ∧
        (∀ x, (x < 2 * op.word ∨ 2 * op.word + (if op.pair then 4 else 2) ≤ x) → e.mem.byte x = d.mem.byte x) ∧ e.regs = d.regs) ∧
      (op.store = false → op.pair = false → (e.ceAt n).wheel = (d.ceAt n).wheel.erase op ∧ e.mem = d.mem ∧ e.regs = d.regs ∧
        (e.ceAt n).lands = insertLand ⟨op.doneAt, 3, .reg op.dest (d.word op.word)⟩ (d.ceAt n).lands))

/-- Pin engine `n` is RUNNING and the action TCLK of an instruction with offset `ofs` is now. -/
def PeReady (s : State) (n : Nat) (ofs : BitVec 8) : Prop :=
  InStroke s ∧ pePresent s.dev.mode n = true ∧ s.dev.get (PE_STATUS_RUN n) = 1 ∧ s.dev.peTclk n ofs.toNat = s.dev.clock.now

/-- The fields of pin engine `n` that every instruction may write: state, PC, and what the queues show. -/
def peKeys (n : Nat) : List Nat :=
  [(PE_STATUS_RUN n).key, (PE_STATUS_PC n).key, (PE_STATUS_TX_LEVEL n).key, (PE_STATUS_RX_LEVEL n).key, (PE_RXQ_WORD n).key,
    (PE_RXQ_INFO_COUNT n).key, (PE_RXQ_INFO_FLUSHED n).key, (PE_RXQ_INFO_VALID n).key]

/-- Only pin engines and the samples differ; only those and the balls; only those and the writers of group flags. -/
def peOnly (d : Dev) : Dev := { d with pe := [], sync := 0 }
def peOut (d : Dev) : Dev := { d with pe := [], sync := 0, peBall := [] }
def peFlags (d : Dev) : Dev := { d with pe := [], sync := 0, gflagBy := [] }

/-- The PC after the one of engine `n`, with the wrap (R274). -/
def peNext (s : State) (n : Nat) : Nat :=
  if s.dev.get (PE_STATUS_PC n) = s.dev.get (PE_CFG_WRAP_TOP n) then s.dev.get (PE_CFG_WRAP_BOTTOM n) else (s.dev.get (PE_STATUS_PC n) + 1) % 64

/-- The base that an instruction which anchors nothing leaves (R269). -/
def peBase (s : State) (n : Nat) (ofs : BitVec 8) : Int := s.dev.peTime n ofs.toNat + s.dev.peDiv n

/-- Instruction `i` of engine `n` acts now: next PC `pc`, next base `base`, `P` holds; with no side action every register field but those
of `keys`, every other engine, and every part outside `p` is kept. -/
def PeActs (i : Instr) (s : State) (n : Nat) (side : BitVec 2) (pins : BitVec 160) (pc : Nat) (base : Int) (keys : List Nat) (p : Dev → Dev)
    (P : Dev → Prop) : Prop :=
  Yields i s fun e => e.get (PE_STATUS_PC n) = pc % 64 ∧ e.get (PE_STATUS_RUN n) = 1 ∧ (e.peAt n).base = base ∧
    (e.peAt n).actFrom = s.dev.clock.now + 1 ∧ (e.peAt n).stall = none ∧ e.sync = pins.toNat ∧ P e ∧
    (side = 0 → Keeps (keys ++ peKeys n) s.dev e ∧ SameBut p s.dev e ∧ ∀ k, k ≠ n → e.peAt k = s.dev.peAt k)

/-- Instruction `i`, the word `w`, stalls: the engine keeps its PC. -/
def PeStalls (i : Instr) (s : State) (n w : Nat) : Prop :=
  Yields i s fun e => e.get (PE_STATUS_RUN n) = 2 ∧ (e.peAt n).stall = some w ∧ Keeps [(PE_STATUS_RUN n).key] s.dev e ∧ SameBut peOnly s.dev e

/-- Instruction `i` is undefined: the engine stops and shows ILLEGAL (R277). -/
def PeIllegal (i : Instr) (s : State) (n : Nat) : Prop :=
  Yields i s fun e => e.get (PE_STATUS_RUN n) = 0 ∧ e.on (PE_STATUS_ILLEGAL n) = true ∧ e.on (PE_IRQ_STAT_ILLEGAL n) = true ∧
    Keeps [(PE_STATUS_RUN n).key, (PE_STATUS_ILLEGAL n).key, (PE_IRQ_STAT_ILLEGAL n).key] s.dev e

/-- No engine has written a ball in this TCLK. -/
def BallsFree (s : State) : Prop :=
  ∀ b, (aget ({} : PeBall) b s.dev.peBall).lvAt ≠ s.dev.clock.now + 1 ∧ (aget ({} : PeBall) b s.dev.peBall).dirAt ≠ s.dev.clock.now + 1

/-- Pin `i` of the OUT window takes level `v`, if the rig image lets engines drive it; otherwise it stays. -/
def PinTakes (s : State) (n : Nat) (e : Dev) (i : Nat) (v : Bool) : Prop :=
  let b := winBall (s.dev.get (PE_PINS_OUT_BASE n)) i
  (aget ({} : PeBall) b e.peBall).level = if s.dev.peDrives b false then v else (aget ({} : PeBall) b s.dev.peBall).level

/-- The condition of BR with code `c` (R276), on the sampled pins. -/
def brTaken (s : State) (n c : Nat) (pins : BitVec 160) : Bool :=
  let x := s.dev.get (PE_X_X n)
  let y := s.dev.get (PE_Y_Y n)
  let jp := bit pins.toNat (s.dev.get (PE_PINS2_JPIN n))
  let ex := decide (s.dev.get (PE_SHIFTCTL_WLEN_TX n) ≤ s.dev.get (PE_STATUS_TSH_COUNT n))
  match c with
  | 0 => true | 1 => decide (x ≠ 0) | 2 => decide (x = 0) | 3 => decide (y ≠ 0) | 4 => decide (y = 0) | 5 => decide (x < y)
  | 6 => jp | 7 => !jp | 8 => ex | 9 => !ex
  | 10 => decide (s.dev.get (PE_SHIFTCTL_WLEN_RX n) ≤ s.dev.get (PE_STATUS_RSH_COUNT n))
  | 11 => (s.dev.peAt n).tx.isEmpty | 12 => !(s.dev.peAt n).tx.isEmpty
  | 13 => decide (s.dev.rxDepth n ≤ (s.dev.peAt n).rx.length)
  | _ => decide (s.dev.get (PE_STATUS_RSH_COUNT n) ≠ 0)

/-- What HOLD tests (R275): an IN pin, the jump pin, a trigger line, a group flag as it stood at the start of the TCLK (log entry 97), or a
catch; none of these: undefined. -/
def holdSees (s : State) (n : Nat) (pins : BitVec 160) (lvl : Bool) (src : BitVec 3) (idx : BitVec 5) : Option Bool :=
  match src.toNat with
  | 0 => some (decide (idx.toNat < s.dev.get (PE_PINS_IN_COUNT n)) && bit pins.toNat (winBall (s.dev.get (PE_PINS_IN_BASE n)) idx.toNat))
  | 1 => if idx.toNat = 0 then some (bit pins.toNat (s.dev.get (PE_PINS2_JPIN n))) else none
  | 2 => some ({ s.dev with sync := pins.toNat }.trigLevel idx.toNat)
  | 3 => if idx.toNat < 8 then some (s.dev.flagBefore (n / 8) idx.toNat s.dev.clock.now) else none
  | 4 => if idx.toNat = 0 ∧ lvl = true then some (s.dev.peAt n).catchSeen else none
  | _ => none

/-- Bit `i` that TAKE reads from source `src` (R275). -/
def takeBit (s : State) (n : Nat) (pins : BitVec 160) (src : BitVec 2) (i : Nat) : Bool :=
  match src.toNat with
  | 0 => decide (i < s.dev.get (PE_PINS_IN_COUNT n)) && bit pins.toNat (winBall (s.dev.get (PE_PINS_IN_BASE n)) i)
  | 1 => false
  | _ => true

/-- The value that XFER reads from source `src` (R275). -/
def xferFrom (s : State) (n : Nat) (pins : BitVec 160) (src : BitVec 3) : Nat :=
  match src.toNat with
  | 0 => { s.dev with sync := pins.toNat }.inPins n
  | 1 => s.dev.get (PE_X_X n) | 2 => s.dev.get (PE_Y_Y n) | 3 => (s.dev.peAt n).tsh | 4 => (s.dev.peAt n).rsh
  | 5 => s.dev.peStatusWord n | 6 => (s.dev.peAt n).stamp | _ => 0

/-- Of an engine whose action time has come: BR goes to its target when its condition holds, counting X or Y down, else on; condition 15 goes
to the PC that TSH names. HOLD (a group flag: as it stood at the start of the TCLK, log entry 97) goes on, noting its TCLK, when its
source has the level, else it stalls with its PC; SYNC sets the base from the last HOLD, a stroke edge, TSH or now. FLAG_SET, FLAG_CLEAR
and FLAG_WAIT act on the flag of the group unless a lower writer has in this TCLK; WAIT stalls when the flag was clear and no engine sets
it in this TCLK; FLAG_SIGNAL sets SIGNAL. An undefined form stops the engine with ILLEGAL. (R268, R271, R272, R274, R275, R276, R277,
R287) -/
def Obligations.PinEngineFlow : Prop :=
  ∀ (s : State) (n : Fin 32) (ofs : BitVec 8) (side : BitVec 2) (pins : BitVec 160), PeReady s n ofs →
    let acts (i : Instr) := PeActs i s n side pins (peNext s n) (peBase s n ofs)
    let x := s.dev.get (PE_X_X n)
    let y := s.dev.get (PE_Y_Y n)
    let now := s.dev.clock.now
    (∀ (c : BitVec 4) (t : BitVec 6), c.toNat ≠ 15 → PeActs (.peBr n ofs side pins c t) s n side pins
      (if brTaken s n c.toNat pins then t.toNat else peNext s n) (peBase s n ofs) [(PE_X_X n).key, (PE_Y_Y n).key] peOnly fun e =>
        e.get (PE_X_X n) = (if c.toNat = 1 ∧ x ≠ 0 then (x - 1) % 2 ^ 32 else x) ∧
        e.get (PE_Y_Y n) = (if c.toNat = 3 ∧ y ≠ 0 then (y - 1) % 2 ^ 32 else y)) ∧
    PeActs (.peBr n ofs side pins 15 0) s n side pins ((s.dev.peAt n).tsh % 64) (peBase s n ofs) [] peOnly (fun _ => True) ∧
    (∀ t : BitVec 6, t ≠ 0 → PeIllegal (.peBr n ofs side pins 15 t) s n) ∧
    (∀ (lvl : Bool) (src : BitVec 3) (idx : BitVec 5),
      (holdSees s n pins lvl src idx = none → PeIllegal (.peHold n ofs side pins lvl src idx) s n) ∧
      (holdSees s n pins lvl src idx = some lvl → acts (.peHold n ofs side pins lvl src idx) [] peOnly fun e =>
        (e.peAt n).holdAt = now ∧ (e.peAt n).stamp = now % 2 ^ 32) ∧
      (holdSees s n pins lvl src idx = some !lvl → PeStalls (.peHold n ofs side pins lvl src idx) s n
        (ofs.toNat * 65536 + 4096 + side.toNat * 1024 + (if lvl then 512 else 0) + src.toNat * 64 + idx.toNat))) ∧
    PeActs (.peSync n ofs side pins 0) s n side pins (peNext s n) ((s.dev.peAt n).holdAt * 256) [] peOnly (fun _ => True) ∧
    (s.dev.clock.openAt + (s.dev.peAt n).tsh % s.dev.period < now → PeActs (.peSync n ofs side pins 1) s n side pins (peNext s n)
      ((s.dev.clock.endAt + (s.dev.peAt n).tsh % s.dev.period : Nat) * 256) [] peOnly (fun _ => True)) ∧
    (now ≤ s.dev.clock.openAt + (s.dev.peAt n).tsh % s.dev.period → PeActs (.peSync n ofs side pins 1) s n side pins (peNext s n)
      ((s.dev.clock.openAt + (s.dev.peAt n).tsh % s.dev.period : Nat) * 256) [] peOnly (fun _ => True)) ∧
    PeActs (.peSync n ofs side pins 2) s n side pins (peNext s n)
      ((now + ((s.dev.peAt n).tsh + 2 ^ 32 - now % 2 ^ 32) % 2 ^ 32 : Nat) * 256) [] peOnly (fun _ => True) ∧
    PeActs (.peSync n ofs side pins 3) s n side pins (peNext s n) (now * 256) [] peOnly (fun _ => True) ∧
    (∀ f : BitVec 3,
      let fk := PE_GFLAGS_FLAGS (n / 8 * 8)
      let r := aget 0 (n / 8 * 8 + f.toNat) s.dev.gflagBy
      let free := r = 0 ∨ (r - 1) / 128 ≠ now ∨ n.val + 1 ≤ (r - 1) / 2 % 64
      let others (e : Dev) : Prop := ∀ j, j < 8 → j ≠ f.toNat → bit (e.gflags n) j = bit (s.dev.gflags n) j
      (free → acts (.peFlagSet n ofs side pins f) [fk.key] peFlags fun e => bit (e.gflags n) f.toNat = true ∧ others e) ∧
      (free → acts (.peFlagClear n ofs side pins f) [fk.key] peFlags fun e => bit (e.gflags n) f.toNat = false ∧ others e) ∧
      (free → s.dev.flagSeen n f.toNat now = true → acts (.peFlagWait n ofs side pins f) [fk.key] peFlags fun e =>
        bit (e.gflags n) f.toNat = false ∧ others e) ∧
      (s.dev.flagSeen n f.toNat now = false → PeStalls (.peFlagWait n ofs side pins f) s n
        (ofs.toNat * 65536 + 9 * 4096 + side.toNat * 1024 + 768 + f.toNat)) ∧
      (f ≠ 0 → PeIllegal (.peFlagSignal n ofs side pins f) s n)) ∧
    acts (.peFlagSignal n ofs side pins 0) [(PE_IRQ_STAT_SIGNAL n).key] peOnly (fun e => e.on (PE_IRQ_STAT_SIGNAL n) = true)

/-- Of an engine whose action time has come: SEND puts the next bits of TSH on the OUT pins that engines drive and counts them; TAKE shifts
bits of its source into RSH in the order of RX_LSB; LOAD takes the queue head into TSH, stalls on an empty queue with WAIT and repeats the
last word without it; STORE pushes RSH with its count, stalls on a full queue with WAIT and discards without it; PUT drives the first 8
OUT pins; LDC loads X or Y; XFER copies its source, inverted with CPL. (R271, R275, R278, R279, R280, R284, R286) -/
def Obligations.PinEngineData : Prop :=
  ∀ (s : State) (n : Fin 32) (ofs : BitVec 8) (side : BitVec 2) (pins : BitVec 160), PeReady s n ofs →
    let acts (i : Instr) := PeActs i s n side pins (peNext s n) (peBase s n ofs)
    let p := s.dev.peAt n
    let tc := s.dev.get (PE_STATUS_TSH_COUNT n)
    let rc := s.dev.get (PE_STATUS_RSH_COUNT n)
    let spent := s.dev.get (PE_SHIFTCTL_WLEN_TX n) ≤ tc
    let outs := s.dev.get (PE_PINS_OUT_COUNT n)
    let countAct (i : Instr) := acts i [(PE_STATUS_TSH_COUNT n).key, (PE_COUNTS_B_COLLIDE_CNT n).key, (PE_IRQ_STAT_COLLIDE n).key] peOut
    (∀ (dst : BitVec 2) (k : BitVec 6), 1 ≤ k.toNat → k.toNat ≤ 32 → dst.toNat ≤ 2 → s.dev.on (PE_SHIFTCTL_TX_AUTO n) = false ∨ ¬ spent →
      BallsFree s → countAct (.peSend n ofs side pins dst k) fun e => e.get (PE_STATUS_TSH_COUNT n) = min 32 (tc + k.toNat) ∧
        (e.peAt n).tsh = p.tsh ∧ (side = 0 → dst = 0 → ∀ i, i < min k.toNat outs → PinTakes s n e i
          (if s.dev.on (PE_SHIFTCTL_TX_LSB n) then decide (tc + i < 32) && bit p.tsh (tc + i)
           else decide (tc + i + 1 ≤ s.dev.get (PE_SHIFTCTL_WLEN_TX n)) && bit p.tsh (s.dev.get (PE_SHIFTCTL_WLEN_TX n) - 1 - (tc + i))))) ∧
    (∀ k : BitVec 6, k.toNat = 0 ∨ 32 < k.toNat → PeIllegal (.peSend n ofs side pins 2 k) s n ∧ PeIllegal (.peTake n ofs side pins 0 k) s n) ∧
    (∀ (src : BitVec 2) (k : BitVec 6), 1 ≤ k.toNat → k.toNat ≤ 32 → src.toNat ≤ 2 → s.dev.on (PE_SHIFTCTL_RX_AUTO n) = false → p.rsh < 2 ^ 32 →
      acts (.peTake n ofs side pins src k) [(PE_STATUS_RSH_COUNT n).key] peOnly fun e => e.get (PE_STATUS_RSH_COUNT n) = min 32 (rc + k.toNat) ∧
        ∀ j, j < 32 → bit (e.peAt n).rsh j =
          if s.dev.on (PE_SHIFTCTL_RX_LSB n) then bit p.rsh j || (decide (rc ≤ j) && decide (j < rc + k.toNat) && takeBit s n pins src (j - rc))
          else if j < k.toNat then takeBit s n pins src (k.toNat - 1 - j) else bit p.rsh (j - k.toNat)) ∧
    (∀ wait : Bool,
      let keys := [(PE_STATUS_TSH_COUNT n).key, (PE_IRQ_STAT_TX_LOW n).key, (PE_COUNTS_A_UNDERRUN_CNT n).key, (PE_IRQ_STAT_UNDERRUN n).key]
      (¬ spent → acts (.peLoad n ofs side pins wait true) [] peOnly fun e => (e.peAt n).tsh = p.tsh ∧ (e.peAt n).tx = p.tx) ∧
      (∀ (ex : Bool) (w : Nat) (r : List Nat), ex = false ∨ spent → p.tx = w :: r → acts (.peLoad n ofs side pins wait ex) keys peOnly fun e =>
        (e.peAt n).tsh = w ∧ (e.peAt n).last = w ∧ (e.peAt n).tx = r ∧ e.get (PE_STATUS_TSH_COUNT n) = 0) ∧
      (p.tx = [] → (wait = false → acts (.peLoad n ofs side pins wait false) keys peOnly fun e => (e.peAt n).tsh = p.last ∧
        e.get (PE_STATUS_TSH_COUNT n) = 0 ∧ e.on (PE_IRQ_STAT_UNDERRUN n) = true) ∧
        (wait = true → PeStalls (.peLoad n ofs side pins wait false) s n (ofs.toNat * 65536 + 4 * 4096 + side.toNat * 1024 + 512)))) ∧
    (∀ wait : Bool,
      let keys := [(PE_STATUS_RSH_COUNT n).key, (PE_IRQ_STAT_RX_HIGH n).key, (PE_COUNTS_A_OVERRUN_CNT n).key, (PE_IRQ_STAT_OVERRUN n).key]
      (p.rx.length < s.dev.rxDepth n → acts (.peStore n ofs side pins wait false) keys peOnly fun e =>
        (e.peAt n).rx = p.rx ++ [⟨p.rsh, rc, false⟩] ∧ (e.peAt n).rsh = 0 ∧ e.get (PE_STATUS_RSH_COUNT n) = 0) ∧
      (s.dev.rxDepth n ≤ p.rx.length → (wait = false → acts (.peStore n ofs side pins wait false) keys peOnly fun e =>
        (e.peAt n).rx = p.rx ∧ (e.peAt n).rsh = 0 ∧ e.on (PE_IRQ_STAT_OVERRUN n) = true) ∧
        (wait = true → s.dev.rxDepth n ≠ 0 →
          PeStalls (.peStore n ofs side pins wait false) s n (ofs.toNat * 65536 + 5 * 4096 + side.toNat * 1024 + 512))) ∧
      (rc < s.dev.get (PE_SHIFTCTL_WLEN_RX n) → acts (.peStore n ofs side pins wait true) [] peOnly fun e => (e.peAt n).rsh = p.rsh)) ∧
    (∀ imm : BitVec 8, BallsFree s → acts (.pePut n ofs side pins 0 imm) [(PE_COUNTS_B_COLLIDE_CNT n).key, (PE_IRQ_STAT_COLLIDE n).key] peOut
      fun e => side = 0 → ∀ i, i < min 8 outs → PinTakes s n e i (bit imm.toNat i)) ∧
    (∀ imm : BitVec 8,
      acts (.peLdc n ofs side pins false false imm) [(PE_X_X n).key] peOnly (fun e => e.get (PE_X_X n) = imm.toNat) ∧
      acts (.peLdc n ofs side pins true false imm) [(PE_Y_Y n).key] peOnly (fun e => e.get (PE_Y_Y n) = imm.toNat)) ∧
    acts (.peLdc n ofs side pins false true 0) [(PE_X_X n).key] peOnly (fun e => e.get (PE_X_X n) = p.tsh % 2 ^ 32) ∧
    (∀ (cpl : Bool) (src : BitVec 3),
      let v := if cpl then 2 ^ 32 - 1 - xferFrom s n pins src else xferFrom s n pins src
      acts (.peXfer n ofs side pins 0 cpl src) [(PE_STATUS_TSH_COUNT n).key] peOnly (fun e => (e.peAt n).tsh = v ∧ e.get (PE_STATUS_TSH_COUNT n) = 0) ∧
      acts (.peXfer n ofs side pins 1 cpl src) [(PE_STATUS_RSH_COUNT n).key] peOnly (fun e => (e.peAt n).rsh = v ∧ e.get (PE_STATUS_RSH_COUNT n) = 32) ∧
      acts (.peXfer n ofs side pins 2 cpl src) [(PE_X_X n).key] peOnly (fun e => e.get (PE_X_X n) = v % 2 ^ 32) ∧
      acts (.peXfer n ofs side pins 3 cpl src) [(PE_Y_Y n).key] peOnly (fun e => e.get (PE_Y_Y n) = v % 2 ^ 32) ∧
      (BallsFree s → acts (.peXfer n ofs side pins 4 cpl src) [(PE_COUNTS_B_COLLIDE_CNT n).key, (PE_IRQ_STAT_COLLIDE n).key] peOut
        fun e => side = 0 → ∀ i, i < min 32 outs → PinTakes s n e i (bit v i)))

/-- TXQ_PUSH of an engine that is present, after the transfer of the engine in the same TCLK, appends a word to a queue with room; a full
queue stays, and the drop is counted and shown. RXQ_POP returns the word that RXQ shows and removes the head. GFLAGS_WRITE sets the eight
flags of the group; PE_RESTART notes the restart for the coming catch, in the finish window for the one after it; PE_COUNT_CLEAR sets the
five counts to 0. PE_UNSTALL of an engine stalled at a LOAD, in a TCLK in which it tests, acts when the queue has a word and leaves it
stalled otherwise. (R271, R273, R280, R281, R287) -/
def Obligations.PinQueuesAndControls : Prop :=
  (∀ (s : State) (n : Fin 32), s.dev.hostsRun = true →
    let b := busFirst s.dev
    let q := peFirst n b
    let p := q.peAt n
    let one (e : Dev) : Prop := SameBut (fun d => { d with pe := [] }) q e ∧ ∀ k, k ≠ n.val → e.peAt k = q.peAt k
    (∀ v : BitVec 32, pePresent q.mode n = true →
      (p.tx.length < q.txDepth n → Yields (.txqPush n v) s fun e => (e.peAt n).tx = p.tx ++ [v.toNat] ∧
        e.get (PE_STATUS_TX_LEVEL n) = p.tx.length + 1 ∧ Keeps (peKeys n) q e ∧ one e) ∧
      (q.txDepth n ≤ p.tx.length → Completes (.txqPush n v) s ((q.inc (PE_COUNTS_B_TXDROP_CNT n)).cause (PE_IRQ_STAT_TXDROP n)))) ∧
    (∀ v : BitVec 32, pePresent q.mode n = false → Completes (.txqPush n v) s q) ∧
    (∀ m : Master, pePresent q.mode n = true → Yields (.rxqPop m n) s fun e => e.lastRead m = q.get (PE_RXQ_WORD n) ∧
      (e.peAt n).rx = p.rx.tail ∧ Keeps (peKeys n) q e ∧ ∀ k, k ≠ n.val → e.peAt k = q.peAt k) ∧
    (∀ v : BitVec 8, Yields (.gflagsWrite n v) s fun e => (∀ j, j < 8 → bit (e.gflags n) j = bit v.toNat j) ∧
      Keeps [(PE_GFLAGS_FLAGS (n / 8 * 8)).key] b e ∧ SameBut (fun d => { d with gflagBy := [] }) b e) ∧
    Completes (.peRestart n) s (b.putPe n { b.peAt n with restart :=
      if b.inFinish then { (b.peAt n).restart with late := true } else { (b.peAt n).restart with soon := true } }) ∧
    (Yields (.peCountClear n) s fun e => e.get (PE_COUNTS_A_UNDERRUN_CNT n) = 0 ∧ e.get (PE_COUNTS_A_OVERRUN_CNT n) = 0 ∧
      e.get (PE_COUNTS_B_COLLIDE_CNT n) = 0 ∧ e.get (PE_COUNTS_B_TXDROP_CNT n) = 0 ∧ e.get (PE_COUNTS_C_FLUSH_CNT n) = 0 ∧
      Keeps [(PE_COUNTS_A_UNDERRUN_CNT n).key, (PE_COUNTS_A_OVERRUN_CNT n).key, (PE_COUNTS_B_COLLIDE_CNT n).key,
        (PE_COUNTS_B_TXDROP_CNT n).key, (PE_COUNTS_C_FLUSH_CNT n).key] b e ∧ SameBut id b e)) ∧
  ∀ (s : State) (n : Fin 32) (pins : BitVec 160), InStroke s → pePresent s.dev.mode n = true → s.dev.get (PE_STATUS_RUN n) = 2 →
    let p := s.dev.peAt n
    p.stall = some (4 * 4096 + 512) → p.actFrom ≤ s.dev.clock.now → p.triedAt ≤ s.dev.clock.now →
    peSlot s.dev.mode s.dev.clock.now = s.dev.clock.now →
      (∀ (w : Nat) (r : List Nat), p.tx = w :: r → PeActs (.peUnstall n pins) s n 0 pins (peNext s n) (s.dev.clock.now * 256 + s.dev.peDiv n)
        [(PE_STATUS_TSH_COUNT n).key, (PE_IRQ_STAT_TX_LOW n).key] peOnly fun e => (e.peAt n).tsh = w ∧ (e.peAt n).tx = r) ∧
      (p.tx = [] → Yields (.peUnstall n pins) s fun e => e.get (PE_STATUS_RUN n) = 2 ∧ (e.peAt n).stall = some (4 * 4096 + 512) ∧ e.regs = s.dev.regs ∧
        SameBut peOnly s.dev e)

/-- REGISTER_WRITE at a misaligned address counts as bad size and at no register as unmapped, without another effect; of an RW register it
stores the value, of a W1C register it clears the written bits that hardware does not set in the same TCLK, and of an RW/T register it
waits for its catch. FABRIC_GRANT without a request has no effect; else the oldest request takes the link for 2 TCLK, or 4 of more than 32
bytes, its wait is recorded, and a write reaches its bank, or goes on to the DRAM controller, where DRAM_ACCESS_COMPLETE performs it,
changing its own bytes alone. MAXWAIT_CLEAR and MAXLAT_CLEAR set the longest wait to 0. (R12, R14, R34, R37, R38, R39, R41, R311, R434,
R443) -/
def Obligations.RegisterWritesAndGrants : Prop :=
  (∀ (s : State) (m : Master) (a v : BitVec 32), s.dev.hostsRun = true →
    let b := busFirst s.dev
    (a.toNat % 4 ≠ 0 → Completes (.registerWrite m a v) s (badSize m b)) ∧
    (a.toNat % 4 = 0 → b.isReg a.toNat = false → Completes (.registerWrite m a v) s (unmapped m b)) ∧
    (Yields (.registerWrite m 0x41004 v) s fun e => e.get TXG_IRQ_EN_EN = v.toNat % 2 ^ 16 ∧
      Keeps [TXG_IRQ_EN_EN.key] b e ∧ SameBut id b e) ∧
    (Yields (.registerWrite m 0x41008 v) s fun e =>
      (∀ j, j < 8 → bit (e.get TXG_IRQ_STAT_REJECT) j = (bit (b.get TXG_IRQ_STAT_REJECT) j &&
          (!bit v.toNat j || bit (aget 0 TXG_IRQ_STAT_REJECT.key b.cyc.set_) j)) ∧
        bit (e.get TXG_IRQ_STAT_DISQ) j = (bit (b.get TXG_IRQ_STAT_DISQ) j &&
          (!bit v.toNat (j + 8) || bit (aget 0 TXG_IRQ_STAT_DISQ.key b.cyc.set_) j))) ∧
      Keeps [TXG_IRQ_STAT_REJECT.key, TXG_IRQ_STAT_DISQ.key] b e ∧ SameBut id b e) ∧
    ((∀ n, m ≠ .ce n) → b.bound m = none → Yields (.registerWrite m 0x10 v) s fun e => e.regs = b.regs ∧
      e.txn.unbound = b.txn.unbound ++ [⟨0x10, v.toNat, 0xfffff, b.inFinish⟩] ∧
      SameBut (fun d => { d with txn := { d.txn with unbound := [] } }) b e) ∧
    Completes .maxwaitClear s (b.set SYS_FAB_MAXWAIT_MAXWAIT 0) ∧
    Completes .maxlatClear s (b.set MEM_DRAM_STAT_MAXLAT_NS 0)) ∧
  (∀ (s : State) (kind : Fin 3), s.dev.tclkRuns = true →
    (s.dev.fab.reqs = [] → Completes (.fabricGrant kind) s s.dev) ∧
    TakesPlace (.fabricGrant kind) s Dev.grantAt fun b e =>
      let w := if b.fabNext.any fun r => r.acc.afterWheel then wheelTicks b else b
      ∀ r : FabReq, w.fabNext = some r → w.hostsRun = true → w.fab.freeAt ≤ w.clock.now → w.fab.wait = [] →
        let shown := e.get SYS_FAB_MAXWAIT_MAXWAIT = (fabWaited (w.clock.now - r.at_) w).get SYS_FAB_MAXWAIT_MAXWAIT ∧
          e.fab.reqs = w.fab.reqs.erase r ∧ e.fab.freeAt = w.clock.now + (if 32 < r.acc.bytes then 4 else 2)
        (∀ k : Nat, r.acc.master = .spi → r.acc.write = true → r.acc.bytes = 4 → r.acc.addr % 4 = 0 → bankOf r.acc.addr = some k →
          w.bankClosed .spi k true = false → w.sdLocked r.acc.addr = false → w.memc.useAt ≠ w.clock.now → shown ∧
          e.mem.read r.acc.addr 4 = r.acc.data % 2 ^ 32 ∧ (∀ x, (x < r.acc.addr ∨ r.acc.addr + 4 ≤ x) → e.mem.byte x = w.mem.byte x) ∧
          Keeps [SYS_FAB_MAXWAIT_MAXWAIT.key] w e) ∧
        (w.dramMapped r.acc.addr = true → r.acc.carries = false → shown ∧ e.memc.dram = w.memc.dram ++ [⟨w.clock.now, r.acc⟩] ∧
          e.mem = w.mem ∧ Keeps [SYS_FAB_MAXWAIT_MAXWAIT.key] w e)) ∧
  ∀ (s : State) (kind : Fin 3), s.dev.hostsRun = true →
    (s.dev.memc.dram = [] → Completes (.dramAccessComplete kind) s s.dev) ∧
    ∀ (q : DramReq) (r : List DramReq), s.dev.memc.dram = q :: r → s.dev.fab.wait = [] → q.acc.master = .spi → q.acc.write = true →
      0x80000000 ≤ q.acc.addr → s.dev.dramMapped q.acc.addr = true → s.dev.inSlot q.acc.addr = false →
      s.dev.inSlot (q.acc.addr + q.acc.bytes - 1) = false → Yields (.dramAccessComplete kind) s fun e => e.memc.dram = r ∧
        e.mem.read q.acc.addr q.acc.bytes = q.acc.data % 256 ^ q.acc.bytes ∧
        (∀ x, (x < q.acc.addr ∨ q.acc.addr + q.acc.bytes ≤ x) → e.mem.byte x = s.dev.mem.byte x) ∧
        Keeps [MEM_DRAM_STAT_MAXLAT_NS.key] s.dev e

/-- A write of n bytes reads back as its value modulo 256^n, leaves every other byte, and keeps the canonical form of memory. SCRUB at its
time moves to the next word while SCRUB_EN is 1, counts a correctable error, and comes again INTERVAL later (log entry 103); ECC_WRITEBACK
takes the oldest corrected word of a bank that is idle; DRAM_TRAIN has an effect in BOATHOUSE alone, DRAM_TRAINING_DONE shows DRAM trained
with the configured capacity; MR4_SAMPLE shows the derating; DRAM_REFRESH and ZQ_CALIBRATION change no state that the spec names (log
entry 31). (R6, R438, R439, R440, R441, R442) -/
def Obligations.MemoryHoldsWhatIsWritten : Prop :=
  (∀ (m : Mem) (a v n : Nat), (m.write a v n).read a n = v % 256 ^ n ∧ (∀ x, (x < a ∨ a + n ≤ x) → (m.write a v n).byte x = m.byte x) ∧
    (Memory.wf m = true → Memory.wf (m.write a v n) = true) ∧
    ∀ b : Nat, m.read b 2 = m.read b 1 + 256 * m.read (b + 1) 1) ∧
  (∀ (d : Dev) (k a : Nat) (r : List Nat), d.wbOf k = a :: r →
    (d.bankInUse k = false → eccWriteback k d = { d with memc := { d.memc with wb := d.memc.wb.erase a } }) ∧
    (d.bankInUse k = true → eccWriteback k d = d)) ∧
  ∀ s : State, s.dev.tclkRuns = true →
    (s.dev.on MEM_CTRL_SCRUB_EN = false → ∀ errs, Completes (.scrub errs) s s.dev) ∧
    (TakesPlace (.scrub []) s Dev.scrubNext fun b e => b.memc.bad = [] →
      e = { b with memc := { b.memc with scrub := (b.memc.scrub + 1) % 2 ^ 21, scrubAt := b.clock.now + b.get MEM_SCRUB_INTERVAL } }) ∧
    (∀ k : Fin 12, TakesPlace (.scrub [(k, 1)]) s Dev.scrubNext fun b e => b.memc.bad = [] → e.on MEM_IRQ_STAT_SRAM_CE = true ∧
        e.get MEM_SRAM_ECC_CE_CNT = (b.inc MEM_SRAM_ECC_CE_CNT).get MEM_SRAM_ECC_CE_CNT ∧ e.mem = b.mem ∧
        e.memc.wb = b.memc.wb ++ [bankBase k + 2 * b.memc.scrub % bankSize k]) ∧
    (∀ k : Fin 12, (s.dev.wbOf k = [] → Completes (.eccWriteback k) s s.dev) ∧
      ∀ e, s.dev.wbOf k ≠ [] → passUntil (fun e => decide ((e.wbOf k).length < (s.dev.wbOf k).length)) 512 s.dev = some e →
        Yields (.eccWriteback k) s fun x => x = e ∧ (x.wbOf k).length < (s.dev.wbOf k).length) ∧
    (s.dev.on SYS_RST_STATUS_WARM_BUSY = false → let b := busFirst s.dev
      (b.mode = 5 → Yields .dramTrain s fun e => e.memc.training = true ∧ e.on MEM_DRAM_STAT_TRAINED = false ∧
        Keeps [MEM_DRAM_STAT_TRAINED.key] b e) ∧
      (b.mode ≠ 5 → Completes .dramTrain s b)) ∧
    (s.dev.memc.training = true → Yields .dramTrainingDone s fun e => e.memc.training = false ∧ e.on MEM_DRAM_STAT_TRAINED = true ∧
      e.get MEM_DRAM_CAP_CAP_MIB = s.dev.cfgCapMib % 2 ^ MEM_DRAM_CAP_CAP_MIB.w ∧
      Keeps [MEM_DRAM_STAT_TRAINED.key, MEM_DRAM_CAP_CAP_MIB.key] s.dev e) ∧
    (s.dev.on MEM_DRAM_STAT_TRAINED = true →
      (Yields (.mr4Sample true) s fun e => e.on MEM_DRAM_STAT_DERATE = true ∧ e.on MEM_IRQ_STAT_DERATE = true ∧
        Keeps [MEM_DRAM_STAT_DERATE.key, MEM_IRQ_STAT_DERATE.key] s.dev e) ∧
      Completes (.mr4Sample false) s (s.dev.set MEM_DRAM_STAT_DERATE 0)) ∧
    Completes .zqCalibration s s.dev ∧ Completes .dramRefresh s s.dev

/-- RIG_LOAD with no slot LOADING marks the inactive slot LOADING, notes address and length and asks Keel; with one it has no effect.
RIG_LOAD_COMPLETE at the end of the service rejects an image with the code of the first failing check (9 no room, 1 bad magic among them)
and leaves memory as it is; a good image is VERIFIED and kept, and only its DRAM records are written; an address that is not mapped is a
micro-trap of Keel and discards the load. RIG_ACCEPT raises COUNTER.RIG to the active ARB_SEQ, RIG_CLEAR empties a VERIFIED or REJECTED
slot, CODE_COPY at the end of its service frees the engine at the head of its queue. (R301, R303, R304, R307, R375, R379) -/
def Obligations.RigImagesLoadAndClear : Prop :=
  ∀ s : State,
    let rigPart (d : Dev) : Dev := { d with rig := {}, log := {}, keel := {}, fab := {}, mem := [], fresh := 0 }
    (s.dev.hostsRun = true → let b := busFirst s.dev
      let k := b.inactiveSlot
      (b.get RIG_STATUS_STATE_A ≠ 1 → b.get RIG_STATUS_STATE_B ≠ 1 → Yields .rigLoad s fun e =>
        e.get (slotState k) = 1 ∧ e.rig.load = some (k, b.get RIG_LOAD_ADDR_ADDR, b.get RIG_LOAD_LEN_LEN) ∧ e.slotImage k = none ∧
        e.keelAsked .rigLoad = true ∧
        Keeps [(slotState k).key, (RIG_SLOT_SEQ_ARB_SEQ k).key, (RIG_SLOT_IMGVER_IMG_VER k).key, (RIG_SLOT_LEVEL_CREW_LEVEL k).key] b e ∧
        e.mem = b.mem ∧ SameBut rigPart b e) ∧
      (b.get RIG_STATUS_STATE_A = 1 ∨ b.get RIG_STATUS_STATE_B = 1 → Completes .rigLoad s b) ∧
      (∀ j, b.activeSlot = some j → ((b.slotImage j).getD {}).arbSeq < 2 ^ 32 → Yields .rigAccept s fun e =>
        e.get TRUST_COUNTER_RIG_VALUE = max (b.get TRUST_COUNTER_RIG_VALUE) ((b.slotImage j).getD {}).arbSeq ∧
        Keeps [TRUST_COUNTER_RIG_VALUE.key] b e ∧ SameBut id b e) ∧
      (b.activeSlot = none → Completes .rigAccept s b) ∧
      (b.get (slotState k) = 2 ∨ b.get (slotState k) = 3 → Yields .rigClear s fun e => e.get (slotState k) = 0 ∧ e.slotImage k = none ∧
        e.mem = b.mem ∧ SameBut rigPart b e) ∧
      (b.get (slotState k) ≠ 2 → b.get (slotState k) ≠ 3 → Completes .rigClear s b)) ∧
    (s.dev.keelAsked .rigLoad = false → ∀ x, s.dev.clock.phase ≠ .held → Completes (.rigLoadComplete x) s s.dev) ∧
    (∀ ok : Bool, ServiceEnds (.rigLoadComplete { sigOk := ok }) s .rigLoad fun b e => ∀ (j : Fin 2) (addr len : Nat), b.rig.load = some (j.val, addr, len) →
      let bad (c : Nat) : Prop := e.get (slotState j) = 3 ∧ e.get RIG_STATUS_REJECT = c ∧
        e.on RIG_IRQ_STAT_REJECTED = true ∧ e.rig.load = none ∧ e.mem = b.mem ∧ SameBut rigPart b e
      let noRoom := 0x80000000 + b.get MEM_DRAM_CAP_CAP_MIB * 0x100000 < b.get (slotBase j) + 0x400000
      let mapped := b.dramMapped addr = true ∧ b.dramMapped (addr + 255) = true ∧ b.dramMapped (addr + len - 1) = true
      (noRoom → bad 9) ∧ (¬ noRoom → mapped → b.mem.read addr 4 ≠ 0x534b5247 → bad 1) ∧
      (∀ c, c < 16 → mapped → b.rigCheck j addr len ok = .error c → bad c) ∧
      (∀ im, mapped → b.rigCheck j addr len ok = .ok im → e.get (slotState j) = 2 ∧
        e.slotImage j.val = some im ∧ e.on RIG_IRQ_STAT_LOADED = true ∧ e.rig.load = none ∧ SameBut rigPart b e ∧
        ∀ x, (∀ w, w ∈ im.dram → x < w.1 ∨ w.1 + 4 ≤ x) → e.mem.byte x = b.mem.byte x) ∧
      (¬ noRoom → b.dramMapped addr = false → bankOf addr = none → b.keel.frames.length < 8 → e.get KEEL_FAULT_CAUSE = 1 ∧ e.rig.load = none ∧
        e.mem = b.mem)) ∧
    ServiceEnds .codeCopy s .codeCopy fun b e => ∀ (i : Nat) (r : List Nat), b.rig.copyQ = i :: r → e.rig.copyQ = r ∧
      bit e.rig.blocked i = false ∧ e.rig.copied = b.rig.copied ++ [i] ∧ SameBut rigPart b e

/-- TXN_BEGIN of a master without a context opens the lowest-numbered FREE one, binds the master and returns its handle, 0 when none is free;
of a bound master it returns the handle again. A commit of the owner of an OPEN context makes it COMMITTED with its time, keeps its writes
and unbinds the master; one whose catch has passed is REFUSED, a handle of a free context STALE, and both leave every context. ROLLBACK
frees the context and advances its generation. Other contexts are kept. (R309, R312, R313, R314, R342) -/
def Obligations.TransactionsBeginAndCommit : Prop :=
  ∀ (s : State) (m : Master), s.dev.hostsRun = true →
    let b := busFirst s.dev
    (m.hasCtx = true → b.bound m = none → (∀ c, c < 8 → b.get (TXN_CTX_STATUS_STATE c) ≠ 0) → Yields (.txnBegin m) s fun e =>
      e.lastRead m = 0 ∧ e.txn = b.txn ∧ e.regs = b.regs) ∧
    (∀ c : Fin 8, m.hasCtx = true → b.bound m = none → b.get (TXN_CTX_STATUS_STATE c) = 0 →
      (∀ j, j < c.val → b.get (TXN_CTX_STATUS_STATE j) ≠ 0) → Yields (.txnBegin m) s fun e =>
        e.lastRead m = c + 8 * b.txn.serial + 4096 * b.get (TXN_CTX_STATUS_GEN c) ∧ e.get (TXN_CTX_STATUS_STATE c) = 1 ∧
        e.bound m = some c.val ∧ (e.ctxAt c).writes = [] ∧ (e.ctxAt c).owner = m.num ∧ ∀ j, j ≠ c.val → e.ctxAt j = b.ctxAt j) ∧
    (∀ c, m.hasCtx = true → b.bound m = some c → Completes (.txnBegin m) s (b.ret m (b.handle c))) ∧
    ∀ h : BitVec 16,
      let c := h.toNat % 8
      let mine := b.handle c = h.toNat ∧ b.get (TXN_CTX_STATUS_STATE c) = 1 ∧ (b.ctxAt c).owner = m.num ∧
        b.on (TXN_CTX_STATUS_OVF c) = false
      let commits (i : Instr) (op at_ : Nat) : Prop := Yields i s fun e => e.get (TXN_CTX_STATUS_STATE c) = 2 ∧
        e.get (TXN_CTX_STATUS_WHEN c) = op ∧ e.bound m = none ∧ aget 0 m.num e.txn.last = 1 ∧ (e.ctxAt c).writes = (b.ctxAt c).writes ∧
        (e.ctxAt c).op = op ∧ (e.ctxAt c).atA = at_ ∧ ∀ j, j ≠ c → e.ctxAt j = b.ctxAt j
      let refuses (i : Instr) (code : Nat) (f : Field) : Prop := Yields i s fun e => aget 0 m.num e.txn.last = code ∧ e.on f = true ∧
        e.txn.ctxs = b.txn.ctxs ∧ Keeps [f.key, TXN_COUNTS_STALE_CNT.key] b e
      let late := if b.inFinish then 1 else 0
      let catch_ := if b.inFinish then b.clock.endAt else b.clock.openAt
      (mine → commits (.commitNext m h) 1 0) ∧
      (mine → b.clock.strokeNo + late < b.ctxStroke c → commits (.commitAtStroke m h) 2 (b.ctxStroke c)) ∧
      (mine → b.ctxStroke c ≤ b.clock.strokeNo + late → refuses (.commitAtStroke m h) 5 TXN_IRQ_STAT_REFUSED) ∧
      (mine → catch_ < b.ctxTime c → commits (.commitAtTime m h) 3 (b.ctxTime c)) ∧
      (mine → b.ctxTime c ≤ catch_ → refuses (.commitAtTime m h) 5 TXN_IRQ_STAT_REFUSED) ∧
      (b.get (TXN_CTX_STATUS_STATE c) = 0 → refuses (.commitNext m h) 2 TXN_IRQ_STAT_STALE ∧ refuses (.rollback m h) 2 TXN_IRQ_STAT_STALE) ∧
      (mine → Yields (.rollback m h) s fun e => e.get (TXN_CTX_STATUS_STATE c) = 0 ∧ (e.ctxAt c).writes = [] ∧
        e.get (TXN_CTX_STATUS_GEN c) = (b.get (TXN_CTX_STATUS_GEN c) + 1) % 16 ∧ ∀ j, j ≠ c → e.ctxAt j = b.ctxAt j) ∧
      (mine → b.get CREW_STATUS_ROLE = 1 → b.get CREW_CC_STATUS_STATE = 1 → (∃ x, b.crew.cc = some x ∧ x.ctx = some c) →
        b.clock.endAt + (late + b.get CREW_CFG_CC_PREP) * b.period + 2 * b.period < b.ctxTime c →
        commits (.commitCrew m h) 5 (b.ctxTime c) ∧ Yields (.commitCrew m h) s fun e => e.get CREW_CC_STATUS_STATE = 2)

/-- Port `h.port` receives the frame `h` in one of the states `ok`: it may train, the tag is good and FCNT rises (R319, R321, R322). -/
def Hears (s : State) (h : Hdr) (ok : List Nat) : Prop :=
  s.dev.tclkRuns = true ∧ h.port < 4 ∧ s.dev.portUsable h.port = true ∧ s.dev.pstate h.port ∈ ok ∧ h.tagOk = true ∧
  (s.dev.cport h.port).fcnt ≤ h.fcnt

/-- The device with FCNT of the frame noted. -/
def heard (s : State) (h : Hdr) : Dev := s.dev.putCport h.port { s.dev.cport h.port with fcnt := h.fcnt + 1, tagRun := 0 }

/-- The frame comes on an UP port and is for this device. -/
def Mine (s : State) (h : Hdr) : Prop := Hears s h [2] ∧ s.dev.forMe h = true

/-- R323: the frame is a new message under its number in class `cls`. -/
def Fresh (s : State) (cls : Nat) (h : Hdr) : Prop :=
  aget 0 (seenKey cls h.seq) s.dev.crew.seen = 0 ∨ h.seq / 4096 % 16 = aget 0 (seenKey cls h.seq) s.dev.crew.seen % 16

/-- Beside registers only the crew link's own state and Keel's work differ; only those and transactions. -/
def crewOnly (d : Dev) : Dev := { d with crew := {}, keel := {} }
def crewTxn (d : Dev) : Dev := { d with crew := {}, keel := {}, txn := {} }

/-- The frame of type `type` goes out to port `port` in answer or request. -/
def Sends (b e : Dev) (port type dst seq : Nat) (ws : List Nat) : Prop := e.crew.sent = b.crew.sent ++ [⟨port, type, dst, seq, ws⟩]

/-- A frame of another type, an old one and a badly tagged one are dropped and counted. On its ports: TIMING is noted with what it advertises;
SD_UP reaches the lead, SD_DOWN a member from its upstream; block lock gained starts KEYING with a KEY_INIT, lost takes the port DOWN;
KEY_INIT and KEY_CONF complete a key agreement, after which the port leaves KEYING; REKEY and REKEY_TIMER start one; CREW_QUALIFY sets
CREW_QUAL. DB_TX_GO sends a doorbell; DOORBELL rings an allowed index and shows cause 8 for another. (R319, R320, R321, R322, R324, R326,
R336, R337, R338, R347) -/
def Obligations.CrewFramesAndKeys : Prop :=
  (∀ (s : State) (h : Hdr), (Hears s h [1, 2, 3] → Completes (.frameOfOtherType h) s
      ((s.dev.putCport h.port { s.dev.cport h.port with tagRun := 0 }).inc (CREW_PORT_COUNTS_DROP_CNT h.port))) ∧
    (∀ x : TimingMsg, Hears s h [1, 2, 3] → x.arrive / 65536 ≤ s.dev.clock.now → Yields (.timing h x) s fun e =>
      (e.cport h.port).got = true ∧ (e.cport h.port).arrive = x.arrive ∧ (e.cport h.port).adv =
        some ⟨x.stamp, x.serial, x.prio, x.hops, x.uplink, x.refused, x.tbState, x.bound, x.level, x.spanMin, x.spanMax⟩ ∧
      (s.dev.get CREW_STATUS_ROLE ≠ 2 → e.regs = s.dev.regs ∧ SameBut crewOnly s.dev e)) ∧
    (∀ recs : List (Nat × List Nat), Hears s h [2] → s.dev.isLead = true → s.dev.crew.sdDown = none →
      Completes (.sdUp h recs) s { heard s h with crew := { (heard s h).crew with sdUp := s.dev.crew.sdUp ++ recs } }) ∧
    (∀ (slots : List (Nat × List Nat)) (stale : Nat), Hears s h [2] → s.dev.isLead = false → h.port = s.dev.get CREW_STATUS_UP_PORT →
      Completes (.sdDown h slots stale) s { heard s h with crew := { (heard s h).crew with sdDown := some (slots, stale) } }) ∧
    (∀ nonce : Nat, Hears s h [1, 2, 3] → s.dev.on TRUST_KEYINFO_CREW_KEY = true → (s.dev.cport h.port).agreeing = true →
      ((s.dev.cport h.port).peerConf = false → Yields (.keyInit h nonce) s fun e => (e.cport h.port).peerNonce = some nonce ∧
        (e.cport h.port).ownConf = true ∧ e.regs = s.dev.regs ∧ Sends s.dev e h.port 0x41 0 0 [] ∧ SameBut crewOnly s.dev e) ∧
      ((s.dev.cport h.port).peerConf = true → Yields (.keyInit h nonce) s fun e => (e.cport h.port).keyed = true ∧
        (e.cport h.port).keyAt = s.dev.clock.now ∧ (s.dev.pstate h.port = 1 → e.pstate h.port = 2))) ∧
    (Hears s h [1, 2, 3] → (s.dev.cport h.port).agreeing = true → (s.dev.cport h.port).peerNonce.isSome = true →
      (s.dev.cport h.port).ownConf = true → Yields (.keyConf h) s fun e => (e.cport h.port).keyed = true ∧
        (e.cport h.port).agreeing = false ∧ (s.dev.pstate h.port = 1 → e.pstate h.port = 2)) ∧
    (∀ (idx : BitVec 6) (v : BitVec 32), Mine s h → Fresh s (16 + h.src % 1024) h →
      let ok := if idx.toNat < 32 then bit (s.dev.get CREW_DB_ALLOW_LO_ALLOW) idx.toNat else bit (s.dev.get CREW_DB_ALLOW_HI_ALLOW) (idx.toNat - 32)
      (ok = true → idx.toNat ≤ 62 → Yields (.doorbell h idx v) s fun e => e.regs = s.dev.regs ∧
        ⟨s.dev.clock.now + 5, idx.toNat, v.toNat % 65536, 5⟩ ∈ e.irq.rings) ∧
      (ok = false → Yields (.doorbell h idx v) s fun e => e.irq = s.dev.irq ∧ bit (e.get CREW_IRQ_STAT_CAUSE) 8 = true))) ∧
  (∀ (s : State) (h : Hdr), s.dev.tclkRuns = true → h.port < 4 → s.dev.portUsable h.port = true → s.dev.pstate h.port ∈ [1, 2, 3] →
    (h.tagOk = true → h.fcnt < (s.dev.cport h.port).fcnt → Completes (.keyConf h) s
      ((s.dev.putCport h.port { s.dev.cport h.port with tagRun := 0 }).inc (CREW_PORT_COUNTS_DROP_CNT h.port))) ∧
    (h.tagOk = false → (s.dev.cport h.port).tagRun < 15 → Yields (.frameOfOtherType h) s fun e => e.on (CREW_PORT_IRQ_AUTH h.port) = true ∧
      e.on TRUST_IRQ_STAT_AUTH = true ∧ (e.cport h.port).tagRun = (s.dev.cport h.port).tagRun + 1)) ∧
  ∀ (s : State) (k : Fin 4), s.dev.hostsRun = true →
    (s.dev.portUsable k = true →
      (s.dev.pstate k = 0 → Yields (.portBlockLock k true) s fun e => e.pstate k = 1 ∧ (e.cport k).agreeing = true ∧ (e.cport k).lock = true ∧
        e.on (CREW_PORT_IRQ_LINK k) = true) ∧
      (s.dev.pstate k ≠ 0 → Yields (.portBlockLock k false) s fun e => e.pstate k = 0 ∧ (e.cport k).keyed = false)) ∧
    (s.dev.portUsable k = false → ∀ b, Completes (.portBlockLock k b) s s.dev) ∧
    (let b := busFirst s.dev;
      (Yields .rekey s fun e => e.regs = b.regs ∧ SameBut crewOnly b e ∧ ∀ j, j < 4 → (b.cport j).keyed = true → (e.cport j).agreeing = true) ∧
      (b.get CREW_STATUS_ROLE = 1 ∨ b.get CREW_STATUS_ROLE = 2 →
        let dst := if b.on CREW_DB_TX_BCAST then bcast else b.get CREW_DB_TX_DEST
        (b.isLead = false ∨ dst = bcast ∨ b.inRoster dst = true → Yields .dbTxGo s fun e => e.regs = b.regs ∧
          Sends b e 4 0x38 dst b.crew.seqNo [b.get CREW_DB_TX_INDEX, b.get CREW_DB_DATA_DATUM] ∧ SameBut crewOnly b e) ∧
        (b.isLead = true → dst ≠ bcast → b.inRoster dst = false → Yields .dbTxGo s fun e => e.crew.sent = b.crew.sent ∧ e.regs = b.regs)) ∧
      (b.get CREW_STATUS_ROLE = 0 → Completes .dbTxGo s b)) ∧
    ((s.dev.cport k).keyed = false → Completes (.rekeyTimer k) s s.dev) ∧
    TakesPlace (.rekeyTimer k) s (fun d => d.rekeyAt k) (fun b e => (e.cport k).agreeing = true ∧ (e.cport k).keyed = true ∧
      e.regs = b.regs ∧ SameBut crewOnly b e) ∧
    (s.dev.crew.qualEnd = none → Completes .crewQualify s s.dev) ∧
    TakesPlace .crewQualify s (fun d => d.crew.qualEnd) (fun b e => (b.crewRefOk = false → e = b) ∧
      (b.crewRefOk = true → e.on CREW_STATUS_CREW_QUAL = true ∧ e.crew.qualEnd = none ∧ Keeps [CREW_STATUS_CREW_QUAL.key] b e ∧
        SameBut crewOnly b e))

/-- ROLLCALL and ROLL_REQ on the lead request a roll call; a member answers a new ROLL_POLL from its upstream; the lead keeps one reply per
serial; a ROLL_RESULT waits for its catch. CC_BEGIN binds a context on lead and target, CC_PREPARE commits it and votes, CC_VOTE is
counted, CC_DECIDE marks GO or frees the context; RAISE_LEVEL opens such a transaction or shows cause 6. RA_GO sends its request, RA_REQ
denies a closed address and hands another to the fabric, RA_RESP ends the access. (R329, R330, R331, R334, R340, R341, R342, R343, R345) -/
def Obligations.CrewRollCallsAndTransactions : Prop :=
  (∀ (s : State) (h : Hdr),
    (∀ (epoch : Nat), Mine s h → Fresh s 1 h → s.dev.isUp h.port = true → (s.dev.cport h.port).upAt ≤ epoch →
      Yields (.rollPoll h epoch 1) s fun e => e.regs = s.dev.regs ∧ SameBut crewOnly s.dev e ∧
        Sends s.dev e h.port 0x11 bcast h.seq [s.dev.fused.serial, s.dev.log.crewId, s.dev.get CREW_LEVEL_SPAN_MIN, s.dev.get CREW_LEVEL_SPAN_MAX,
          s.dev.get CREW_CFG_SD_WORDS, s.dev.get CREW_PATH_NS_PATH]) ∧
    (∀ (x : ReplyMsg), Hears s h [2] → s.dev.isLead = true →
      (s.dev.crew.roll = none → Completes (.rollReply h x) s ((heard s h).inc CREW_COUNTS_GEN_DISCARD_CNT)) ∧
      (∀ c, s.dev.crew.roll = some c → c.seq = h.seq → (∀ m, m ∈ c.replies → m.serial ≠ x.serial) → Yields (.rollReply h x) s fun e =>
        e.regs = s.dev.regs ∧ ∃ m, e.crew.roll = some { c with replies := c.replies ++ [m] } ∧ m.serial = x.serial ∧ m.id = x.id ∧
          m.spanMin = x.spanMin ∧ m.spanMax = x.spanMax ∧ m.sdWords = x.sdWords ∧ m.path = x.path ∧ m.hops = x.hops)) ∧
    (∀ x : ResultMsg, Mine s h → s.dev.isLead = false → s.dev.crewSame 1 h.seq = true → Yields (.rollResult h x) s fun e => e.regs = s.dev.regs ∧
      ∃ r, e.crew.result = some r ∧ r.at_ = x.at_ ∧ r.level = x.level ∧ r.roster = x.roster ∧ r.sd = x.sd ∧ r.myId = x.grant ∧
        r.refused = (x.grant.isNone && decide (s.dev.crew.replied = some h.seq))) ∧
    (Hears s h [2] → s.dev.isLead = true → Fresh s 2 h → s.dev.crew.rollReq = none → Yields (.rollReq h) s fun e => e.regs = s.dev.regs ∧
      e.crew.rollReq = some s.dev.clock.now) ∧
    (∀ c : Fin 8, Mine s h → s.dev.isLead = false → s.dev.on CREW_STATUS_ADMITTED = true → Fresh s 3 h → s.dev.crew.cc = none →
      s.dev.bound .crew = none → s.dev.txn.serial ≠ 0 → s.dev.get (TXN_CTX_STATUS_STATE c) = 0 →
      (∀ j, j < c.val → s.dev.get (TXN_CTX_STATUS_STATE j) ≠ 0) → Yields (.ccBegin h) s fun e => e.get (TXN_CTX_STATUS_STATE c) = 1 ∧
        e.crew.cc = some { serial := h.seq % 4096, gen := h.seq / 4096 % 16, ctx := some c.val } ∧ SameBut crewTxn s.dev e) ∧
    (∀ x : CrewCc, s.dev.crew.cc = some x → x.serial = h.seq % 4096 → x.gen = h.seq / 4096 % 16 →
      (Mine s h → s.dev.isLead = false →
        (∀ (c : Fin 8) (t : Nat), x.ctx = some c.val → s.dev.get (TXN_CTX_STATUS_STATE c) = 1 → s.dev.on (TXN_CTX_STATUS_OVF c) = false →
          s.dev.clock.now < t → Yields (.ccPrepare h t) s fun e => e.get (TXN_CTX_STATUS_STATE c) = 2 ∧ (e.ctxAt c).atA = t ∧
            e.crew.cc = some { x with applyAt := t, voted := true } ∧ Sends s.dev e (s.dev.get CREW_STATUS_UP_PORT) 0x22 bcast h.seq [1] ∧
            SameBut crewTxn s.dev e) ∧
        (∀ t : Nat, x.ctx = none → Yields (.ccPrepare h t) s fun e => e.regs = s.dev.regs ∧
          Sends s.dev e (s.dev.get CREW_STATUS_UP_PORT) 0x22 bcast h.seq [0]) ∧
        (x.voted = true → s.dev.inFinish = false → Yields (.ccDecide h true) s fun e => e.regs = s.dev.regs ∧
          e.crew.cc = some { x with go := some true }) ∧
        (∀ c : Fin 8, x.ctx = some c.val → Yields (.ccDecide h false) s fun e => e.get (TXN_CTX_STATUS_STATE c) = 0 ∧ e.crew.cc = none ∧
          e.get CREW_CC_COUNTS_ABORT_CNT = (s.dev.inc CREW_CC_COUNTS_ABORT_CNT).get CREW_CC_COUNTS_ABORT_CNT)) ∧
      (Hears s h [2] → s.dev.isLead = true → s.dev.get CREW_CC_STATUS_STATE = 2 →
        (Yields (.ccVote h true) s fun e => e.crew.lead.votes = s.dev.crew.lead.votes ++ [h.src % 1024] ∧ e.regs = s.dev.regs) ∧
        (Yields (.ccVote h false) s fun e => e.crew.lead.votes = s.dev.crew.lead.votes.filter (fun i => i != h.src % 1024) ∧ e.regs = s.dev.regs))) ∧
    (∀ (a v : BitVec 32) (w : Bool) (ct : BitVec 16), Mine s h → s.dev.isLead = false → Fresh s 4 h →
      (raClosed (a.toNat - a.toNat % 4) = true → Yields (.raReq h a v w ct) s fun e => e.regs = s.dev.regs ∧
        Sends s.dev e (s.dev.get CREW_STATUS_UP_PORT) 0x31 bcast (h.seq % 65536) [3, 0]) ∧
      (raClosed (a.toNat - a.toNat % 4) = false → ct.toNat = 0 → s.dev.fab.reqs = [] → s.dev.fab.wait = [] → s.dev.memc.dram = [] →
        s.dev.on SYS_RST_STATUS_WARM_BUSY = false → Yields (.raReq h a v w ct) s fun e => ∃ r, e.fab.reqs = [r] ∧ e.fab.wait = [] ∧
          r.acc = ⟨.crew, w, a.toNat - a.toNat % 4, v.toNat, 4, h.seq % 65536, 0⟩)) ∧
    (∀ (v : BitVec 32) (op : RaOp), Mine s h → s.dev.crew.ra = some op → op.seq = h.seq % 4096 → op.gen = h.seq / 4096 % 16 →
      op.waitFor = [h.src % 1024] → op.denied = false →
      (s.dev.on CREW_RA_CTRL_WRITE = false → s.dev.on CREW_RA_DEST_BCAST = false → Yields (.raResp h 1 v) s fun e =>
        e.get CREW_RA_DATA_DATA = (if s.dev.cyc.wr.contains CREW_RA_DATA_DATA.key then s.dev.get CREW_RA_DATA_DATA else v.toNat) ∧
        e.get CREW_RA_CTRL_RESULT = 1 ∧ e.on CREW_RA_CTRL_BUSY = false ∧ e.crew.ra = none) ∧
      (Yields (.raResp h 3 v) s fun e => e.get CREW_RA_CTRL_RESULT = 3 ∧ e.on CREW_RA_CTRL_BUSY = false ∧ e.crew.ra = none ∧
        e.get CREW_RA_DATA_DATA = s.dev.get CREW_RA_DATA_DATA))) ∧
  ∀ s : State, s.dev.hostsRun = true → let b := busFirst s.dev
    (b.isLead = true → b.crew.rollReq = none → Completes .rollcall s { b with crew := { b.crew with rollReq := some b.clock.now } }) ∧
    (b.isLead = false → Completes .rollcall s b ∧ Completes .raiseLevel s b) ∧
    (b.isLead = true → b.get CREW_LEVEL_TARGET ≤ b.get CREW_LEVEL_CUR → Yields .raiseLevel s fun e =>
      bit (e.get CREW_IRQ_STAT_CAUSE) 6 = true ∧ Keeps [CREW_IRQ_STAT_CAUSE.key] b e ∧ SameBut id b e) ∧
    (∀ c : Fin 8, b.isLead = true → b.get CREW_CC_STATUS_STATE = 0 → b.txn.serial ≠ 0 → b.get (TXN_CTX_STATUS_STATE c) = 0 →
      (∀ j, j < c.val → b.get (TXN_CTX_STATUS_STATE j) ≠ 0) →
      (b.bound .keel = none → b.get CREW_LEVEL_CUR < b.get CREW_LEVEL_TARGET →
        b.clock.now + 2000000000 ≤ (b.get CREW_LEVEL_AT_LO_SEC_LO + 2 ^ 32 * b.get CREW_LEVEL_AT_HI_SEC_HI) * 1000000000 →
        Yields .raiseLevel s fun e => e.get CREW_CC_STATUS_STATE = 2 ∧ e.get (TXN_CTX_STATUS_STATE c) = 2 ∧
          e.crew.raise = some (b.get CREW_LEVEL_TARGET)) ∧
      (b.bound .pcie = none → Yields (.ccCtrlBegin .pcie) s fun e => e.get CREW_CC_STATUS_STATE = 1 ∧ e.get (TXN_CTX_STATUS_STATE c) = 1 ∧
        e.bound .pcie = some c.val ∧ Sends b e 4 0x20 bcast b.crew.ccNo [b.crew.ccNo] ∧ SameBut crewTxn b e)) ∧
    (∀ m : Master, m ≠ .pcie → m ≠ .keel → Completes (.ccCtrlBegin m) s b) ∧
    (b.on CREW_RA_CTRL_BUSY = true → Completes .raGo s b) ∧
    (b.on CREW_RA_CTRL_BUSY = false → b.isLead = false → Yields .raGo s fun e => e.get CREW_RA_CTRL_RESULT = 4 ∧
      e.on CREW_RA_CTRL_BUSY = false ∧ bit (e.get CREW_IRQ_STAT_CAUSE) 7 = true) ∧
    (b.on CREW_RA_CTRL_BUSY = false → b.isLead = true → b.on CREW_RA_DEST_BCAST = false → b.on CREW_RA_DEST_IN_CC = false →
      (b.inRoster (b.get CREW_RA_DEST_ID) = false → Yields .raGo s fun e => e.get CREW_RA_CTRL_RESULT = 5 ∧ e.crew.ra = none) ∧
      (b.inRoster (b.get CREW_RA_DEST_ID) = true → Yields .raGo s fun e => e.on CREW_RA_CTRL_BUSY = true ∧ e.get CREW_RA_CTRL_RESULT = 0 ∧
        Sends b e 4 0x30 (b.get CREW_RA_DEST_ID) b.crew.seqNo
          [b.get CREW_RA_ADDR_ADDR, b.get CREW_RA_DATA_DATA, b2n (b.on CREW_RA_CTRL_WRITE), 0]))

/-- A PTP message with header `h` reaches the clock on its port (R350, R353, R366): the port takes part, the domain is the clock's, the
frame has no second tag, and authentication passes. -/
def PtpHears (s : State) (h : PtpHdr) : Prop :=
  s.dev.tclkRuns = true ∧ h.port < 4 ∧ h.mii / 65536 ≤ s.dev.clock.now ∧ s.dev.ptpOn h.port = true ∧
  s.dev.get (ETH_PTP_CFG_DOMAIN h.port) = h.domain ∧ twoTags h.bytes = false ∧ s.dev.authOk h.port h.auth = true

/-- Beside registers only the Ethernet ports, Keel's work and the traffic of frames differ, and of the ports at most `n`. -/
def EthPort (b : Dev) (n : Nat) (e : Dev) : Prop :=
  SameBut (fun d => { d with eth := [], keel := {}, fab := {} }) b e ∧ ∀ k, k ≠ n → e.ethAt k = b.ethAt k

/-- Port `n` sends a frame, with the AUTHENTICATION TLV where it is a PTP message and AUTH.EN is 1; no register changes and no other port
does. -/
def EthSends (b e : Dev) (n kind seq : Nat) (ws : List Nat) : Prop :=
  e.ethSent = b.ethSent ++ [⟨n, kind, seq, ws, if kind < 16 ∧ b.on (ETH_AUTH_EN n) then some (b.get (ETH_AUTH_SPP n)) else none⟩] ∧
  e.regs = b.regs ∧ ∀ k, k ≠ n → e.ethAt k = b.ethAt k

/-- Port `n` is the only port of the clock, has heard no Announce, and is in LISTENING. -/
def OnlyPort (d : Dev) (n : Nat) : Prop :=
  (∀ k, k < 4 → k ≠ n → d.ptpOn k = false) ∧ (d.ethAt n).anns = [] ∧ d.ptpState n = 4

/-- A message of another generation: it is discarded and counted, with the cause of its port (R364). -/
def GenLost (b : Dev) (n : Nat) (e : Dev) : Prop :=
  e.get (ETH_COUNTS_A_GEN_DISCARD_CNT n) = (b.inc (ETH_COUNTS_A_GEN_DISCARD_CNT n)).get (ETH_COUNTS_A_GEN_DISCARD_CNT n) ∧
  e.on (ETH_IRQ_STAT_GEN n) = true ∧ e.eth = b.eth ∧ Keeps [(ETH_COUNTS_A_GEN_DISCARD_CNT n).key, (ETH_IRQ_STAT_GEN n).key] b e ∧
  EthPort b n e

/-- On a port of the clock: a two-step Sync opens its record; a one-step Sync, or the Follow_Up of the generation, gives the offset t2 − t1 −
cs − delay and takes SLAVE to UNCALIBRATED; another generation is discarded, counted and sets the GEN cause. A Delay_Resp of the
generation adds a delay sample; a Delay_Req at a master is answered with its stamp. Announce and its timeout give the state of the only
port. Signaling is answered under profile 2; Pdelay is counted as unsupported. ETH_LINK_CHANGE shows the link and sets the cause of a
change; ETH_RETRAIN waits for the catch. DELAY_REQ_LAUNCH of a slave sends a Delay_Req and opens its record with t3; it counts its
sequenceId. ESMC_PDU_RX shows SSM and eSSM (0xFF without the TLV), clears ESMC_FAILED and begins the 5 s anew; ESMC_TIMEOUT at their end
sets it; the QL sent is that of R368. A host frame that the rate limit passes waits for DMA, another is dropped and counted;
HOST_FRAME_SENT sends the oldest. (R349, R351, R353, R356, R361, R364, R368, R369) -/
def Obligations.PtpAndEthernetPorts : Prop :=
  (∀ (s : State) (h : PtpHdr), let n := h.port; let p := s.dev.ethAt n; let i := h.seq % 4096; let g := h.seq / 4096 % 16
  let t2 := s.dev.rxBall n h.mii
  let keys := [(ETH_OFFSET_PS_OFFSET n).key, (ETH_PORT_STATE_STATE n).key, (ETH_IRQ_STAT_PORT_STATE n).key]
  (PtpHears s h → s.dev.isSlave n = true →
    (∀ (t1 : Nat) (cs : Int), Completes (.ptpSyncRx h t1 cs true) s
        (keelWork 1 400 s.dev |>.putEth n { p with syncs := aput i ⟨g, t2, cs⟩ p.syncs }) ∧
      (s.dev.on (ETH_PTP_CFG_TRK_EN n) = false → Yields (.ptpSyncRx h t1 cs false) s fun e =>
        (e.ethAt n).ms = some (t2 - t1 - cs) ∧ EthPort s.dev n e ∧ Keeps keys s.dev e ∧
        (s.dev.pathDelay n = none → e.regs = s.dev.regs) ∧
        (∀ q, s.dev.pathDelay n = some q → e.ptpState n = 9 ∧ e.gets (ETH_OFFSET_PS_OFFSET n) = satS 32 (uPs (t2 - t1 - cs - q))))) ∧
    (∀ (t1 : Nat) (cs : Int) (r : SyncRec), (p.syncs.find? fun e => e.1 == i) = some (i, r) → s.dev.on (ETH_PTP_CFG_TRK_EN n) = false →
      (r.gen = g → Yields (.ptpFollowUpRx h t1 cs) s fun e => (e.ethAt n).ms = some (r.t2 - t1 - (r.cs + cs)) ∧
        (e.ethAt n).syncs = adel i p.syncs ∧ EthPort s.dev n e ∧ Keeps keys s.dev e ∧
        (∀ q, s.dev.pathDelay n = some q → e.gets (ETH_OFFSET_PS_OFFSET n) = satS 32 (uPs (r.t2 - t1 - (r.cs + cs) - q)))) ∧
      (r.gen ≠ g → Yields (.ptpFollowUpRx h t1 cs) s (GenLost s.dev n))) ∧
    (∀ (t4 : Nat) (cd ms : Int) (r : DelayRec), (p.delayReqs.find? fun e => e.1 == i) = some (i, r) → p.ms = some ms →
      (r.gen = g → Yields (.ptpDelayRespRx h t4 cd) s fun e => (e.ethAt n).delays = ((ms + (t4 - r.t3 - cd)) / 2 :: p.delays).take 128 ∧
        (e.ethAt n).delayReqs = adel i p.delayReqs ∧ EthPort s.dev n e ∧ Keeps [(ETH_PATH_PS_DELAY n).key] s.dev e ∧
        (p.delays = [] → e.gets (ETH_PATH_PS_DELAY n) = satS 32 (uPs ((ms + (t4 - r.t3 - cd)) / 2)))) ∧
      (r.gen ≠ g → Yields (.ptpDelayRespRx h t4 cd) s (GenLost s.dev n)))) ∧
  (PtpHears s h →
    (s.dev.ptpState n = 6 → Yields (.ptpDelayReqRx h) s fun e => EthSends s.dev e n 9 h.seq [t2.toNat]) ∧
    (s.dev.ptpState n ≠ 6 → Completes (.ptpDelayReqRx h) s (keelWork 1 280 s.dev)) ∧
    (s.dev.get (ETH_PTP_CFG_PROFILE n) = 2 → s.dev.ptpState n = 6 → Yields (.ptpSignalingRx h) s fun e => EthSends s.dev e n 12 h.seq []) ∧
    Completes (.pdelayRx h) s (s.dev.inc (ETH_COUNTS_B_UNSUPP_CNT n)) ∧
    (∀ a : AnnMsg, OnlyPort s.dev n → s.dev.distrusted n a.id = false →
      (s.dev.clockClass true ≤ 127 → s.dev.on ETH_CLK_CFG_SLAVE_ONLY = false → Yields (.ptpAnnounceRx h a) s fun e =>
        e.ptpState n = if lexLess (s.dev.annKey n a) s.dev.ownKey then 7 else 6) ∧
      (127 < s.dev.clockClass true → s.dev.get (ETH_PTP_CFG_ROLE n) = 2 → lexLess (s.dev.annKey n a) s.dev.ownKey = true →
        Yields (.ptpAnnounceRx h a) s fun e => e.ptpState n = 8 ∧ (e.ethAt n).parent = some a.id ∧
          e.get (ETH_PARENT_LO_ID_LO n) = a.id % 2 ^ 32 ∧ e.get (ETH_PARENT_INFO_GM_CLASS n) = a.cls % 256 ∧
          e.on (ETH_IRQ_STAT_PORT_STATE n) = true))) ∧
  ∀ n : Fin 4, s.dev.tclkRuns = true →
    (s.dev.annLimit n = none → Completes (.announceTimeout n) s s.dev) ∧
    TakesPlace (.announceTimeout n) s (fun d => d.annLimit n) fun b e =>
      (∀ x, x ∈ (e.ethAt n).annAt → b.clock.now < x.2 + b.annTmo n) ∧
      (OnlyPort b n → (b.ethAt n).heardAt + b.annTmo n ≤ b.clock.now →
        e.ptpState n = (if b.on ETH_CLK_CFG_SLAVE_ONLY then 4 else 6) ∧ (e.ethAt n).parent = none)) ∧
  (∀ (s : State) (n : Fin 4), s.dev.tclkRuns = true → let p := s.dev.ethAt n
  let tok := min 131072000 (p.tokens + (s.dev.clock.now - p.tokenAt) * s.dev.get (ETH_HOST_CFG_RATE_MBPS n))
  (∀ rx, s.dev.ethRuns n = true → s.dev.on (ETH_STATUS_LINK n) = false → Yields (.ethLinkChange n true rx) s fun e =>
    e.on (ETH_STATUS_LINK n) = true ∧ e.on (ETH_STATUS_RXCLK_OK n) = true ∧ e.on (ETH_IRQ_STAT_LINK n) = true) ∧
  (∀ rx, s.dev.ethRuns n = true → s.dev.on (ETH_STATUS_LINK n) = true → Yields (.ethLinkChange n false rx) s fun e =>
    e.on (ETH_STATUS_LINK n) = false ∧ e.on (ETH_STATUS_RXCLK_OK n) = rx ∧ e.on (ETH_IRQ_STAT_LINK n) = true ∧ e.ptpState n = 3) ∧
  (s.dev.hostsRun = true → let b := busFirst s.dev
    Yields (.ethRetrain n) s fun e => (e.ethAt n).retrain = (b.ethAt n).retrain.ask b.inFinish ∧ e.regs = b.regs ∧ EthPort b n e) ∧
  (∀ mii : Nat, mii / 65536 ≤ s.dev.clock.now → s.dev.ptpOn n = true → s.dev.isSlave n = true →
    Yields (.delayReqLaunch n mii) s fun e => EthSends s.dev e n 1 p.reqSeq [] ∧ (e.ethAt n).reqSeq = (p.reqSeq + 1) % 65536 ∧
      (e.ethAt n).delayReqs = aput (p.reqSeq % 4096) ⟨p.reqSeq / 4096, s.dev.txBall n mii⟩ p.delayReqs) ∧
  (ptpMode s.dev.mode = true → s.dev.ethRuns n = true →
    (∀ (q : BitVec 4) (x : Option (BitVec 8)), s.dev.on (ETH_STATUS_LINK n) = true → Yields (.esmcPduRx n q x) s fun e =>
      e.on (ETH_STATUS_ESMC_FAILED n) = false ∧ e.get (ETH_ESMC_STAT_SSM_RX n) = q.toNat ∧
      e.get (ETH_ESMC_STAT_ESSM_RX n) = (x.map fun b => b.toNat).getD 0xFF ∧
      (e.ethAt n).esmcFrom = s.dev.clock.now ∧ (∀ k, k ≠ n.val → e.ethAt k = s.dev.ethAt k)) ∧
    (∀ q : BitVec 4, s.dev.on (ETH_STATUS_LINK n) = false → Completes (.esmcPduRx n q none) s s.dev)) ∧
  (s.dev.esmcLimit n = none → Completes (.esmcTimeout n) s s.dev) ∧
  TakesPlace (.esmcTimeout n) s (fun d => d.esmcLimit n) (fun b e => e.on (ETH_STATUS_ESMC_FAILED n) = true ∧ e.on (ETH_IRQ_STAT_QL n) = true ∧
    e.eth = b.eth ∧ ∀ k : Fin 4, b.on (ETH_ESMC_CFG_ESMC_TX k) = true → b.on (ETH_ESMC_CFG_OVR_EN k) = false → b.ethRuns k = true →
      (b.synceRef k = true → e.get (ETH_ESMC_STAT_SSM_TX k) = 0xF ∧ e.get (ETH_ESMC_STAT_ESSM_TX k) = 0xFF) ∧
      (b.synceRef k = false → b.synceQual = none → b.get TB_STATUS_STATE = 2 → b.isTgm = true →
        e.get (ETH_ESMC_STAT_SSM_TX k) = 0x2 ∧ e.get (ETH_ESMC_STAT_ESSM_TX k) = 0x20)) ∧
  (∀ b : List Nat, s.dev.ethRuns n = true → s.dev.on (ETH_STATUS_LINK n) = true → s.dev.on (ETH_HOST_CFG_RX_EN n) = true →
    (b.length * 8000 ≤ tok → Yields (.hostFrameRx n b) s fun e => e.regs = s.dev.regs ∧ (e.ethAt n).rx = p.rx ++ [b] ∧
      (e.ethAt n).tokens = tok - b.length * 8000 ∧ EthPort s.dev n e) ∧
    (tok < b.length * 8000 → Yields (.hostFrameRx n b) s fun e => (e.ethAt n).rx = p.rx ∧ e.on (ETH_IRQ_STAT_HOST_DROP n) = true ∧
      e.get (ETH_COUNTS_B_HOST_DROP_CNT n) = (s.dev.inc (ETH_COUNTS_B_HOST_DROP_CNT n)).get (ETH_COUNTS_B_HOST_DROP_CNT n) ∧ EthPort s.dev n e)) ∧
  (∀ (b : List Nat) (r : List (List Nat)), p.tx = b :: r → b.length * 8000 ≤ tok → Yields (.hostFrameSent n) s fun e =>
    (e.ethAt n).tx = r ∧ EthSends s.dev e n 18 0 b) ∧
  (p.tx = [] → Completes (.hostFrameSent n) s s.dev))

/-- LOAD notes address and length, shows VERIFYING and asks Keel; it has no effect on a verification in progress. The end of that service
shows STAGED with the package that passed the checks, or REJECTED with the code. INSTALL in BOATHOUSE in FIELD or SERVICE, with Keel at
rest, disables every match register and empties the stage for 8,000 TCLK, after which the matches, version and number of the package are
installed. ACCEPT raises the patch counter to the arbitration number, never lowers it. CLEAR discards what is staged. WATCHDOG counts a
trap of cause 5 and shows micro-PC and class. A parity error in a patch word counts a trap of cause 4, disables the match register that
steered the fetch and sets PATCH_ERR. PRAM_ADDR loads the word at the index. (R376, R379, R383, R384, R387, R388, R389, R390, R393) -/
def Obligations.KeelPatchesWatchdogAndCounters : Prop :=
  ∀ s : State,
  let keelOnly := fun d : Dev => { d with keel := {}, fab := {} }
  let drop := fun d : Dev => { d with keel := {}, irq := {} }
  (s.dev.hostsRun = true → let b := busFirst s.dev; let st := b.get KEEL_STATUS_STAGE
    (st = 1 → Completes .patchLoad s b) ∧
    (st ≠ 1 → Yields .patchLoad s fun e => e.get KEEL_STATUS_STAGE = 1 ∧ e.keel.staged = none ∧ e.keel.pram = b.keel.pram ∧
      e.keel.load = some (b.get KEEL_PLOAD_ADDR_ADDR, b.get KEEL_PLOAD_LEN_LEN) ∧ e.keelAsked .patchLoad = true ∧
      Keeps [KEEL_STATUS_STAGE.key] b e ∧ SameBut keelOnly b e) ∧
    (∀ p : Patch, b.mode = 5 → b.lc = 2 ∨ b.lc = 3 → b.keel.staged = some p →
      (b.keel.cur = none → b.keel.installing = none → Yields .install s fun e =>
        e.get KEEL_STATUS_STAGE = 0 ∧ e.get KEEL_STATUS_MATCH_EN = 0 ∧ e.keel.staged = none ∧ e.keel.installing = some p ∧
        e.keel.wordEnd = b.clock.now + 8000 ∧ (∀ i, i < 64 → e.get (KEEL_MATCH_EN i) = 0) ∧ SameBut keelOnly b e) ∧
      (b.keel.cur ≠ none → Completes .install s { b with keel := { b.keel with install := true } })) ∧
    (b.mode ≠ 5 → Completes .install s b) ∧
    (Yields .patchAccept s fun e => e.get TRUST_COUNTER_PATCH_VALUE = (if b.on KEEL_STATUS_INSTALLED ∧
      b.get TRUST_COUNTER_PATCH_VALUE < b.get KEEL_PATCH_SEQ_ARB_SEQ then b.get KEEL_PATCH_SEQ_ARB_SEQ % 2 ^ 32
      else b.get TRUST_COUNTER_PATCH_VALUE) ∧ Keeps [TRUST_COUNTER_PATCH_VALUE.key] b e ∧ SameBut id b e) ∧
    (st = 2 ∨ st = 3 → Yields .patchClear s fun e => e.get KEEL_STATUS_STAGE = 0 ∧ e.keel.staged = none ∧ Keeps [KEEL_STATUS_STAGE.key] b e ∧
      SameBut keelOnly b e) ∧
    (st ≠ 2 → st ≠ 3 → Completes .patchClear s b) ∧
    (∀ v : BitVec 32, Yields (.pramAddrWrite v) s fun e => e.get KEEL_PRAM_ADDR_INDEX = min (v.toNat % 8192) 4351 ∧
      (∀ j, j < 5 → e.get (KEEL_PRAM_DATA_DATA j) = bits (aget 0 (min (v.toNat % 8192) 4351) b.keel.pram) (32 * j) 32) ∧ SameBut id b e) ∧
    Completes .peakClear s (b.set KEEL_LOAD_PEAK_PM 0) ∧ Completes .stackClr s (b.set KEEL_STATUS_STACK_MAX 0)) ∧
  (∀ v x, s.dev.clock.phase ≠ .held → s.dev.keelAsked .patchLoad = false → Completes (.patchVerifyDone v x) s s.dev) ∧
  (∀ v w : Bool, ServiceEnds (.patchVerifyDone v { sigOk := w }) s .patchLoad fun b e => ∀ a len : Nat, b.keel.load = some (a, len) →
    b.dramMapped a = true → b.dramMapped (a + 63) = true → b.dramMapped (a + len - 1) = true →
    (∀ p, b.patchCheck a len v w = .ok p → e.get KEEL_STATUS_STAGE = 2 ∧
      e.keel.staged = some p ∧ e.keel.load = none ∧ Keeps [KEEL_STATUS_STAGE.key] b e ∧ SameBut drop b e) ∧
    (∀ c, 0 < c → c < 16 → b.patchCheck a len v w = .error c → e.get KEEL_STATUS_STAGE = 3 ∧
      e.get KEEL_STATUS_REJECT = c ∧ e.keel.staged = b.keel.staged ∧ e.keel.load = none ∧
      Keeps [KEEL_STATUS_STAGE.key, KEEL_STATUS_REJECT.key] b e ∧ SameBut drop b e)) ∧
  (∀ (p : Patch), s.dev.keel.installing = some p → p.hits ≠ [] → let e := keelInstalled s.dev
    e.keel.installing = none ∧ e.on KEEL_STATUS_INSTALLED = true ∧ e.get KEEL_VER_PATCH_PATCH_VER = p.ver % 2 ^ 32 ∧
    e.get KEEL_PATCH_SEQ_ARB_SEQ = p.seq % 2 ^ 32 ∧
    e.get CREW_LEVEL_SPAN_MIN = p.lvlMin % 2 ^ CREW_LEVEL_SPAN_MIN.w ∧ e.get CREW_LEVEL_SPAN_MAX = p.lvlMax % 2 ^ CREW_LEVEL_SPAN_MAX.w ∧
    ∀ i, i < 64 → (e.on (KEEL_MATCH_EN i) = bit (p.hits.getD i 0) 31 ∧ e.get (KEEL_MATCH_ROM_ADDR i) = bits (p.hits.getD i 0) 0 16 ∧
      e.get (KEEL_MATCH_TARGET i) = bits (p.hits.getD i 0) 16 12)) ∧
  (∀ (k : KeelSvc) (i : Nat), i < 64 → s.dev.on (KEEL_MATCH_EN i) = true → s.dev.keel.frames.length < 8 → let e := patchParity k i s.dev
    e.on (KEEL_MATCH_EN i) = false ∧ e.on KEEL_STATUS_PATCH_ERR = true ∧ e.get KEEL_FAULT_CAUSE = 4 ∧ e.keel = s.dev.keel ∧
    e.get KEEL_COUNTS_TRAP_CNT = (s.dev.inc KEEL_COUNTS_TRAP_CNT).get KEEL_COUNTS_TRAP_CNT ∧
    ∀ j, j < 64 → j ≠ i → e.on (KEEL_MATCH_EN j) = s.dev.on (KEEL_MATCH_EN j)) ∧
  ∀ (c : Nat) (u : BitVec 17) (f : Nat), s.dev.tclkRuns = true → f < 8 → s.dev.keel.frames.length < 8 → s.dev.keel.install = false →
    Yields (.watchdog (.other c) u f) s fun e => e.get KEEL_FAULT_UPC = u.toNat ∧
      e.get KEEL_FAULT_CAUSE = 5 ∧ e.get KEEL_FAULT_CLASS = c % 2 ^ KEEL_FAULT_CLASS.w ∧
      e.get KEEL_COUNTS_TRAP_CNT = (s.dev.inc KEEL_COUNTS_TRAP_CNT).get KEEL_COUNTS_TRAP_CNT ∧
      Keeps [KEEL_FAULT_UPC.key, KEEL_FAULT_CAUSE.key, KEEL_FAULT_CLASS.key, KEEL_COUNTS_TRAP_CNT.key, KEEL_STATUS_STACK_MAX.key] s.dev e ∧
      SameBut drop s.dev e

/-- Between microwords a request of a lower class than the service in progress preempts it: that service waits in a frame of the micro-stack
and the requested one begins 3 TCLK later; one of the same or a higher class waits. When a service has ended, the one interrupted last
resumes 3 TCLK later unless a request of a lower class waits. A fetch from a ROM address that an enabled match register holds gives the
patch microword at the TARGET of the lowest-numbered such register, another the ROM microword; fetches from patch RAM are never compared.
A microword that names an undefined nano address is not executed: the trap is counted with cause 6. (R372, R373, R374, R378, R381, R382) -/
def Obligations.KeelClassesPreemptAndMatch : Prop :=
  ∀ d : Dev,
  (∀ (c r : KeelReq) (q : List KeelReq), d.keel.cur = some c → d.keel.queue = r :: q →
    (svcClass r.svc < svcClass c.svc → (keelSched d).keel.frames = c :: d.keel.frames ∧ (keelSched d).keelIn r.svc = true ∧
      (keelSched d).keel.queue = q ∧ (keelSched d).keel.wordEnd = d.clock.now + 3) ∧
    (svcClass c.svc ≤ svcClass r.svc → keelSched d = d)) ∧
  (∀ (f : KeelReq) (fs : List KeelReq), d.keel.cur = none → d.keel.frames = f :: fs →
    (∀ r q, d.keel.queue = r :: q → svcClass f.svc ≤ svcClass r.svc) → (keelSched d).keel.cur = some f ∧ (keelSched d).keel.frames = fs ∧
      (keelSched d).keel.queue = d.keel.queue ∧ (keelSched d).keel.wordEnd = d.clock.now + 3) ∧
  (∀ (svc : KeelSvc) (arg cost : Nat) (q : List KeelReq), d.keel.queue = q → (∀ r, r ∈ q → svcClass r.svc ≤ svcClass svc ∧ r.at_ < d.clock.now) →
    (keelAsk svc arg cost d).keel.queue.map (fun r => r.svc) = q.map (fun r => r.svc) ++ [svc]) ∧
  (∀ a : Nat, a < 65536 →
    (∀ i, i < 64 → d.on (KEEL_MATCH_EN i) = true → d.get (KEEL_MATCH_ROM_ADDR i) = a →
      (∀ j, j < i → ¬ (d.on (KEEL_MATCH_EN j) = true ∧ d.get (KEEL_MATCH_ROM_ADDR j) = a)) →
      d.keelFetch a = aget 0 (d.get (KEEL_MATCH_TARGET i)) d.keel.pram) ∧
    ((∀ j, j < 64 → ¬ (d.on (KEEL_MATCH_EN j) = true ∧ d.get (KEEL_MATCH_ROM_ADDR j) = a)) → d.keelFetch a = Config.romWord a % 2 ^ 24)) ∧
  (∀ a : Nat, d.keelFetch (65536 + a) = aget 0 a d.keel.pram) ∧
  ∀ r : KeelReq, d.keelIllegal r.upc = true → d.keel.frames.length < 8 → d.keel.install = false → (keelWord r d).get KEEL_FAULT_CAUSE = 6 ∧
    (keelWord r d).get KEEL_COUNTS_TRAP_CNT = (d.inc KEEL_COUNTS_TRAP_CNT).get KEEL_COUNTS_TRAP_CNT

/-- SLICE_END of a running slice frees the slot after the last slice of the unit, and otherwise counts it on; with a fault it sets the bit of
the unit, the count and the cause. PASS_START at its time takes every masked unit in turn. FULL in BOATHOUSE with the preconditions begins
a full run, elsewhere it does nothing; FULL_RUN_DONE ends it with the failed units shown. STRUCT is permitted in BLANK and RELEASED and
otherwise counted as denied. (R534, R535, R538, R539, R540) -/
def Obligations.SelfTestSlicesAndRuns : Prop :=
  (∀ s : State, s.dev.tclkRuns = true →
    (∀ (i : Fin 2) (f : Bool), (s.dev.slotAt i).started = true → (s.dev.slotAt i).unit < 327 → s.dev.bist.pass = false → let u := (s.dev.slotAt i).unit
      Yields (.sliceEnd i f) s fun e =>
        (e.slotAt i = if (s.dev.slotAt i).slice + 1 < unitSlices u then { s.dev.slotAt i with slice := (s.dev.slotAt i).slice + 1, started := false } else {}) ∧
        (f = true → bit (e.get (BIST_FAIL_FAIL (u / 32))) (u % 32) = true ∧ e.on BIST_IRQ_STAT_FAIL = true ∧
          e.get BIST_COUNTS_FAIL_CNT = (s.dev.inc BIST_COUNTS_FAIL_CNT).get BIST_COUNTS_FAIL_CNT) ∧
        (f = false → Keeps [BIST_STATUS_UUT0.key, BIST_STATUS_UUT1.key] s.dev e) ∧
        SameBut (fun d => { d with bist := {} }) s.dev e) ∧
    (∀ (i : Fin 2) (f : Bool), (s.dev.slotAt i).started = false → Completes (.sliceEnd i f) s s.dev) ∧
    (s.dev.passAt = none → Completes .passStart s s.dev) ∧
    TakesPlace .passStart s Dev.passAt (fun b e => e.bist.pass = true ∧ e.get BIST_STATUS_STATE = 1 ∧ e.bist.untested = 0 ∧
        e.bist.nextPass = b.clock.now + b.get BIST_CFG_PASS_S * 1000000000 ∧
        (∀ u, u ∈ e.bist.order ↔ u < 327 ∧ bit (b.get (BIST_MASK_MASK (u / 32))) (u % 32) = true) ∧ Keeps [BIST_STATUS_STATE.key] b e) ∧
    (s.dev.bist.full = true → Yields (.fullRunDone []) s fun e => e.bist.full = false ∧ e.get BIST_STATUS_STATE = 0 ∧
      e.on BIST_IRQ_STAT_FULL_DONE = true ∧ e.rig.blocked = 0) ∧
    (s.dev.bist.full = false → s.dev.bist.reapply = false → ∀ l, Completes (.fullRunDone l) s s.dev)) ∧
  ∀ s : State, s.dev.hostsRun = true → let b := busFirst s.dev
    (b.mode = 5 → b.precond = true → b.bist.full = false → b.bist.reapply = false →
      Completes .full s ({ b with bist := { b.bist with full := true } }.set BIST_STATUS_STATE 3)) ∧
    (b.mode ≠ 5 → Completes .full s b) ∧
    (b.lc = 0 ∨ b.lc = 4 → Completes .struct s { b with bist := { b.bist with struct := true } }) ∧
    (b.lc ≠ 0 → b.lc ≠ 4 → Completes .struct s (b.inc BIST_COUNTS3_STRUCT_DENY_CNT))

/-- The five words of the descriptor at `a` in memory (R412). -/
def descIn (d : Dev) (a : Nat) : DmaDesc :=
  ⟨d.mem.read a 4, d.mem.read (a + 4) 4, d.mem.read (a + 8) 4, d.mem.read (a + 12) 4, d.mem.read (a + 16) 4⟩

/-- No bank port has been used in this TCLK, and no bank word holds an error: an access to a bank meets no other (R435, R438). -/
def BanksFree (d : Dev) : Prop := d.memc.useAt ≠ d.clock.now ∧ d.memc.bad = []

/-- What device time brings within `n` TCLK: the command completes with the device in which `p` first holds. -/
def Brings (i : Instr) (s : State) (n : Nat) (p : Dev → Bool) : Prop :=
  ∀ e, passUntil p n s.dev = some e → Completes i s e ∧ p e = true

/-- Every byte from `a` to `a + n - 1` lies in mapped DRAM, at both ends outside the rig slots. -/
def InDram (d : Dev) (a n : Nat) : Prop :=
  d.dramMapped a = true ∧ 0x80000000 ≤ a ∧ d.inSlot a = false ∧ d.inSlot (a + n - 1) = false

/-- A request of channel `c` of the DMA engine. -/
def dmaReqOf (c : Nat) (k : DmaKind) (write : Bool) (a n v : Nat) : Access := ⟨.dma, write, a, v, n, k.tag c, 0⟩

/-- START in STOPPED enters FETCH at DESC with no event counted and asks for the descriptor; elsewhere it has no effect. BURST gives the
winner the next bytes: its reads are issued. STOP waits for the end of a burst, and else stops the channel with result 3.
DESCRIPTOR_FETCH, BURST_READ_RETURN, DESCRIPTOR_COMPLETE and SCAN_DONE complete with the TCLK in which the channel has left FETCH, its
reads have returned, it has left READBACK, or the scan has ended, and have no effect elsewhere. LATE_RESPONSE of another GEN is counted.
(R415, R416, R417, R420, R422, R425, R428) -/
def Obligations.DmaChannelsStartStopAndAdvance : Prop :=
  ∀ (s : State) (c : Fin 16),
  let isIn := fun (e : Dev) (k : Nat) => e.get (DMA_STATUS_STATE c) = k
  (s.dev.hostsRun = true → let b := busFirst s.dev; let st := b.get (DMA_STATUS_STATE c); let q := b.dmaAt c
    (st ≠ 0 ∨ b.mode = 0 → Completes (.dmaStart c) s b) ∧
    (st = 0 → b.mode ≠ 0 → Yields (.dmaStart c) s fun e => isIn e 1 ∧ e.get (DMA_CUR_ADDR c) = b.get (DMA_DESC_ADDR c) % 2 ^ 32 ∧
      e.get (DMA_STATUS_EV_COUNT c) = 0 ∧ bit (e.get DMA_ACTIVE_ACTIVE) c = true ∧ SameBut (fun d => { d with fab := {} }) b e ∧
      Keeps [(DMA_STATUS_STATE c).key, (DMA_CUR_ADDR c).key, (DMA_STATUS_EV_COUNT c).key, DMA_ACTIVE_ACTIVE.key] b e) ∧
    (st = 0 ∨ st = 4 → Completes (.dmaStop c) s b) ∧
    (st ≠ 0 → st ≠ 4 → q.burst.isSome = true → Completes (.dmaStop c) s (b.putDma c { q with stop := true })) ∧
    (st ≠ 0 → st ≠ 4 → q.burst = none → q.desc.isSome = true → q.units = [] → Yields (.dmaStop c) s fun e => isIn e 0 ∧
      e.get (DMA_STATUS_LAST_RESULT c) = 3 ∧ (e.dmaAt c).desc = none ∧ e.get (DMA_COUNTS_A_ERR_CNT c) = b.get (DMA_COUNTS_A_ERR_CNT c)) ∧
    (Yields (.dmaCountClear c) s fun e => SameBut id b e ∧ e.get (DMA_COUNTS_A_DESC_CNT c) = 0 ∧ e.get (DMA_COUNTS_A_ERR_CNT c) = 0 ∧
      e.get (DMA_COUNTS_B_EV_OVF_CNT c) = 0 ∧ e.get (DMA_COUNTS_B_LATE_CNT c) = 0 ∧
      Keeps [(DMA_COUNTS_A_DESC_CNT c).key, (DMA_COUNTS_A_ERR_CNT c).key, (DMA_COUNTS_B_EV_OVF_CNT c).key, (DMA_COUNTS_B_LATE_CNT c).key] b e)) ∧
  (s.dev.hostsRun = true → let i := s.dev.get (DMA_DONE_BYTES_BYTES c); let q := s.dev.dmaAt c
    (s.dev.dmaWinner = none → Completes .burst s s.dev) ∧
    ∀ x : DmaDesc, s.dev.dmaWinner = some c.val → q.desc = some x → x.xfer = 0 → let n := s.dev.burstSize c x q
      Yields .burst s fun e =>
        (e.dmaAt c).burst = some { n := n, parts := [], left := (burstReqs x.srcMode x.src i n).length } ∧ (e.dmaAt c).began = true ∧
        (s.dev.takesEvent c x q = false → e.regs = s.dev.regs) ∧ (∀ k, k ≠ c.val → e.dmaAt k = s.dev.dmaAt k) ∧
        SameBut (fun d => { d with dma := [], fab := {} }) s.dev e) ∧
  (s.dev.tclkRuns = true → let q := s.dev.dmaAt c
    (s.dev.get (DMA_STATUS_STATE c) ≠ 1 → ∀ bad, Completes (.descriptorFetch c bad) s s.dev) ∧
    (s.dev.get (DMA_STATUS_STATE c) = 1 → Brings (.descriptorFetch c false) s 512 fun d => d.get (DMA_STATUS_STATE c) != 1) ∧
    (s.dev.burstRead c = true → ∀ k v, Completes (.burstReadReturn c k v) s s.dev) ∧
    (s.dev.burstRead c = false → ∀ v, Brings (.burstReadReturn c 0 v) s 512 fun d => d.burstRead c) ∧
    (s.dev.get (DMA_STATUS_STATE c) ≠ 4 → Completes (.descriptorComplete c) s s.dev) ∧
    (s.dev.get (DMA_STATUS_STATE c) = 4 → Brings (.descriptorComplete c) s 512 fun d => d.get (DMA_STATUS_STATE c) != 4) ∧
    (∀ n : Fin 4, ((s.dev.scanAt n).left = 0 → ∀ err, Completes (.scanDone n err) s s.dev) ∧
      ∀ a len, 0 < len → s.dev.scanAt n = ⟨a, len, none⟩ → s.dev.chk = awrite {} n ⟨a, len, none⟩ s.dev.chk →
        Brings (.scanDone n none) s (512 + (2 * len + 4096)) fun d => (d.scanAt n).left == 0) ∧
    (q.stale = [] → Completes (.lateResponse c) s s.dev) ∧
    (∀ (g : Nat) (r : List Nat), q.stale = g :: r → Yields (.lateResponse c) s fun e => (e.dmaAt c).stale = r ∧
      (g = s.dev.get (DMA_STATUS_GEN c) → e.regs = s.dev.regs) ∧
      (g ≠ s.dev.get (DMA_STATUS_GEN c) → e.get (DMA_COUNTS_B_LATE_CNT c) = (s.dev.inc (DMA_COUNTS_B_LATE_CNT c)).get (DMA_COUNTS_B_LATE_CNT c)) ∧
      Keeps [(DMA_COUNTS_B_LATE_CNT c).key] s.dev e))

/-- What a request of the DMA engine does as it reaches its target. The descriptor read: one that passes the checks becomes ACTIVE with the
next GEN, or waits for its check unit; one that fails ends the chain with the result of R414. A read of a burst keeps its bytes, a write
stores exactly its bytes, and after the last byte the channel is in READBACK; an uncorrectable error ends the chain with result 6. The
completion sequence writes check value, time and status to bytes 20 to 31 of the descriptor, and its end goes on along the chain or ends
it. (R412, R414, R415, R417, R424, R426) -/
def Obligations.DmaRequestsActAtTheirTargets : Prop :=
  ∀ (d : Dev) (c : Fin 16), let st := d.get (DMA_STATUS_STATE c); let q := d.dmaAt c
  let isIn := fun (e : Dev) (k : Nat) => e.get (DMA_STATUS_STATE c) = k
  (∀ a : Nat, st = 1 → BanksFree d → a % 2 = 0 → let x := descIn d a; let u := x.unit
    let e := dmaPerform 0 (dmaReqOf c .desc false a 32 0) d
    e.mem = d.mem ∧
    (d.descCheck c x = 0 → x.chkOp = 0 → isIn e 3 ∧ (e.dmaAt c).desc = some x ∧ e.get (DMA_DONE_BYTES_BYTES c) = 0 ∧
      e.get (DMA_STATUS_GEN c) = (d.get (DMA_STATUS_GEN c) + 1) % 16) ∧
    (d.descCheck c x = 0 → x.chkOp ≠ 0 → d.on (CHK_STATUS_BUSY u) = true → u ∉ q.units → isIn e 2 ∧ (e.dmaAt c).desc = some x ∧
      e.get (DMA_STATUS_GEN c) = d.get (DMA_STATUS_GEN c)) ∧
    (d.descCheck c x ≠ 0 → isIn e 0 ∧ (e.dmaAt c).desc = none ∧ e.get (DMA_STATUS_LAST_RESULT c) = d.descCheck c x)) ∧
  (∀ (x : DmaDesc) (b : DmaBurst) (i n : Nat), q.desc = some x → q.burst = some b → x.xfer = 0 → 0 < n → n ≤ 64 →
    (x.srcMode = 0 → InDram d (x.src + i) n →
      (2 ≤ b.left → let e := dmaPerform 0 (dmaReqOf c (.data i) false (x.src + i) n 0) d
        d.memc.bad = [] → (e.dmaAt c).burst = some { b with parts := aput i (d.mem.bytes (x.src + i) n) b.parts, left := b.left - 1 } ∧
          e.mem = d.mem ∧ e.regs = d.regs) ∧
      (b.left = 1 → let e := dmaPerform 2 (dmaReqOf c (.data i) false (x.src + i) n 0) d
        isIn e 0 ∧ e.get (DMA_STATUS_LAST_RESULT c) = 6 ∧ (e.dmaAt c).desc = none)) ∧
    (∀ v : Nat, x.dstMode = 0 → InDram d (x.dst + i) n → d.memc.bad = [] → x.chkOp = 0 →
      let e := dmaPerform 0 (dmaReqOf c (.data i) true (x.dst + i) n v) d
      e.mem = d.mem.write (x.dst + i) (v % 256 ^ n) n ∧
      (2 ≤ b.left → (e.dmaAt c).burst = some { b with left := b.left - 1 } ∧ e.regs = d.regs) ∧
      (b.left ≤ 1 → b.n ≠ 0 → q.stop = false → let j := d.get (DMA_DONE_BYTES_BYTES c) + b.n
        (e.dmaAt c).burst = none ∧ e.get (DMA_DONE_BYTES_BYTES c) = j % 2 ^ 24 ∧ (j < x.len → isIn e st) ∧ (j = x.len → j < 2 ^ 24 → isIn e 4)))) ∧
  (∀ w : Nat, let a := bits w 64 32; a % 2 = 0 → BanksFree d →
    let e := dmaPerform 0 (dmaReqOf c .back true (a + 20) 12 w) d
    e.mem.read (a + 20) 4 = bits w 0 32 ∧ e.mem.read (a + 24) 4 = d.clock.now % 1000000000 ∧ e.mem.read (a + 28) 4 = bits w 32 32 ∧
    (∀ y, y < a + 20 ∨ a + 32 ≤ y → e.mem.byte y = d.mem.byte y) ∧ e.regs = d.regs) ∧
  ∀ (x : DmaDesc) (w : Nat), st = 4 → q.desc = some x → q.units = [] → d.memc.bad = [] → bits w 60 3 < 3 →
    let e := dmaPerform 0 (dmaReqOf c .status false (bits w 64 32 + 28) 4 w) d
    (x.next = 0 → isIn e 0 ∧ e.on (DMA_IRQ_STAT_CHAIN_END c) = true) ∧ (x.next ≠ 0 → isIn e 1 ∧ e.get (DMA_CUR_ADDR c) = x.next % 2 ^ 32) ∧
    e.get (DMA_STATUS_LAST_RESULT c) = bits w 60 3 ∧ (e.dmaAt c).desc = none ∧ e.mem = d.mem ∧
    (bits w 60 3 = 2 → e.on (DMA_IRQ_STAT_CHK_FAIL c) = true) ∧ (bit w 96 = true → bits w 60 3 < 2 → e.on (DMA_IRQ_STAT_DONE c) = true) ∧
    e.get (DMA_COUNTS_A_DESC_CNT c) = (d.inc (DMA_COUNTS_A_DESC_CNT c)).get (DMA_COUNTS_A_DESC_CNT c)

/-- CHK_INIT of an idle unit loads the initial value of the algorithm and shows RESULT; CHK_GO of an idle unit starts a scan of SCAN_LEN bytes
at SCAN_ADDR when the range can be reached, and a scan of no bytes ends at once. Both are refused, counted and flagged on a busy unit, GO
also for a range out of reach. The last bytes of a scan over DRAM leave the value run through the algorithm, clear BUSY and set the cause;
a scan whose bytes meet an uncorrectable error ends there without them. (R411, R426, R427, R428) -/
def Obligations.CheckUnitsInitAndScan : Prop :=
  (∀ (s : State) (n : Fin 4), s.dev.hostsRun = true → let b := busFirst s.dev; let code := b.get (CHK_CFG_CODE n)
    let refused := (b.inc (CHK_COUNTS_REFUSED_CNT n)).cause (CHK_IRQ_STAT_REFUSED n)
    (b.on (CHK_STATUS_BUSY n) = true → Completes (.chkInit n) s refused ∧ Completes (.chkGo n) s refused) ∧
    (b.on (CHK_STATUS_BUSY n) = false →
      (Yields (.chkInit n) s fun e => (code = 0 ∨ code = 1 → e.get (CHK_VALUE_VALUE n) = 0xFFFFFFFF) ∧ (code = 2 → e.get (CHK_VALUE_VALUE n) = 0xFFFF) ∧
        (code = 3 → e.get (CHK_VALUE_VALUE n) = 0) ∧ (code ≤ 3 → e.get (CHK_RESULT_RESULT n) = 0) ∧ e.on (CHK_STATUS_BUSY n) = false ∧
        Keeps [(CHK_VALUE_VALUE n).key, (CHK_RESULT_RESULT n).key, (CHK_STATUS_RESIDUE_OK n).key] b e ∧ SameBut id b e) ∧
      (let a := b.get (CHK_SCAN_ADDR_ADDR n); let len := b.get (CHK_SCAN_LEN_LEN n)
       (b.mode ≠ 0 → b.endOk false 0 a len = true → 0 < len → Yields (.chkGo n) s fun e => e.scanAt n = ⟨a, len, none⟩ ∧ e.on (CHK_STATUS_BUSY n) = true ∧
         Keeps [(CHK_STATUS_BUSY n).key] b e ∧ SameBut (fun d => { d with chk := [], fab := {} }) b e) ∧
       (b.mode ≠ 0 → b.endOk false 0 a len = true → len = 0 → Completes (.chkGo n) s (b.cause (CHK_IRQ_STAT_SCAN_DONE n))) ∧
       (b.endOk false 0 a len = false ∨ b.mode = 0 → Completes (.chkGo n) s refused)))) ∧
  ∀ (d : Dev) (n : Fin 4) (a len k : Nat), d.scanAt n = ⟨a, len, none⟩ → 0 < k → k ≤ 64 → k ≤ len → 0x80000000 ≤ a →
    (∀ x, a ≤ x → x < a + k → d.dramMapped x = true) → (∀ c, c < 16 → d.get (DMA_STATUS_STATE c) ≠ 2) → d.memc.bad = [] →
    let e := dmaPerform 0 (dmaReqOf n .scan false a k 0) d
    let f := dmaPerform 2 (dmaReqOf n .scan false a k 0) d
    let code := d.get (CHK_CFG_CODE n)
    e.mem = d.mem ∧ e.get (CHK_VALUE_VALUE n) = crcRun code (d.get (CHK_VALUE_VALUE n)) (d.mem.bytes a k) % 2 ^ 32 % 2 ^ crcWidth code ∧
    (k < len → e.scanAt n = ⟨a + k, len - k, none⟩) ∧
    (k = len → e.scanAt n = {} ∧ e.on (CHK_STATUS_BUSY n) = false ∧ e.on (CHK_IRQ_STAT_SCAN_DONE n) = true) ∧
    f.on (CHK_STATUS_LAST_FAIL n) = true ∧ f.scanAt n = {} ∧ f.get (CHK_VALUE_VALUE n) = d.get (CHK_VALUE_VALUE n) % 2 ^ 32 % 2 ^ crcWidth code

/-- Nothing waits in the fabric or in the DRAM controller. -/
def FabricIdle (s : State) : Prop := s.dev.fab.reqs = [] ∧ s.dev.fab.wait = [] ∧ s.dev.memc.dram = []

/-- Beside registers only the fabric and the host interfaces differ. -/
def hostOnly (d : Dev) : Dev := { d with fab := {}, host := {}, fresh := 0 }

/-- The one access `a` enters the fabric at once, through its master's port; no register and no memory changes (R37, R38). -/
def Requests (s : State) (e : Dev) (a : Access) : Prop :=
  e.fab.reqs = [⟨a.master.port, s.dev.clock.now % 65536, s.dev.clock.now, a⟩] ∧ e.fab.wait = [] ∧ SameBut hostOnly s.dev e

/-- The PCIe link is down, its configuration reset, and no completion waits; no memory has changed (R455). -/
def LinkReset (s : State) (e : Dev) : Prop :=
  e.on HOST_PCIE_STAT_LINK_UP = false ∧ e.get HOST_PCIE_STAT_SPEED = 0 ∧ e.get HOST_PCIE_STAT_WIDTH = 0 ∧ e.on HOST_PCIE_STAT_BME = false ∧
  e.on HOST_PCIE_STAT_MSIX_EN = false ∧ e.on HOST_PCIE_STAT_FUNC_MASK = false ∧ e.host.cpl = [] ∧ e.mem = s.dev.mem ∧
  ∀ r, r ∈ e.fab.wait → r.acc.master ≠ .pcie

/-- With nothing waiting, a PCIe write or read of one word, an SPI write of one word and an I2C write with a right or no PEC each put one
access into the fabric; a wrong PEC is counted and discards the write, a link that is down takes nothing. PCIE_COMPLETION hands out the
oldest completion. SPI_READ and I2C_READ do so as well, and the word of DRAM that returns is sent; a late word reads all ones and is
counted. A timeout abandons the I2C read. SPI_CS_RISE counts a partial word and clears BNKBSY. QSPI_GO begins a command or is discarded;
its end fills the buffer. PERST_N low, HOT_RESET and FUNCTION_LEVEL_RESET take the link down, reset BME, MSI-X Enable and Function Mask,
discard completions, and free an OPEN context of PCIe; a function reset also masks every vector and clears the PBA. The rise of PERST_N is
noted and releases WAKE_N. A link that comes up shows the lower of its speed and MAX_SPEED, one that goes down shows 0; a configuration
write shows its bits and sends what was pending in an open vector. (R37, R449, R452, R454, R455, R456, R458, R459, R461, R462, R463, R465) -/
def Obligations.HostInterfacesAndPcieLink : Prop :=
  (∀ s : State, s.dev.hostsRun = true →
  (∀ (a : BitVec 32) (b : List Nat) (tag : BitVec 16),
    (s.dev.on HOST_PCIE_STAT_LINK_UP = false → Completes (.pciePostedWrite a b) s s.dev ∧ ∀ n, Completes (.pcieReadRequest a n tag) s s.dev) ∧
    (s.dev.on HOST_PCIE_STAT_LINK_UP = true → a.toNat % 4 = 0 → FabricIdle s →
      (b.length = 4 → Yields (.pciePostedWrite a b) s fun e => Requests s e ⟨.pcie, true, a.toNat, leNum b, 4, 0, 0⟩ ∧ e.regs = s.dev.regs) ∧
      (Yields (.pcieReadRequest a 4 tag) s fun e => Requests s e ⟨.pcie, false, a.toNat, 0, 4, tag.toNat, 0⟩ ∧ e.regs = s.dev.regs))) ∧
  (∀ (c : PcieCpl) (r : List PcieCpl), s.dev.host.cpl = c :: r → s.dev.on HOST_PCIE_STAT_LINK_UP = true →
    Completes .pcieCompletion s { s.dev with host := { s.dev.host with cpl := r, pcieOut := some c } }) ∧
  (∀ a v : BitVec 32, a.toNat % 4 = 0 → FabricIdle s →
    (∀ part, Yields (.spiWrite a [v] part) s fun e => Requests s e ⟨.spi, true, a.toNat, v.toNat, 4, 0, 0⟩ ∧ e.regs = s.dev.regs ∧ e.host.spiPartial = part) ∧
    (∀ pec : Option (BitVec 8), s.dev.on HOST_I2C_CFG_PEC_EN = false ∨ (pec.map fun x => x.toNat) = some (s.dev.pecWrite a.toNat v.toNat) →
      Yields (.i2cWrite a v pec) s fun e => Requests s e ⟨.i2c, true, a.toNat, v.toNat, 4, 0, 0⟩ ∧ e.regs = s.dev.regs) ∧
    (Yields (.spiRead a 1 0 0) s fun e => Requests s e ⟨.spi, false, a.toNat, 0, 4, 0, 0⟩ ∧ e.regs = s.dev.regs ∧ e.host.spiOut = [2 ^ 32 - 1]) ∧
    (Yields (.spiRead a 1 1 0) s fun e => Requests s e ⟨.spi, false, a.toNat, 0, 4, 256, 0⟩ ∧ e.host.spiOut = [2 ^ 32 - 1] ∧
      e.get HOST_SPI_STAT_LATE_CNT = (s.dev.inc HOST_SPI_STAT_LATE_CNT).get HOST_SPI_STAT_LATE_CNT ∧ Keeps [HOST_SPI_STAT_LATE_CNT.key] s.dev e) ∧
    (Yields (.i2cRead a false) s fun e => Requests s e ⟨.i2c, false, a.toNat, 0, 4, 0, 0⟩ ∧ e.regs = s.dev.regs ∧ e.host.i2cOut = [])) ∧
  (∀ (d : Dev) (a : Nat), d.memc.bad = [] → 0x80000000 ≤ a → d.dramMapped a = true → let w := d.mem.read a 4
    let e := perform 0 ⟨.spi, false, a, 0, 4, 0, 0⟩ d
    let l := perform 0 ⟨.spi, false, a, 0, 4, 256, 0⟩ d
    let f := perform 0 ⟨.i2c, false, a, 0, 4, 0, 0⟩ d
    e.host.spiOut = d.host.spiOut.set 0 w ∧ l.host.spiOut = d.host.spiOut ∧ e.lastRead .spi = w ∧
    f.host.i2cOut = beBytes w ++ (if d.on HOST_I2C_CFG_PEC_EN then [d.pecRead a w] else []) ∧ f.lastRead .i2c = w) ∧
  (∀ (a v : BitVec 32) (pec : Option (BitVec 8)), s.dev.on HOST_I2C_CFG_PEC_EN = true →
    (pec.map fun x => x.toNat) ≠ some (s.dev.pecWrite a.toNat v.toNat) → Completes (.i2cWrite a v pec) s (s.dev.inc HOST_I2C_STAT_PEC_ERR_CNT)) ∧
  (Yields .i2cTimeout s fun e => e.get HOST_I2C_STAT_TIMEOUT_CNT = (s.dev.inc HOST_I2C_STAT_TIMEOUT_CNT).get HOST_I2C_STAT_TIMEOUT_CNT ∧
    Keeps [HOST_I2C_STAT_TIMEOUT_CNT.key] s.dev e ∧ ∀ q, q ∈ e.fab.reqs → q.acc.master = .i2c → q.acc.write = false → q.acc.tag = noTag) ∧
  (Yields .spiCsRise s fun e => e.host.spiPartial = false ∧ e.on MEM_BUSY_SPI = false ∧ Keeps [MEM_BUSY_SPI.key, HOST_SPI_STAT_PARTIAL_CNT.key] s.dev e ∧
    e.get HOST_SPI_STAT_PARTIAL_CNT = (if s.dev.host.spiPartial then s.dev.inc HOST_SPI_STAT_PARTIAL_CNT else s.dev).get HOST_SPI_STAT_PARTIAL_CNT) ∧
  (let b := busFirst s.dev
   (b.on HOST_QSPI_STAT_BUSY = true → Completes .qspiGo s (b.inc HOST_QSPI_STAT_DISCARD_CNT)) ∧
   (b.on HOST_QSPI_STAT_BUSY = false → Completes .qspiGo s (b.set HOST_QSPI_STAT_BUSY 1))) ∧
  (s.dev.on HOST_QSPI_STAT_BUSY = false → ∀ b, Completes (.qspiDone b) s s.dev) ∧
  (s.dev.on HOST_QSPI_STAT_BUSY = true → ∀ b : List Nat,
    (s.dev.on HOST_QSPI_CMD_DIR = true → Completes (.qspiDone b) s (s.dev.set HOST_QSPI_STAT_BUSY 0)) ∧
    (s.dev.on HOST_QSPI_CMD_DIR = false → s.dev.get HOST_QSPI_CMD_LEN ≤ 256 → Yields (.qspiDone b) s fun e => e.on HOST_QSPI_STAT_BUSY = false ∧
      SameBut id s.dev e ∧ ∀ i, i < s.dev.get HOST_QSPI_CMD_LEN → bits (e.get (HOST_QSPI_BUF_DATA (i / 4))) (8 * (i % 4)) 8 = b.getD i 0 % 256))) ∧
  ((∀ s : State, s.dev.clock.phase ≠ .held → (Yields .perstLow s fun e => LinkReset s e ∧ e.pwr.perstLow = true) ∧
    (Yields .perstRise s fun e => e.pwr.perstLow = false ∧ e.pwr.perstAt = some s.dev.clock.now ∧ e.pwr.wakeN = false ∧ e.regs = s.dev.regs)) ∧
  ∀ s : State, s.dev.tclkRuns = true → (Yields .hotReset s fun e => LinkReset s e ∧ e.pwr = s.dev.pwr) ∧
  (Yields .functionLevelReset s fun e => LinkReset s e ∧ e.pwr = s.dev.pwr ∧ e.get HOST_MSIX_PBA_PEND = 0 ∧
    ∀ v, v < 32 → e.on (HOST_MSIX_VCTRL_MASK v) = true ∧ e.get (HOST_MSIX_ADDR_LO_ADDR_LO v) = 0 ∧ e.get (HOST_MSIX_ADDR_HI_ADDR_HI v) = 0 ∧
      e.get (HOST_MSIX_DATA_DATA v) = 0) ∧
  (∀ c : Fin 8, s.dev.bound .pcie = some c.val → s.dev.get (TXN_CTX_STATUS_STATE c) = 1 →
    Yields .hotReset s fun e => e.get (TXN_CTX_STATUS_STATE c) = 0 ∧ e.get (TXN_CTX_STATUS_DEPTH c) = 0) ∧
  (∀ (v w : BitVec 4) (l1 : Bool),
    (s.dev.pwr.perstLow = false → s.dev.mode ≠ 0 → s.dev.on HOST_PCIE_STAT_LINK_UP = false → Yields (.pcieLinkStateChange true v w l1) s fun e =>
      e.on HOST_PCIE_STAT_LINK_UP = true ∧ e.get HOST_PCIE_STAT_SPEED = min v.toNat (s.dev.get HOST_PCIE_CFG_MAX_SPEED) % 2 ^ HOST_PCIE_STAT_SPEED.w ∧
      e.get HOST_PCIE_STAT_WIDTH = w.toNat % 2 ^ HOST_PCIE_STAT_WIDTH.w ∧
      Keeps [HOST_PCIE_STAT_LINK_UP.key, HOST_PCIE_STAT_SPEED.key, HOST_PCIE_STAT_WIDTH.key] s.dev e) ∧
    (s.dev.pwr.perstLow = true → Completes (.pcieLinkStateChange true v w l1) s s.dev) ∧
    (Yields (.pcieLinkStateChange false v w l1) s fun e => e.on HOST_PCIE_STAT_LINK_UP = false ∧ e.get HOST_PCIE_STAT_SPEED = 0 ∧
      e.get HOST_PCIE_STAT_WIDTH = 0 ∧ e.host.l1 = false ∧
      Keeps [HOST_PCIE_STAT_LINK_UP.key, HOST_PCIE_STAT_SPEED.key, HOST_PCIE_STAT_WIDTH.key] s.dev e)) ∧
  ∀ b x m : Bool, Yields (.pcieConfigWrite b x m) s fun e => e.on HOST_PCIE_STAT_BME = b ∧ e.on HOST_PCIE_STAT_MSIX_EN = x ∧
    e.on HOST_PCIE_STAT_FUNC_MASK = m ∧ (b = true → x = true → m = false → ∀ v, v < 32 → s.dev.on (HOST_MSIX_VCTRL_MASK v) = false →
      bit (e.get HOST_MSIX_PBA_PEND) v = false) ∧
    Keeps [HOST_PCIE_STAT_BME.key, HOST_PCIE_STAT_MSIX_EN.key, HOST_PCIE_STAT_FUNC_MASK.key, HOST_MSIX_PBA_PEND.key] s.dev e)

/-- The trust core has no command in progress. -/
def TrustIdle (s : State) : Prop :=
  s.dev.hostsRun = true ∧ (busFirst s.dev).trust.cmd = none ∧ (busFirst s.dev).on TRUST_STATUS_BUSY = false

/-- Beside registers only the fabric differs. -/
def fabOnly (d : Dev) : Dev := { d with fab := {} }

/-- Address and length of the argument that the host has given (R477). -/
def argAt (d : Dev) : Nat := d.get TRUST_ARG_ADDR_ADDR
def argLen (d : Dev) : Nat := d.get TRUST_ARG_LEN_LEN

/-- Registers of the trust core that every command writes. -/
def trustKeys : List Nat := [TRUST_RESULT_CODE.key, TRUST_RESULT_OUT_LEN.key, TRUST_STATUS_BUSY.key, TRUST_IRQ_STAT_CMD_DONE.key]

/-- Every register outside `keys` and outside the logbook's is as it was. -/
def TrustKeeps (keys : List Nat) (d e : Dev) : Prop :=
  ∀ f : Field, f.key ∉ trustKeys ++ keys → f.key < 0x120000 * 32 ∨ 0x130000 * 32 ≤ f.key → e.get f = d.get f

/-- The command has completed with `code`: RESULT shows it, BUSY is 0 and the CMD_DONE cause is set (R477). -/
def TrustEnds (e : Dev) (code out : Nat) : Prop :=
  e.get TRUST_RESULT_CODE = code ∧ e.get TRUST_RESULT_OUT_LEN = out ∧ e.on TRUST_STATUS_BUSY = false ∧ e.trust.cmd = none ∧
  e.on TRUST_IRQ_STAT_CMD_DONE = true

/-- The token that the host has given has operation `op` and passes every check (R479). -/
def TokenPasses (s : State) (op : Nat) (sig : Bool) : Prop :=
  let b := busFirst s.dev
  TrustIdle s ∧ b.mem.read (argAt b + 4) 2 = op ∧ b.tokenCheck (argAt b) (argLen b) sig = none

/-- Length and address of the body of the token, and its value there (R478). -/
def bodyLen (d : Dev) : Nat := d.mem.read (argAt d + 26) 2
def bodyAt (d : Dev) : Nat := argAt d + 28

/-- The command `i` takes the token: it completes, raises the token counter to SEQ, writes no register but those of `keys`, and `Q` holds. -/
def TokenRuns (i : Instr) (s : State) (keys : List Nat) (Q : Dev → Prop) : Prop :=
  let b := busFirst s.dev
  Yields i s fun e => TrustEnds e 1 0 ∧ e.get TRUST_COUNTER_TOKEN_VALUE = b.mem.read (argAt b + 16) 4 ∧ e.mem = b.mem ∧
    TrustKeeps (TRUST_COUNTER_TOKEN_VALUE.key :: keys) b e ∧ Q e

/-- DEPLOY, SERVICE, RELEASE and SCRAP leave their life-cycle state for the catch, RELEASE and SCRAP after erasing slots and key store;
BOATHOUSE permits the mode; ADD_KEY and REVOKE_KEY change a slot, the last ACTIVE slot staying; SET_POLICY, SET_TAMPER and CLEAR_TAMPER
write their fields; KEYS applies its records, shown for SET_CREW. Each raises the token counter to SEQ. A token that fails a check ends
with its code, and a write while another command runs ends BUSY. (R472, R476, R477, R479, R481, R485) -/
def Obligations.TokensActOnceChecked : Prop :=
  ∀ (s : State) (g : Bool), let b := busFirst s.dev; let bl := bodyLen b; let ba := bodyAt b
  (TokenPasses s 1 g → bl = 0 → TokenRuns (.deploy g) s [] fun e => e.trust.lcNext = some 2) ∧
  (TokenPasses s 2 g → bl = 0 → TokenRuns (.service g) s [] fun e => e.trust.lcNext = some 3) ∧
  (TokenPasses s 3 g → bl = 0 → TokenRuns (.boathouse g) s [TRUST_STATUS_BH_PERMIT.key] fun e => e.on TRUST_STATUS_BH_PERMIT = true ∧
    e.trust.lcNext = b.trust.lcNext) ∧
  (∀ k : Fin 4, TokenPasses s 4 g → bl = 2056 → b.mem.read ba 4 = k.val → recordOk (b.mem.bytes (ba + 4) 2052) = true →
    b.get (TRUST_KEYSLOT_STATE k) ≠ 1 → TokenRuns (.addKey g) s [(TRUST_KEYSLOT_STATE k).key, (TRUST_KEYSLOT_ALGS k).key] fun e =>
      e.get (TRUST_KEYSLOT_STATE k) = 1 ∧ e.get (TRUST_KEYSLOT_ALGS k) = b.mem.read (ba + 4) 1 ∧
      aget [] k.val e.trust.records = b.mem.bytes (ba + 4) 2052) ∧
  (∀ k : Fin 4, TokenPasses s 5 g → bl = 4 → b.mem.read ba 4 = k.val →
    (b.otherActive k = true → TokenRuns (.revokeKey g) s [(TRUST_KEYSLOT_STATE k).key] fun e => e.get (TRUST_KEYSLOT_STATE k) = 2) ∧
    (b.otherActive k = false → Yields (.revokeKey g) s fun e => TrustEnds e 9 0 ∧ TrustKeeps [] b e)) ∧
  (TokenPasses s 6 g → bl = 4 → TokenRuns (.tokenSetPolicy g) s [TRUST_POLICY_MIN_ALG.key, TRUST_POLICY_ENDORSE.key, TRUST_POLICY_CREW_LOCK.key]
    fun e => e.get TRUST_POLICY_MIN_ALG = min 2 (b.mem.read ba 1 % 4) ∧ e.on TRUST_POLICY_ENDORSE = bit (b.mem.read ba 1) 2 ∧
      e.on TRUST_POLICY_CREW_LOCK = bit (b.mem.read ba 1) 3) ∧
  (TokenPasses s 7 g → bl = 24 → Yields (.setTamper g) s fun e => TrustEnds e 1 0 ∧ ∀ i, i < 6 → let w := b.mem.read (ba + 4 * i) 4
    e.on (TRUST_TAMP_CFG_EN i) = bit w 0 ∧ e.on (TRUST_TAMP_CFG_POL i) = bit w 1 ∧ e.get (TRUST_TAMP_CFG_RESPONSE i) = min 2 (bits w 2 2) ∧
    e.get (TRUST_TAMP_CFG_DEBOUNCE i) = max 1 (bits w 4 16)) ∧
  (TokenPasses s 8 g → bl = 0 → TokenRuns (.tokenClearTamper g) s [TRUST_TAMP_STAT_LATCH.key] fun e => e.get TRUST_TAMP_STAT_LATCH = 0) ∧
  (∀ p : List Nat, TokenPasses s 9 g → bl = 164 → b.mem.read (ba + 108) 4 = 36 → p.length = 36 → p.take 4 = [1, 0, 0, 0] →
    TokenRuns (.keys g (some p)) s [TRUST_KEYINFO_CREW_KEY.key, TRUST_STATUS_KS_ERR.key] fun e =>
      e.trust.crewKey = leNum (p.drop 4) ∧ e.on TRUST_KEYINFO_CREW_KEY = true ∧ e.on TRUST_STATUS_KS_ERR = false) ∧
  (∀ x, x ∈ [((10 : Nat), Instr.release g, (4 : Nat)), (11, .scrap g, 5)] → TokenPasses s x.1 g → bl = 0 → Yields x.2.1 s fun e =>
    TrustEnds e 1 0 ∧ e.trust.lcNext = some x.2.2 ∧ e.trust.crewKey = 0 ∧ e.trust.records = [] ∧ e.get TRUST_KEYINFO_SA_COUNT = 0 ∧
    (∀ k, k < 4 → e.get (TRUST_KEYSLOT_STATE k) = 0 ∧ e.pstate k = 0)) ∧
  ∀ x, x ∈ [((1 : Nat), Instr.deploy g), (2, .service g), (3, .boathouse g), (4, .addKey g), (5, .revokeKey g), (6, .tokenSetPolicy g),
      (7, .setTamper g), (8, .tokenClearTamper g), (9, .keys g none), (10, .release g), (11, .scrap g)] →
    (∀ c : Nat, c < 16 → TrustIdle s → b.mem.read (argAt b + 4) 2 = x.1 → b.tokenCheck (argAt b) (argLen b) g = some c →
      Yields x.2 s fun e => TrustEnds e c 0 ∧ Keeps trustKeys b e ∧ SameBut fabOnly b e) ∧
    (∀ (o a l : Nat), s.dev.hostsRun = true → b.trust.cmd = some (o, a, l) → o ≠ 2 → b.on TRUST_STATUS_BUSY = true →
      Completes x.2 s (b.set TRUST_RESULT_CODE 2))

/-- With an idle trust core: PROVISION in BLANK writes slot 0 and leaves OWNED for the catch; ATTEST writes its 3,544 bytes behind the
argument, beginning with serial number and life cycle, and nothing else in memory; SET_POLICY in OWNED writes POLICY; CLEAR_TAMPER in
BLANK or OWNED clears every latch. In another state each ends with code 6 and no effect. TRUST_CMD_COMPLETE ends the command in progress.
TAMPER_FIRE of an enabled input sets its latch, and with RESPONSE 2 erases crew key and session keys. (R472, R477, R483, R488, R489) -/
def Obligations.TrustCommandsAndTamper : Prop :=
  (∀ s : State, TrustIdle s → let b := busFirst s.dev; let a := argAt b; let len := argLen b; let lc := b.lc
    (lc = 0 → inBank10 a 2052 = true → len = 2052 → recordOk (b.mem.bytes a 2052) = true → Yields .provision s fun e => TrustEnds e 1 0 ∧
      e.trust.lcNext = some 1 ∧ e.get (TRUST_KEYSLOT_STATE 0) = 1 ∧ e.get (TRUST_KEYSLOT_ALGS 0) = b.mem.read a 1 ∧
      aget [] 0 e.trust.records = b.mem.bytes a 2052 ∧ e.mem = b.mem ∧
      TrustKeeps [(TRUST_KEYSLOT_STATE 0).key, (TRUST_KEYSLOT_ALGS 0).key] b e) ∧
    (lc ≠ 5 → inBank10 a 3576 = true → len = 32 → Yields .attest s fun e => TrustEnds e 1 3544 ∧ TrustKeeps [] b e ∧
      e.mem.read (a + 32) 8 = b.fused.serial % 2 ^ 64 ∧ e.mem.read (a + 40) 1 = lc % 256 ∧
      ∀ x, x < a + 32 ∨ a + 3576 ≤ x → e.mem.byte x = b.mem.byte x) ∧
    (lc = 1 → inBank10 a 4 = true → len = 4 → Yields .cmdSetPolicy s fun e => TrustEnds e 1 0 ∧ SameBut fabOnly b e ∧
      e.get TRUST_POLICY_MIN_ALG = min 2 (b.mem.read a 1 % 4) ∧ e.on TRUST_POLICY_ENDORSE = bit (b.mem.read a 1) 2 ∧
      e.on TRUST_POLICY_CREW_LOCK = bit (b.mem.read a 1) 3 ∧
      Keeps (trustKeys ++ [TRUST_POLICY_MIN_ALG.key, TRUST_POLICY_ENDORSE.key, TRUST_POLICY_CREW_LOCK.key]) b e) ∧
    (lc ≤ 1 → Yields .cmdClearTamper s fun e => TrustEnds e 1 0 ∧ e.get TRUST_TAMP_STAT_LATCH = 0 ∧ SameBut fabOnly b e ∧
      Keeps (trustKeys ++ [TRUST_TAMP_STAT_LATCH.key]) b e) ∧
    (let six := fun i => Yields i s fun e => TrustEnds e 6 0 ∧ Keeps trustKeys b e ∧ SameBut fabOnly b e
     (lc ≠ 0 → inBank10 a len = true → six .provision) ∧ (lc = 5 → inBank10 a (len + 3544) = true → six .attest) ∧
     (lc ≠ 1 → inBank10 a len = true → six .cmdSetPolicy) ∧ (1 < lc → six .cmdClearTamper)) ∧
    ∀ g p, Completes (.trustCmdComplete g p) s b) ∧
  (∀ (s : State) (g : Bool) (p : Option (List Nat)) (a l : Nat), s.dev.hostsRun = true → let b := busFirst s.dev
    b.trust.cmd = some (5, a, l) → b.lc ≤ 1 →
    Yields (.trustCmdComplete g p) s fun e => TrustEnds e 1 0 ∧ e.get TRUST_TAMP_STAT_LATCH = 0) ∧
  ∀ (s : State) (i : Fin 6), s.dev.clock.phase ≠ .held →
    (s.dev.on (TRUST_TAMP_CFG_EN i) = false → Completes (.tamperFire i) s s.dev) ∧
    (s.dev.on (TRUST_TAMP_CFG_EN i) = true → Yields (.tamperFire i) s fun e => bit (e.get TRUST_TAMP_STAT_LATCH) i = true ∧
      (∀ j, j < 6 → j ≠ i.val → bit (e.get TRUST_TAMP_STAT_LATCH) j = bit (s.dev.get TRUST_TAMP_STAT_LATCH) j) ∧
      (s.dev.get (TRUST_TAMP_CFG_RESPONSE i) = 2 → e.trust.crewKey = 0 ∧ e.on TRUST_KEYINFO_CREW_KEY = false ∧ ∀ k, k < 4 → e.pstate k = 0) ∧
      (s.dev.get (TRUST_TAMP_CFG_RESPONSE i) = 0 → SameBut (fun d => { d with log := {}, fresh := 0 }) s.dev e) ∧
      (s.dev.get (TRUST_TAMP_CFG_RESPONSE i) ≠ 2 → e.trust.crewKey = s.dev.trust.crewKey ∧ e.trust.saKeys = s.dev.trust.saKeys))

/-- A power-on reset is held with `cause`: what the fuses and the logbook hold remains, memory and every other unit do not (R513, R514). -/
def HeldWith (s : State) (cause : Nat) (e : Dev) : Prop :=
  e.clock.phase = .held ∧ e.get SYS_RST_STATUS_CAUSE = cause ∧ e.mem = [] ∧ e.fused = s.dev.fused ∧ e.log = s.dev.log ∧ e.tap = s.dev.tap ∧
  e.trust.records = s.dev.trust.records ∧ e.trust.crewKey = s.dev.trust.crewKey ∧ e.trust.saKeys = s.dev.trust.saKeys ∧
  e.get TRUST_COUNTER_RIG_VALUE = s.dev.get TRUST_COUNTER_RIG_VALUE % 2 ^ 32 ∧
  e.get TRUST_COUNTER_PATCH_VALUE = s.dev.get TRUST_COUNTER_PATCH_VALUE % 2 ^ 32 ∧
  e.get TRUST_COUNTER_TOKEN_VALUE = s.dev.get TRUST_COUNTER_TOKEN_VALUE % 2 ^ 32 ∧
  (s.dev.trust.lcNext = none → e.lc = s.dev.lc % 8)

/-- A warm reset has begun with `cause` (R514, R522): every context is free, no interrupt is stacked, and the clock runs on. -/
def WarmWith (b : Dev) (cause : Nat) (e : Dev) : Prop :=
  e.get SYS_RST_STATUS_CAUSE = cause ∧ e.on SYS_RST_STATUS_WARM_BUSY = true ∧
  e.get SYS_RST_COUNTS_WARM_CNT = (b.inc SYS_RST_COUNTS_WARM_CNT).get SYS_RST_COUNTS_WARM_CNT ∧ e.irq.prios = [] ∧
  e.on TRUST_STATUS_BH_PERMIT = false ∧ e.clock = b.clock ∧ ∀ c, c < 8 → e.get (TXN_CTX_STATUS_STATE c) = 0

/-- SUPPLY_MONITOR_RESET and PORST_N_LOW hold the device with cause 0 and 1; the logbook, its counters and keys remain. POWER_ON_RESET samples
the straps and waits for the first whole second after the boot. WARM_RESET begins a warm reset with cause 2 and a host write of WARM one
with cause 3: every context is free and no interrupt stacked; while one is in progress, and in MOORED, a request only counts as ignored.
WARM_RESET_COMPLETE clears WARM_BUSY. The TAP takes its instruction. (R471, R482, R513, R514, R515, R516, R522, R523, R576) -/
def Obligations.ResetsAndTheTap : Prop :=
  ∀ s : State,
  (Yields .supplyMonitorReset s (HeldWith s 0)) ∧ (Yields .porstNLow s (HeldWith s 1)) ∧
  (∀ b : BootIn, Yields (.powerOnReset b) s fun e => e.clock.phase = .waitFirst ∧ e.clock.now = b.took ∧ e.clock.endAt = nextSecond b.took ∧
    e.get SYS_BOOT_STATUS_STAGE = 7 ∧ e.get SYS_BOOT_STATUS_STRAP = b.strap % 4 ∧ e.on SYS_BOOT_STATUS_STRAP2 = b.strap2 ∧
    e.fused = s.dev.fused ∧ e.tap = s.dev.tap) ∧
  (∀ v : BitVec 8, Completes (.tapInstructionUpdate v) s { s.dev with tap := v.toNat }) ∧
  (s.dev.hostsRun = true → let b := busFirst s.dev
    (Yields .warmReset s (WarmWith s.dev 2)) ∧
    (∀ m : Master, m.hostIdx.isSome = true → Yields (.warm m) s (WarmWith b 3)) ∧ ∀ m : Master, m.hostIdx = none → Completes (.warm m) s b) ∧
  (s.dev.clock.phase ≠ .held → s.dev.on SYS_RST_STATUS_WARM_BUSY = true ∨ s.dev.tclkRuns = false →
    Completes .warmReset s (s.dev.inc SYS_RST_COUNTS_IGNORED_CNT)) ∧
  (s.dev.clock.phase ≠ .held → s.dev.on SYS_RST_STATUS_WARM_BUSY = true → Yields .warmResetComplete s fun e => e.mem = s.dev.mem ∧
    e.on SYS_RST_STATUS_WARM_BUSY = false ∧ (∀ i, i ∈ e.rig.copyQ ↔ i < 40 ∧ bit s.dev.rig.blocked i = true) ∧
    Keeps [SYS_RST_STATUS_WARM_BUSY.key] s.dev e) ∧
  (s.dev.clock.phase ≠ .held → s.dev.on SYS_RST_STATUS_WARM_BUSY = false → Completes .warmResetComplete s s.dev)

/-- WIND_DOWN_END stops TCLK: the banks are lost, DRAM stays while MOORED_SR is 1 and is untrained otherwise, models are saved. WAKE with a
source shows it and starts TCLK towards the next whole second; without a source, or while too hot, it has no effect. WAKE_TIMER brings
time to WAKE_AT and GTIO1_WAKE notes its pin; each then stands for a wake request. TEMP_SAMPLE shows the highest valid reading with WARN,
HOT and TRIP by its limits; SUPPLY_SAMPLE each measured supply; ADC_CONVERSION_END, 1,000 TCLK after the start, the code with its stamp.
(R446, R501, R502, R503, R504, R510, R526, R530, R531, R573) -/
def Obligations.MooredWakesAndMonitors : Prop :=
  ∀ s : State, let ph := s.dev.clock.phase; let at_ := (s.dev.get PWR_WAKE_AT_LO_SEC_LO + 2 ^ 32 * s.dev.get PWR_WAKE_AT_HI_SEC_HI) * 1000000000
  (ph = .windDown → Yields .windDownEnd s fun e => e.clock.phase = .moored ∧ e.clock.now = s.dev.clock.now ∧ e.fab.reqs = [] ∧
    (∀ a, e.mem.byte a = if s.dev.on MEM_CTRL_MOORED_SR = true ∧ 0x80000000 ≤ a then s.dev.mem.byte a else 0) ∧
    (s.dev.on MEM_CTRL_MOORED_SR = false → e.on MEM_DRAM_STAT_TRAINED = false) ∧ Keeps [MEM_DRAM_STAT_TRAINED.key] s.dev e ∧
    ∀ n m, n < 4 → (s.dev.oscAt n).model = some m → aget {} n e.log.models = { m with id := s.dev.get (TB_OSC_MODEL_ID_ID n) }) ∧
  (ph = .run ∨ ph = .moored → Completes .windDownEnd s s.dev) ∧
  (∀ (took : Nat) (dir : Option BootDir), ph = .moored →
    (s.dev.pwr.hotHold = true ∨ (s.dev.pwr.early = none ∧ s.dev.wakeNow = none) → Completes (.wake took dir) s s.dev) ∧
    (∀ w : Nat × Nat, s.dev.pwr.hotHold = false → s.dev.pwr.early = some w ∨ (s.dev.pwr.early = none ∧ s.dev.wakeNow = some w) → Yields (.wake took dir) s fun e =>
      e.get PWR_STATUS_WAKE_SRC = w.1 % 2 ^ PWR_STATUS_WAKE_SRC.w ∧ e.get PWR_STATUS_WAKE_IRQ = (if w.1 = 1 then w.2 % 1024 else 0) ∧ e.clock.phase = .waitFirst ∧
      e.clock.now = s.dev.clock.now + took ∧ e.clock.endAt = nextSecond (s.dev.clock.now + took) ∧ e.pwr.wakeN = (w.1 != 3))) ∧
  (ph = .moored → s.dev.on PWR_WAKE_CFG_TIMER_EN = true → Completes .wakeTimer s (wakeNote (passTo at_ s.dev)) ∧
    (at_ ≤ s.dev.clock.now → s.dev.pwr.early = none → (∀ n, n ∈ s.dev.pendList → mooredSrc n = false) →
      Does .wakeTimer s fun e => e.pwr.early = some (2, 0) ∧ e.clock = s.dev.clock)) ∧
  (ph ≠ .held → s.dev.on PWR_WAKE_CFG_TIMER_EN = false → Completes .wakeTimer s s.dev) ∧
  (s.dev.on PWR_WAKE_CFG_GTIO1_EN = true →
    (ph = .run → Completes .gtio1Wake s { s.dev with pwr := { s.dev.pwr with gtio1At := some s.dev.clock.now } }) ∧
    (ph = .moored → s.dev.pwr.early = none → s.dev.on PWR_WAKE_CFG_TIMER_EN = false → s.dev.on PWR_WAKE_CFG_PERST_EN = false →
      (∀ n, n ∈ s.dev.pendList → mooredSrc n = false) → Yields .gtio1Wake s fun e => e.pwr.early = some (4, 0) ∧ e.regs = s.dev.regs)) ∧
  (ph ≠ .held → s.dev.on PWR_WAKE_CFG_GTIO1_EN = false → Completes .gtio1Wake s s.dev) ∧
  (∀ v : Int, ph ≠ .held → -32768 ≤ v → v < 32768 → let t := v / 16
    Yields (.tempSample [some v, none, none, none]) s fun e => (-128 ≤ t → t < 128 → e.gets PWR_STATUS_TEMP = t) ∧ e.gets (MON_TEMP_TEMP 0) = v ∧
      e.on (MON_TEMP_VALID 0) = true ∧ (∀ k, 1 ≤ k → k < 4 → e.on (MON_TEMP_VALID k) = false) ∧
      ((16 * s.dev.get PWR_THERM_WARN_C : Int) ≤ v → e.on PWR_STATUS_WARN = true ∧ e.on PWR_IRQ_STAT_WARN = true) ∧
      (v ≤ (16 * s.dev.get PWR_THERM_WARN_C : Int) - 80 → e.on PWR_STATUS_WARN = false) ∧
      ((16 * s.dev.get PWR_THERM_HOT_C : Int) ≤ v → e.on PWR_STATUS_HOT = true ∧ e.on PWR_IRQ_STAT_HOT = true) ∧
      (v ≤ (16 * s.dev.get PWR_THERM_HOT_C : Int) - 80 → e.on PWR_STATUS_HOT = false) ∧
      (2080 ≤ v → e.on PWR_STATUS_TRIP = true ∧ e.on PWR_IRQ_STAT_TRIP = true ∧ e.pwr.trip = decide (s.dev.mode ≠ 0) ∧ e.pwr.hotHold = true)) ∧
  (∀ mv : List Nat, ph ≠ .held → Yields (.supplySample mv) s fun e => ∀ k, k < 16 → ∀ v, mv[k]? = some v → s.dev.supMeasured k = true →
    e.get (MON_SUP_VALUE_MV k) = min v 8191) ∧
  ∀ uv : Nat, s.dev.tclkRuns = true → (s.dev.adcEndAt = none → Completes (.adcConversionEnd uv) s s.dev) ∧
    TakesPlace (.adcConversionEnd uv) s Dev.adcEndAt fun b e => ∀ c : Conv, b.mode ≠ 0 → b.mon.conv = some c → c.ain < 16 →
      e.get (MON_AIN_RESULT_CODE c.ain) = adcCode uv ∧ e.on (MON_AIN_RESULT_VALID c.ain) = true ∧
      e.on (MON_AIN_RESULT_TRIG c.ain) = c.trig ∧ e.get (MON_AIN_STAMP_PT c.ain) = c.stampAt % 2 ^ 32 ∧ e.clock = b.clock

/-- A write of any value to SYS.IDENT by any master completes without an effect: the device is what it is at a bus access of this TCLK without
the write, and SYS.IDENT shows what it showed there. (R5) -/
def Obligations.IdentIgnoresWrites : Prop :=
  ∀ (s : State) (m : Master) (v : BitVec 32), s.dev.hostsRun = true → let b := busFirst s.dev
    Completes (.registerWrite m 0 v) s b ∧
    Does (.registerWrite m 0 v) s fun e => e.get SYS_IDENT_PART = b.get SYS_IDENT_PART ∧ e.get SYS_IDENT_REV_MAJOR = b.get SYS_IDENT_REV_MAJOR ∧
      e.get SYS_IDENT_REV_MINOR = b.get SYS_IDENT_REV_MINOR ∧ e.get SYS_IDENT_VARIANT = b.get SYS_IDENT_VARIANT
end

