-- ==== Sys2Proof/Laws/Store.lean ====
section
/-!
SUPPORT. Sys2Proof/Laws/Store.lean: the laws of canonical lists: what a read after a write finds, and that every operation keeps the
canonical form.
-/
namespace Sys2Proof.Machine

theorem bif_beq {β : Type} (a k : Nat) (x y : β) : (bif Nat.beq a k then x else y) = if a = k then x else y := by
  by_cases h : a = k
  · simp [h]
  · have : Nat.beq a k = false := by cases e : Nat.beq a k with
      | false => rfl
      | true => exact absurd (Nat.eq_of_beq_eq_true e) h
    simp [h, this]

theorem bif_blt {β : Type} (a k : Nat) (x y : β) : (bif Nat.blt a k then x else y) = if a < k then x else y := by
  by_cases h : a < k
  · simp [h, Nat.blt_eq.mpr h]
  · have : Nat.blt a k = false := by cases e : Nat.blt a k with
      | false => rfl
      | true => exact absurd (Nat.blt_eq.mp e) h
    simp [h, this]

theorem aget_cons {α : Type} (d : α) (k a : Nat) (v : α) (r : List (Nat × α)) : aget d k ((a, v) :: r) = if a = k then v else aget d k r :=
  bif_beq a k _ _

theorem aput_cons {α : Type} (k a : Nat) (v w : α) (r : List (Nat × α)) : aput k v ((a, w) :: r) =
    if k < a then (k, v) :: (a, w) :: r else if k = a then (k, v) :: r else (a, w) :: aput k v r := by
  rw [← bif_beq, ← bif_blt]; rfl

theorem adel_cons {α : Type} (k a : Nat) (w : α) (r : List (Nat × α)) : adel k ((a, w) :: r) =
    if a = k then adel k r else (a, w) :: adel k r := bif_beq a k _ _

theorem aget_aput_same {α : Type} (d : α) (k : Nat) (v : α) (l : List (Nat × α)) : aget d k (aput k v l) = v := by
  induction l with
  | nil => simp [aput, aget_cons]
  | cons e r ih =>
    obtain ⟨a, w⟩ := e
    simp only [aput_cons]
    split
    · simp [aget_cons]
    · split
      · simp [aget_cons]
      · rename_i h1 h2
        have h3 : a ≠ k := fun h => h2 h.symm
        simp [aget_cons, h3, ih]

theorem aget_aput_ne {α : Type} (d : α) (j k : Nat) (v : α) (l : List (Nat × α)) (h : j ≠ k) : aget d j (aput k v l) = aget d j l := by
  have hk : k ≠ j := fun e => h e.symm
  induction l with
  | nil => simp [aput, aget_cons, aget, hk]
  | cons e r ih =>
    obtain ⟨a, w⟩ := e
    simp only [aput_cons]
    split
    · simp [aget_cons, hk]
    · split
      · rename_i h2
        subst h2
        simp [aget_cons, hk]
      · simp only [aget_cons, ih]

theorem aget_adel_same {α : Type} (d : α) (k : Nat) (l : List (Nat × α)) : aget d k (adel k l) = d := by
  induction l with
  | nil => simp [adel, aget]
  | cons e r ih =>
    obtain ⟨a, w⟩ := e
    by_cases h : a = k <;> simp [adel_cons, aget_cons, h, ih]

theorem aget_adel_ne {α : Type} (d : α) (j k : Nat) (l : List (Nat × α)) (h : j ≠ k) : aget d j (adel k l) = aget d j l := by
  induction l with
  | nil => simp [adel]
  | cons e r ih =>
    obtain ⟨a, w⟩ := e
    simp only [adel_cons]
    split
    · rename_i h2
      subst h2
      have : a ≠ j := fun e => h e.symm
      simp [aget_cons, this, ih]
    · simp only [aget_cons, ih]

/-- A read finds what was written last. -/
@[simp] theorem aget_awrite_same {α : Type} [DecidableEq α] (d : α) (k : Nat) (v : α) (l : List (Nat × α)) :
    aget d k (awrite d k v l) = v := by
  unfold awrite
  split
  · rename_i h; rw [h]; exact aget_adel_same d k l
  · exact aget_aput_same d k v l

/-- A write leaves every other key alone, whatever the default of the reader is. -/
theorem aget_awrite_ne {α : Type} [DecidableEq α] (d r : α) (j k : Nat) (v : α) (l : List (Nat × α)) (h : j ≠ k) :
    aget r j (awrite d k v l) = aget r j l := by
  unfold awrite
  split
  · exact aget_adel_ne r j k l h
  · exact aget_aput_ne r j k v l h

/-! ### The canonical form -/

/-- Keys of `l` lie above `b`, rise strictly, and no value is `d`. -/
theorem canon_cons {α : Type} [DecidableEq α] (d : α) (a : Nat) (v : α) (l : List (Nat × α)) :
    Canon d ((a, v) :: l) = true ↔ v ≠ d ∧ (∀ e, l.head? = some e → a < e.1) ∧ Canon d l = true := by
  cases l with
  | nil => simp [Canon]
  | cons e r =>
    obtain ⟨b, w⟩ := e
    simp [Canon, and_assoc]

theorem canon_above {α : Type} [DecidableEq α] (d : α) (a : Nat) (v : α) (l : List (Nat × α)) (h : Canon d ((a, v) :: l) = true) :
    ∀ e, e ∈ l → a < e.1 := by
  induction l generalizing a v with
  | nil => simp
  | cons x r ih =>
    obtain ⟨b, w⟩ := x
    rw [canon_cons] at h
    obtain ⟨-, h2, h3⟩ := h
    have hab : a < b := h2 (b, w) rfl
    intro e he
    cases he with
    | head => exact hab
    | tail _ he => exact Nat.lt_trans hab (ih b w h3 e he)

theorem adel_head {α : Type} (k b : Nat) (l : List (Nat × α)) (h : ∀ e, e ∈ l → b < e.1) : ∀ e, e ∈ adel k l → b < e.1 := by
  induction l with
  | nil => simp [adel]
  | cons x r ih =>
    obtain ⟨a, w⟩ := x
    have hr : ∀ e, e ∈ r → b < e.1 := fun e he => h e (List.mem_cons_of_mem _ he)
    simp only [adel_cons]
    split
    · exact ih hr
    · intro e he
      cases he with
      | head => exact h (a, w) (List.mem_cons_self ..)
      | tail _ he => exact ih hr e he

theorem canon_adel {α : Type} [DecidableEq α] (d : α) (k : Nat) (l : List (Nat × α)) (h : Canon d l = true) : Canon d (adel k l) = true := by
  induction l with
  | nil => simp [adel, Canon]
  | cons x r ih =>
    obtain ⟨a, w⟩ := x
    have hc := (canon_cons d a w r).mp h
    have habove := canon_above d a w r h
    simp only [adel_cons]
    split
    · exact ih hc.2.2
    · rw [canon_cons]
      refine ⟨hc.1, fun e he => ?_, ih hc.2.2⟩
      exact adel_head k a r habove e (List.mem_of_mem_head? he)

theorem aput_head {α : Type} (k b : Nat) (v : α) (l : List (Nat × α)) (hk : b < k) (h : ∀ e, e ∈ l → b < e.1) :
    ∀ e, e ∈ aput k v l → b < e.1 := by
  induction l with
  | nil => intro e he; simp [aput] at he; rw [he]; exact hk
  | cons x r ih =>
    obtain ⟨a, w⟩ := x
    have hr : ∀ e, e ∈ r → b < e.1 := fun e he => h e (List.mem_cons_of_mem _ he)
    simp only [aput_cons]
    split
    · intro e he
      cases he with
      | head => exact hk
      | tail _ he => exact h e he
    · split
      · intro e he
        cases he with
        | head => exact hk
        | tail _ he => exact hr e he
      · intro e he
        cases he with
        | head => exact h (a, w) (List.mem_cons_self ..)
        | tail _ he => exact ih hr e he

theorem canon_aput {α : Type} [DecidableEq α] (d : α) (k : Nat) (v : α) (l : List (Nat × α)) (hv : v ≠ d) (h : Canon d l = true) :
    Canon d (aput k v l) = true := by
  induction l with
  | nil => simp [aput, Canon, hv]
  | cons x r ih =>
    obtain ⟨a, w⟩ := x
    have hc := (canon_cons d a w r).mp h
    have habove := canon_above d a w r h
    simp only [aput_cons]
    split
    · rename_i hka
      rw [canon_cons]
      exact ⟨hv, fun e he => by simp at he; rw [← he]; exact hka, h⟩
    · split
      · rename_i hka
        subst hka
        rw [canon_cons]
        exact ⟨hv, hc.2.1, hc.2.2⟩
      · rename_i h1 h2
        have hak : a < k := by omega
        rw [canon_cons]
        exact ⟨hc.1, fun e he => aput_head k a v r hak habove e (List.mem_of_mem_head? he), ih hc.2.2⟩

/-- A write keeps the canonical form. -/
theorem canon_awrite {α : Type} [DecidableEq α] (d : α) (k : Nat) (v : α) (l : List (Nat × α)) (h : Canon d l = true) :
    Canon d (awrite d k v l) = true := by
  unfold awrite
  split
  · exact canon_adel d k l h
  · rename_i hv; exact canon_aput d k v l hv h

/-- Dropping entries keeps the canonical form. -/
theorem canon_filter {α : Type} [DecidableEq α] (d : α) (p : Nat × α → Bool) (l : List (Nat × α)) (h : Canon d l = true) :
    Canon d (l.filter p) = true := by
  induction l with
  | nil => simp [Canon]
  | cons x r ih =>
    obtain ⟨a, w⟩ := x
    have hc := (canon_cons d a w r).mp h
    have habove := canon_above d a w r h
    by_cases hp : p (a, w) = true
    · rw [List.filter_cons_of_pos hp, canon_cons]
      refine ⟨hc.1, fun e he => ?_, ih hc.2.2⟩
      exact habove e (List.mem_filter.mp (List.mem_of_mem_head? he)).1
    · rw [List.filter_cons_of_neg hp]; exact ih hc.2.2

end Sys2Proof.Machine
end

