-- ==== Sys2Proof/Laws/State.lean ====
section
/-!
SUPPORT. Sys2Proof/Laws/State.lean: what each update of the device changes: one lemma for each field and update, and the reads of register
fields and unit tables after an update.
-/
namespace Sys2Proof.Machine

/-! ### `Dev.set` -/

@[simp] theorem Dev.set_cyc (d : Dev) (f : Field) (v : Nat) : (d.set f v).cyc = d.cyc := rfl
@[simp] theorem Dev.set_latch (d : Dev) (f : Field) (v : Nat) : (d.set f v).latch = d.latch := rfl
@[simp] theorem Dev.set_readOut (d : Dev) (f : Field) (v : Nat) : (d.set f v).readOut = d.readOut := rfl
@[simp] theorem Dev.set_clock (d : Dev) (f : Field) (v : Nat) : (d.set f v).clock = d.clock := rfl
@[simp] theorem Dev.set_fab (d : Dev) (f : Field) (v : Nat) : (d.set f v).fab = d.fab := rfl
@[simp] theorem Dev.set_mem (d : Dev) (f : Field) (v : Nat) : (d.set f v).mem = d.mem := rfl
@[simp] theorem Dev.set_tb (d : Dev) (f : Field) (v : Nat) : (d.set f v).tb = d.tb := rfl
@[simp] theorem Dev.set_trk (d : Dev) (f : Field) (v : Nat) : (d.set f v).trk = d.trk := rfl
@[simp] theorem Dev.set_cnt (d : Dev) (f : Field) (v : Nat) : (d.set f v).cnt = d.cnt := rfl
@[simp] theorem Dev.set_cox (d : Dev) (f : Field) (v : Nat) : (d.set f v).cox = d.cox := rfl
@[simp] theorem Dev.set_ch (d : Dev) (f : Field) (v : Nat) : (d.set f v).ch = d.ch := rfl
@[simp] theorem Dev.set_syn (d : Dev) (f : Field) (v : Nat) : (d.set f v).syn = d.syn := rfl
@[simp] theorem Dev.set_gate (d : Dev) (f : Field) (v : Nat) : (d.set f v).gate = d.gate := rfl
@[simp] theorem Dev.set_ce (d : Dev) (f : Field) (v : Nat) : (d.set f v).ce = d.ce := rfl
@[simp] theorem Dev.set_pe (d : Dev) (f : Field) (v : Nat) : (d.set f v).pe = d.pe := rfl
@[simp] theorem Dev.set_peBall (d : Dev) (f : Field) (v : Nat) : (d.set f v).peBall = d.peBall := rfl
@[simp] theorem Dev.set_gflagBy (d : Dev) (f : Field) (v : Nat) : (d.set f v).gflagBy = d.gflagBy := rfl
@[simp] theorem Dev.set_sync (d : Dev) (f : Field) (v : Nat) : (d.set f v).sync = d.sync := rfl
@[simp] theorem Dev.set_tap (d : Dev) (f : Field) (v : Nat) : (d.set f v).tap = d.tap := rfl
@[simp] theorem Dev.set_rig (d : Dev) (f : Field) (v : Nat) : (d.set f v).rig = d.rig := rfl
@[simp] theorem Dev.set_txn (d : Dev) (f : Field) (v : Nat) : (d.set f v).txn = d.txn := rfl
@[simp] theorem Dev.set_crew (d : Dev) (f : Field) (v : Nat) : (d.set f v).crew = d.crew := rfl
@[simp] theorem Dev.set_eth (d : Dev) (f : Field) (v : Nat) : (d.set f v).eth = d.eth := rfl
@[simp] theorem Dev.set_ethSent (d : Dev) (f : Field) (v : Nat) : (d.set f v).ethSent = d.ethSent := rfl
@[simp] theorem Dev.set_ethFwd (d : Dev) (f : Field) (v : Nat) : (d.set f v).ethFwd = d.ethFwd := rfl
@[simp] theorem Dev.set_irq (d : Dev) (f : Field) (v : Nat) : (d.set f v).irq = d.irq := rfl
@[simp] theorem Dev.set_keel (d : Dev) (f : Field) (v : Nat) : (d.set f v).keel = d.keel := rfl
@[simp] theorem Dev.set_log (d : Dev) (f : Field) (v : Nat) : (d.set f v).log = d.log := rfl
@[simp] theorem Dev.set_pwr (d : Dev) (f : Field) (v : Nat) : (d.set f v).pwr = d.pwr := rfl
@[simp] theorem Dev.set_host (d : Dev) (f : Field) (v : Nat) : (d.set f v).host = d.host := rfl
@[simp] theorem Dev.set_fused (d : Dev) (f : Field) (v : Nat) : (d.set f v).fused = d.fused := rfl
@[simp] theorem Dev.set_trust (d : Dev) (f : Field) (v : Nat) : (d.set f v).trust = d.trust := rfl
@[simp] theorem Dev.set_mon (d : Dev) (f : Field) (v : Nat) : (d.set f v).mon = d.mon := rfl
@[simp] theorem Dev.set_bist (d : Dev) (f : Field) (v : Nat) : (d.set f v).bist = d.bist := rfl
@[simp] theorem Dev.set_dma (d : Dev) (f : Field) (v : Nat) : (d.set f v).dma = d.dma := rfl
@[simp] theorem Dev.set_chk (d : Dev) (f : Field) (v : Nat) : (d.set f v).chk = d.chk := rfl
@[simp] theorem Dev.set_memc (d : Dev) (f : Field) (v : Nat) : (d.set f v).memc = d.memc := rfl
@[simp] theorem Dev.set_fresh (d : Dev) (f : Field) (v : Nat) : (d.set f v).fresh = d.fresh := rfl
@[simp] theorem Dev.trkAt_set (d : Dev) (f : Field) (v : Nat) (k : Nat) : (d.set f v).trkAt k = d.trkAt k := rfl
@[simp] theorem Dev.cntAt_set (d : Dev) (f : Field) (v : Nat) (k : Nat) : (d.set f v).cntAt k = d.cntAt k := rfl
@[simp] theorem Dev.listAt_set (d : Dev) (f : Field) (v : Nat) (k : Nat) : (d.set f v).listAt k = d.listAt k := rfl
@[simp] theorem Dev.chAt_set (d : Dev) (f : Field) (v : Nat) (k : Nat) : (d.set f v).chAt k = d.chAt k := rfl
@[simp] theorem Dev.synAt_set (d : Dev) (f : Field) (v : Nat) (k : Nat) : (d.set f v).synAt k = d.synAt k := rfl
@[simp] theorem Dev.gateAt_set (d : Dev) (f : Field) (v : Nat) (k : Nat) : (d.set f v).gateAt k = d.gateAt k := rfl
@[simp] theorem Dev.oscAt_set (d : Dev) (f : Field) (v : Nat) (k : Nat) : (d.set f v).oscAt k = d.oscAt k := rfl
@[simp] theorem Dev.ceAt_set (d : Dev) (f : Field) (v : Nat) (k : Nat) : (d.set f v).ceAt k = d.ceAt k := rfl
@[simp] theorem Dev.peAt_set (d : Dev) (f : Field) (v : Nat) (k : Nat) : (d.set f v).peAt k = d.peAt k := rfl
@[simp] theorem Dev.dmaAt_set (d : Dev) (f : Field) (v : Nat) (k : Nat) : (d.set f v).dmaAt k = d.dmaAt k := rfl
@[simp] theorem Dev.ethAt_set (d : Dev) (f : Field) (v : Nat) (k : Nat) : (d.set f v).ethAt k = d.ethAt k := rfl
@[simp] theorem Dev.cport_set (d : Dev) (f : Field) (v : Nat) (k : Nat) : (d.set f v).cport k = d.cport k := rfl
@[simp] theorem Dev.ctxAt_set (d : Dev) (f : Field) (v : Nat) (k : Nat) : (d.set f v).ctxAt k = d.ctxAt k := rfl

/-! ### `Dev.ret` -/

@[simp] theorem Dev.ret_regs (d : Dev) (m : Master) (v : Nat) : (d.ret m v).regs = d.regs := rfl
@[simp] theorem Dev.ret_cyc (d : Dev) (m : Master) (v : Nat) : (d.ret m v).cyc = d.cyc := rfl
@[simp] theorem Dev.ret_latch (d : Dev) (m : Master) (v : Nat) : (d.ret m v).latch = d.latch := rfl
@[simp] theorem Dev.ret_clock (d : Dev) (m : Master) (v : Nat) : (d.ret m v).clock = d.clock := rfl
@[simp] theorem Dev.ret_fab (d : Dev) (m : Master) (v : Nat) : (d.ret m v).fab = d.fab := rfl
@[simp] theorem Dev.ret_mem (d : Dev) (m : Master) (v : Nat) : (d.ret m v).mem = d.mem := rfl
@[simp] theorem Dev.ret_tb (d : Dev) (m : Master) (v : Nat) : (d.ret m v).tb = d.tb := rfl
@[simp] theorem Dev.ret_trk (d : Dev) (m : Master) (v : Nat) : (d.ret m v).trk = d.trk := rfl
@[simp] theorem Dev.ret_cnt (d : Dev) (m : Master) (v : Nat) : (d.ret m v).cnt = d.cnt := rfl
@[simp] theorem Dev.ret_cox (d : Dev) (m : Master) (v : Nat) : (d.ret m v).cox = d.cox := rfl
@[simp] theorem Dev.ret_ch (d : Dev) (m : Master) (v : Nat) : (d.ret m v).ch = d.ch := rfl
@[simp] theorem Dev.ret_syn (d : Dev) (m : Master) (v : Nat) : (d.ret m v).syn = d.syn := rfl
@[simp] theorem Dev.ret_gate (d : Dev) (m : Master) (v : Nat) : (d.ret m v).gate = d.gate := rfl
@[simp] theorem Dev.ret_ce (d : Dev) (m : Master) (v : Nat) : (d.ret m v).ce = d.ce := rfl
@[simp] theorem Dev.ret_pe (d : Dev) (m : Master) (v : Nat) : (d.ret m v).pe = d.pe := rfl
@[simp] theorem Dev.ret_peBall (d : Dev) (m : Master) (v : Nat) : (d.ret m v).peBall = d.peBall := rfl
@[simp] theorem Dev.ret_gflagBy (d : Dev) (m : Master) (v : Nat) : (d.ret m v).gflagBy = d.gflagBy := rfl
@[simp] theorem Dev.ret_sync (d : Dev) (m : Master) (v : Nat) : (d.ret m v).sync = d.sync := rfl
@[simp] theorem Dev.ret_tap (d : Dev) (m : Master) (v : Nat) : (d.ret m v).tap = d.tap := rfl
@[simp] theorem Dev.ret_rig (d : Dev) (m : Master) (v : Nat) : (d.ret m v).rig = d.rig := rfl
@[simp] theorem Dev.ret_txn (d : Dev) (m : Master) (v : Nat) : (d.ret m v).txn = d.txn := rfl
@[simp] theorem Dev.ret_crew (d : Dev) (m : Master) (v : Nat) : (d.ret m v).crew = d.crew := rfl
@[simp] theorem Dev.ret_eth (d : Dev) (m : Master) (v : Nat) : (d.ret m v).eth = d.eth := rfl
@[simp] theorem Dev.ret_ethSent (d : Dev) (m : Master) (v : Nat) : (d.ret m v).ethSent = d.ethSent := rfl
@[simp] theorem Dev.ret_ethFwd (d : Dev) (m : Master) (v : Nat) : (d.ret m v).ethFwd = d.ethFwd := rfl
@[simp] theorem Dev.ret_irq (d : Dev) (m : Master) (v : Nat) : (d.ret m v).irq = d.irq := rfl
@[simp] theorem Dev.ret_keel (d : Dev) (m : Master) (v : Nat) : (d.ret m v).keel = d.keel := rfl
@[simp] theorem Dev.ret_log (d : Dev) (m : Master) (v : Nat) : (d.ret m v).log = d.log := rfl
@[simp] theorem Dev.ret_pwr (d : Dev) (m : Master) (v : Nat) : (d.ret m v).pwr = d.pwr := rfl
@[simp] theorem Dev.ret_host (d : Dev) (m : Master) (v : Nat) : (d.ret m v).host = d.host := rfl
@[simp] theorem Dev.ret_fused (d : Dev) (m : Master) (v : Nat) : (d.ret m v).fused = d.fused := rfl
@[simp] theorem Dev.ret_trust (d : Dev) (m : Master) (v : Nat) : (d.ret m v).trust = d.trust := rfl
@[simp] theorem Dev.ret_mon (d : Dev) (m : Master) (v : Nat) : (d.ret m v).mon = d.mon := rfl
@[simp] theorem Dev.ret_bist (d : Dev) (m : Master) (v : Nat) : (d.ret m v).bist = d.bist := rfl
@[simp] theorem Dev.ret_dma (d : Dev) (m : Master) (v : Nat) : (d.ret m v).dma = d.dma := rfl
@[simp] theorem Dev.ret_chk (d : Dev) (m : Master) (v : Nat) : (d.ret m v).chk = d.chk := rfl
@[simp] theorem Dev.ret_memc (d : Dev) (m : Master) (v : Nat) : (d.ret m v).memc = d.memc := rfl
@[simp] theorem Dev.ret_fresh (d : Dev) (m : Master) (v : Nat) : (d.ret m v).fresh = d.fresh := rfl
@[simp] theorem Dev.get_ret (d : Dev) (m : Master) (v : Nat) (g : Field) : (d.ret m v).get g = d.get g := rfl
@[simp] theorem Dev.trkAt_ret (d : Dev) (m : Master) (v : Nat) (k : Nat) : (d.ret m v).trkAt k = d.trkAt k := rfl
@[simp] theorem Dev.cntAt_ret (d : Dev) (m : Master) (v : Nat) (k : Nat) : (d.ret m v).cntAt k = d.cntAt k := rfl
@[simp] theorem Dev.listAt_ret (d : Dev) (m : Master) (v : Nat) (k : Nat) : (d.ret m v).listAt k = d.listAt k := rfl
@[simp] theorem Dev.chAt_ret (d : Dev) (m : Master) (v : Nat) (k : Nat) : (d.ret m v).chAt k = d.chAt k := rfl
@[simp] theorem Dev.synAt_ret (d : Dev) (m : Master) (v : Nat) (k : Nat) : (d.ret m v).synAt k = d.synAt k := rfl
@[simp] theorem Dev.gateAt_ret (d : Dev) (m : Master) (v : Nat) (k : Nat) : (d.ret m v).gateAt k = d.gateAt k := rfl
@[simp] theorem Dev.oscAt_ret (d : Dev) (m : Master) (v : Nat) (k : Nat) : (d.ret m v).oscAt k = d.oscAt k := rfl
@[simp] theorem Dev.ceAt_ret (d : Dev) (m : Master) (v : Nat) (k : Nat) : (d.ret m v).ceAt k = d.ceAt k := rfl
@[simp] theorem Dev.peAt_ret (d : Dev) (m : Master) (v : Nat) (k : Nat) : (d.ret m v).peAt k = d.peAt k := rfl
@[simp] theorem Dev.dmaAt_ret (d : Dev) (m : Master) (v : Nat) (k : Nat) : (d.ret m v).dmaAt k = d.dmaAt k := rfl
@[simp] theorem Dev.ethAt_ret (d : Dev) (m : Master) (v : Nat) (k : Nat) : (d.ret m v).ethAt k = d.ethAt k := rfl
@[simp] theorem Dev.cport_ret (d : Dev) (m : Master) (v : Nat) (k : Nat) : (d.ret m v).cport k = d.cport k := rfl
@[simp] theorem Dev.ctxAt_ret (d : Dev) (m : Master) (v : Nat) (k : Nat) : (d.ret m v).ctxAt k = d.ctxAt k := rfl

/-! ### `Dev.latchTo` -/

@[simp] theorem Dev.latchTo_regs (d : Dev) (m : Master) (a v : Nat) : (d.latchTo m a v).regs = d.regs := rfl
@[simp] theorem Dev.latchTo_cyc (d : Dev) (m : Master) (a v : Nat) : (d.latchTo m a v).cyc = d.cyc := rfl
@[simp] theorem Dev.latchTo_readOut (d : Dev) (m : Master) (a v : Nat) : (d.latchTo m a v).readOut = d.readOut := rfl
@[simp] theorem Dev.latchTo_clock (d : Dev) (m : Master) (a v : Nat) : (d.latchTo m a v).clock = d.clock := rfl
@[simp] theorem Dev.latchTo_fab (d : Dev) (m : Master) (a v : Nat) : (d.latchTo m a v).fab = d.fab := rfl
@[simp] theorem Dev.latchTo_mem (d : Dev) (m : Master) (a v : Nat) : (d.latchTo m a v).mem = d.mem := rfl
@[simp] theorem Dev.latchTo_tb (d : Dev) (m : Master) (a v : Nat) : (d.latchTo m a v).tb = d.tb := rfl
@[simp] theorem Dev.latchTo_trk (d : Dev) (m : Master) (a v : Nat) : (d.latchTo m a v).trk = d.trk := rfl
@[simp] theorem Dev.latchTo_cnt (d : Dev) (m : Master) (a v : Nat) : (d.latchTo m a v).cnt = d.cnt := rfl
@[simp] theorem Dev.latchTo_cox (d : Dev) (m : Master) (a v : Nat) : (d.latchTo m a v).cox = d.cox := rfl
@[simp] theorem Dev.latchTo_ch (d : Dev) (m : Master) (a v : Nat) : (d.latchTo m a v).ch = d.ch := rfl
@[simp] theorem Dev.latchTo_syn (d : Dev) (m : Master) (a v : Nat) : (d.latchTo m a v).syn = d.syn := rfl
@[simp] theorem Dev.latchTo_gate (d : Dev) (m : Master) (a v : Nat) : (d.latchTo m a v).gate = d.gate := rfl
@[simp] theorem Dev.latchTo_ce (d : Dev) (m : Master) (a v : Nat) : (d.latchTo m a v).ce = d.ce := rfl
@[simp] theorem Dev.latchTo_pe (d : Dev) (m : Master) (a v : Nat) : (d.latchTo m a v).pe = d.pe := rfl
@[simp] theorem Dev.latchTo_peBall (d : Dev) (m : Master) (a v : Nat) : (d.latchTo m a v).peBall = d.peBall := rfl
@[simp] theorem Dev.latchTo_gflagBy (d : Dev) (m : Master) (a v : Nat) : (d.latchTo m a v).gflagBy = d.gflagBy := rfl
@[simp] theorem Dev.latchTo_sync (d : Dev) (m : Master) (a v : Nat) : (d.latchTo m a v).sync = d.sync := rfl
@[simp] theorem Dev.latchTo_tap (d : Dev) (m : Master) (a v : Nat) : (d.latchTo m a v).tap = d.tap := rfl
@[simp] theorem Dev.latchTo_rig (d : Dev) (m : Master) (a v : Nat) : (d.latchTo m a v).rig = d.rig := rfl
@[simp] theorem Dev.latchTo_txn (d : Dev) (m : Master) (a v : Nat) : (d.latchTo m a v).txn = d.txn := rfl
@[simp] theorem Dev.latchTo_crew (d : Dev) (m : Master) (a v : Nat) : (d.latchTo m a v).crew = d.crew := rfl
@[simp] theorem Dev.latchTo_eth (d : Dev) (m : Master) (a v : Nat) : (d.latchTo m a v).eth = d.eth := rfl
@[simp] theorem Dev.latchTo_ethSent (d : Dev) (m : Master) (a v : Nat) : (d.latchTo m a v).ethSent = d.ethSent := rfl
@[simp] theorem Dev.latchTo_ethFwd (d : Dev) (m : Master) (a v : Nat) : (d.latchTo m a v).ethFwd = d.ethFwd := rfl
@[simp] theorem Dev.latchTo_irq (d : Dev) (m : Master) (a v : Nat) : (d.latchTo m a v).irq = d.irq := rfl
@[simp] theorem Dev.latchTo_keel (d : Dev) (m : Master) (a v : Nat) : (d.latchTo m a v).keel = d.keel := rfl
@[simp] theorem Dev.latchTo_log (d : Dev) (m : Master) (a v : Nat) : (d.latchTo m a v).log = d.log := rfl
@[simp] theorem Dev.latchTo_pwr (d : Dev) (m : Master) (a v : Nat) : (d.latchTo m a v).pwr = d.pwr := rfl
@[simp] theorem Dev.latchTo_host (d : Dev) (m : Master) (a v : Nat) : (d.latchTo m a v).host = d.host := rfl
@[simp] theorem Dev.latchTo_fused (d : Dev) (m : Master) (a v : Nat) : (d.latchTo m a v).fused = d.fused := rfl
@[simp] theorem Dev.latchTo_trust (d : Dev) (m : Master) (a v : Nat) : (d.latchTo m a v).trust = d.trust := rfl
@[simp] theorem Dev.latchTo_mon (d : Dev) (m : Master) (a v : Nat) : (d.latchTo m a v).mon = d.mon := rfl
@[simp] theorem Dev.latchTo_bist (d : Dev) (m : Master) (a v : Nat) : (d.latchTo m a v).bist = d.bist := rfl
@[simp] theorem Dev.latchTo_dma (d : Dev) (m : Master) (a v : Nat) : (d.latchTo m a v).dma = d.dma := rfl
@[simp] theorem Dev.latchTo_chk (d : Dev) (m : Master) (a v : Nat) : (d.latchTo m a v).chk = d.chk := rfl
@[simp] theorem Dev.latchTo_memc (d : Dev) (m : Master) (a v : Nat) : (d.latchTo m a v).memc = d.memc := rfl
@[simp] theorem Dev.latchTo_fresh (d : Dev) (m : Master) (a v : Nat) : (d.latchTo m a v).fresh = d.fresh := rfl
@[simp] theorem Dev.get_latchTo (d : Dev) (m : Master) (a v : Nat) (g : Field) : (d.latchTo m a v).get g = d.get g := rfl
@[simp] theorem Dev.trkAt_latchTo (d : Dev) (m : Master) (a v : Nat) (k : Nat) : (d.latchTo m a v).trkAt k = d.trkAt k := rfl
@[simp] theorem Dev.cntAt_latchTo (d : Dev) (m : Master) (a v : Nat) (k : Nat) : (d.latchTo m a v).cntAt k = d.cntAt k := rfl
@[simp] theorem Dev.listAt_latchTo (d : Dev) (m : Master) (a v : Nat) (k : Nat) : (d.latchTo m a v).listAt k = d.listAt k := rfl
@[simp] theorem Dev.chAt_latchTo (d : Dev) (m : Master) (a v : Nat) (k : Nat) : (d.latchTo m a v).chAt k = d.chAt k := rfl
@[simp] theorem Dev.synAt_latchTo (d : Dev) (m : Master) (a v : Nat) (k : Nat) : (d.latchTo m a v).synAt k = d.synAt k := rfl
@[simp] theorem Dev.gateAt_latchTo (d : Dev) (m : Master) (a v : Nat) (k : Nat) : (d.latchTo m a v).gateAt k = d.gateAt k := rfl
@[simp] theorem Dev.oscAt_latchTo (d : Dev) (m : Master) (a v : Nat) (k : Nat) : (d.latchTo m a v).oscAt k = d.oscAt k := rfl
@[simp] theorem Dev.ceAt_latchTo (d : Dev) (m : Master) (a v : Nat) (k : Nat) : (d.latchTo m a v).ceAt k = d.ceAt k := rfl
@[simp] theorem Dev.peAt_latchTo (d : Dev) (m : Master) (a v : Nat) (k : Nat) : (d.latchTo m a v).peAt k = d.peAt k := rfl
@[simp] theorem Dev.dmaAt_latchTo (d : Dev) (m : Master) (a v : Nat) (k : Nat) : (d.latchTo m a v).dmaAt k = d.dmaAt k := rfl
@[simp] theorem Dev.ethAt_latchTo (d : Dev) (m : Master) (a v : Nat) (k : Nat) : (d.latchTo m a v).ethAt k = d.ethAt k := rfl
@[simp] theorem Dev.cport_latchTo (d : Dev) (m : Master) (a v : Nat) (k : Nat) : (d.latchTo m a v).cport k = d.cport k := rfl
@[simp] theorem Dev.ctxAt_latchTo (d : Dev) (m : Master) (a v : Nat) (k : Nat) : (d.latchTo m a v).ctxAt k = d.ctxAt k := rfl

/-! ### `Dev.tick1` -/

@[simp] theorem Dev.tick1_regs (d : Dev)  : (d.tick1).regs = d.regs := rfl
@[simp] theorem Dev.tick1_cyc (d : Dev)  : (d.tick1).cyc = d.cyc := rfl
@[simp] theorem Dev.tick1_latch (d : Dev)  : (d.tick1).latch = d.latch := rfl
@[simp] theorem Dev.tick1_readOut (d : Dev)  : (d.tick1).readOut = d.readOut := rfl
@[simp] theorem Dev.tick1_clock (d : Dev)  : (d.tick1).clock = d.clock := rfl
@[simp] theorem Dev.tick1_fab (d : Dev)  : (d.tick1).fab = d.fab := rfl
@[simp] theorem Dev.tick1_mem (d : Dev)  : (d.tick1).mem = d.mem := rfl
@[simp] theorem Dev.tick1_tb (d : Dev)  : (d.tick1).tb = d.tb := rfl
@[simp] theorem Dev.tick1_trk (d : Dev)  : (d.tick1).trk = d.trk := rfl
@[simp] theorem Dev.tick1_cnt (d : Dev)  : (d.tick1).cnt = d.cnt := rfl
@[simp] theorem Dev.tick1_cox (d : Dev)  : (d.tick1).cox = d.cox := rfl
@[simp] theorem Dev.tick1_ch (d : Dev)  : (d.tick1).ch = d.ch := rfl
@[simp] theorem Dev.tick1_syn (d : Dev)  : (d.tick1).syn = d.syn := rfl
@[simp] theorem Dev.tick1_gate (d : Dev)  : (d.tick1).gate = d.gate := rfl
@[simp] theorem Dev.tick1_ce (d : Dev)  : (d.tick1).ce = d.ce := rfl
@[simp] theorem Dev.tick1_pe (d : Dev)  : (d.tick1).pe = d.pe := rfl
@[simp] theorem Dev.tick1_peBall (d : Dev)  : (d.tick1).peBall = d.peBall := rfl
@[simp] theorem Dev.tick1_gflagBy (d : Dev)  : (d.tick1).gflagBy = d.gflagBy := rfl
@[simp] theorem Dev.tick1_sync (d : Dev)  : (d.tick1).sync = d.sync := rfl
@[simp] theorem Dev.tick1_tap (d : Dev)  : (d.tick1).tap = d.tap := rfl
@[simp] theorem Dev.tick1_rig (d : Dev)  : (d.tick1).rig = d.rig := rfl
@[simp] theorem Dev.tick1_txn (d : Dev)  : (d.tick1).txn = d.txn := rfl
@[simp] theorem Dev.tick1_crew (d : Dev)  : (d.tick1).crew = d.crew := rfl
@[simp] theorem Dev.tick1_eth (d : Dev)  : (d.tick1).eth = d.eth := rfl
@[simp] theorem Dev.tick1_ethSent (d : Dev)  : (d.tick1).ethSent = d.ethSent := rfl
@[simp] theorem Dev.tick1_ethFwd (d : Dev)  : (d.tick1).ethFwd = d.ethFwd := rfl
@[simp] theorem Dev.tick1_irq (d : Dev)  : (d.tick1).irq = d.irq := rfl
@[simp] theorem Dev.tick1_keel (d : Dev)  : (d.tick1).keel = d.keel := rfl
@[simp] theorem Dev.tick1_log (d : Dev)  : (d.tick1).log = d.log := rfl
@[simp] theorem Dev.tick1_pwr (d : Dev)  : (d.tick1).pwr = d.pwr := rfl
@[simp] theorem Dev.tick1_host (d : Dev)  : (d.tick1).host = d.host := rfl
@[simp] theorem Dev.tick1_fused (d : Dev)  : (d.tick1).fused = d.fused := rfl
@[simp] theorem Dev.tick1_trust (d : Dev)  : (d.tick1).trust = d.trust := rfl
@[simp] theorem Dev.tick1_mon (d : Dev)  : (d.tick1).mon = d.mon := rfl
@[simp] theorem Dev.tick1_bist (d : Dev)  : (d.tick1).bist = d.bist := rfl
@[simp] theorem Dev.tick1_dma (d : Dev)  : (d.tick1).dma = d.dma := rfl
@[simp] theorem Dev.tick1_chk (d : Dev)  : (d.tick1).chk = d.chk := rfl
@[simp] theorem Dev.tick1_memc (d : Dev)  : (d.tick1).memc = d.memc := rfl
@[simp] theorem Dev.get_tick1 (d : Dev)  (g : Field) : (d.tick1).get g = d.get g := rfl
@[simp] theorem Dev.trkAt_tick1 (d : Dev)  (k : Nat) : (d.tick1).trkAt k = d.trkAt k := rfl
@[simp] theorem Dev.cntAt_tick1 (d : Dev)  (k : Nat) : (d.tick1).cntAt k = d.cntAt k := rfl
@[simp] theorem Dev.listAt_tick1 (d : Dev)  (k : Nat) : (d.tick1).listAt k = d.listAt k := rfl
@[simp] theorem Dev.chAt_tick1 (d : Dev)  (k : Nat) : (d.tick1).chAt k = d.chAt k := rfl
@[simp] theorem Dev.synAt_tick1 (d : Dev)  (k : Nat) : (d.tick1).synAt k = d.synAt k := rfl
@[simp] theorem Dev.gateAt_tick1 (d : Dev)  (k : Nat) : (d.tick1).gateAt k = d.gateAt k := rfl
@[simp] theorem Dev.oscAt_tick1 (d : Dev)  (k : Nat) : (d.tick1).oscAt k = d.oscAt k := rfl
@[simp] theorem Dev.ceAt_tick1 (d : Dev)  (k : Nat) : (d.tick1).ceAt k = d.ceAt k := rfl
@[simp] theorem Dev.peAt_tick1 (d : Dev)  (k : Nat) : (d.tick1).peAt k = d.peAt k := rfl
@[simp] theorem Dev.dmaAt_tick1 (d : Dev)  (k : Nat) : (d.tick1).dmaAt k = d.dmaAt k := rfl
@[simp] theorem Dev.ethAt_tick1 (d : Dev)  (k : Nat) : (d.tick1).ethAt k = d.ethAt k := rfl
@[simp] theorem Dev.cport_tick1 (d : Dev)  (k : Nat) : (d.tick1).cport k = d.cport k := rfl
@[simp] theorem Dev.ctxAt_tick1 (d : Dev)  (k : Nat) : (d.tick1).ctxAt k = d.ctxAt k := rfl

/-! ### `Dev.putTrk` -/

@[simp] theorem Dev.putTrk_regs (d : Dev) (n : Nat) (x : Trk) : (d.putTrk n x).regs = d.regs := rfl
@[simp] theorem Dev.putTrk_cyc (d : Dev) (n : Nat) (x : Trk) : (d.putTrk n x).cyc = d.cyc := rfl
@[simp] theorem Dev.putTrk_latch (d : Dev) (n : Nat) (x : Trk) : (d.putTrk n x).latch = d.latch := rfl
@[simp] theorem Dev.putTrk_readOut (d : Dev) (n : Nat) (x : Trk) : (d.putTrk n x).readOut = d.readOut := rfl
@[simp] theorem Dev.putTrk_clock (d : Dev) (n : Nat) (x : Trk) : (d.putTrk n x).clock = d.clock := rfl
@[simp] theorem Dev.putTrk_fab (d : Dev) (n : Nat) (x : Trk) : (d.putTrk n x).fab = d.fab := rfl
@[simp] theorem Dev.putTrk_mem (d : Dev) (n : Nat) (x : Trk) : (d.putTrk n x).mem = d.mem := rfl
@[simp] theorem Dev.putTrk_tb (d : Dev) (n : Nat) (x : Trk) : (d.putTrk n x).tb = d.tb := rfl
@[simp] theorem Dev.putTrk_cnt (d : Dev) (n : Nat) (x : Trk) : (d.putTrk n x).cnt = d.cnt := rfl
@[simp] theorem Dev.putTrk_cox (d : Dev) (n : Nat) (x : Trk) : (d.putTrk n x).cox = d.cox := rfl
@[simp] theorem Dev.putTrk_ch (d : Dev) (n : Nat) (x : Trk) : (d.putTrk n x).ch = d.ch := rfl
@[simp] theorem Dev.putTrk_syn (d : Dev) (n : Nat) (x : Trk) : (d.putTrk n x).syn = d.syn := rfl
@[simp] theorem Dev.putTrk_gate (d : Dev) (n : Nat) (x : Trk) : (d.putTrk n x).gate = d.gate := rfl
@[simp] theorem Dev.putTrk_ce (d : Dev) (n : Nat) (x : Trk) : (d.putTrk n x).ce = d.ce := rfl
@[simp] theorem Dev.putTrk_pe (d : Dev) (n : Nat) (x : Trk) : (d.putTrk n x).pe = d.pe := rfl
@[simp] theorem Dev.putTrk_peBall (d : Dev) (n : Nat) (x : Trk) : (d.putTrk n x).peBall = d.peBall := rfl
@[simp] theorem Dev.putTrk_gflagBy (d : Dev) (n : Nat) (x : Trk) : (d.putTrk n x).gflagBy = d.gflagBy := rfl
@[simp] theorem Dev.putTrk_sync (d : Dev) (n : Nat) (x : Trk) : (d.putTrk n x).sync = d.sync := rfl
@[simp] theorem Dev.putTrk_tap (d : Dev) (n : Nat) (x : Trk) : (d.putTrk n x).tap = d.tap := rfl
@[simp] theorem Dev.putTrk_rig (d : Dev) (n : Nat) (x : Trk) : (d.putTrk n x).rig = d.rig := rfl
@[simp] theorem Dev.putTrk_txn (d : Dev) (n : Nat) (x : Trk) : (d.putTrk n x).txn = d.txn := rfl
@[simp] theorem Dev.putTrk_crew (d : Dev) (n : Nat) (x : Trk) : (d.putTrk n x).crew = d.crew := rfl
@[simp] theorem Dev.putTrk_eth (d : Dev) (n : Nat) (x : Trk) : (d.putTrk n x).eth = d.eth := rfl
@[simp] theorem Dev.putTrk_ethSent (d : Dev) (n : Nat) (x : Trk) : (d.putTrk n x).ethSent = d.ethSent := rfl
@[simp] theorem Dev.putTrk_ethFwd (d : Dev) (n : Nat) (x : Trk) : (d.putTrk n x).ethFwd = d.ethFwd := rfl
@[simp] theorem Dev.putTrk_irq (d : Dev) (n : Nat) (x : Trk) : (d.putTrk n x).irq = d.irq := rfl
@[simp] theorem Dev.putTrk_keel (d : Dev) (n : Nat) (x : Trk) : (d.putTrk n x).keel = d.keel := rfl
@[simp] theorem Dev.putTrk_log (d : Dev) (n : Nat) (x : Trk) : (d.putTrk n x).log = d.log := rfl
@[simp] theorem Dev.putTrk_pwr (d : Dev) (n : Nat) (x : Trk) : (d.putTrk n x).pwr = d.pwr := rfl
@[simp] theorem Dev.putTrk_host (d : Dev) (n : Nat) (x : Trk) : (d.putTrk n x).host = d.host := rfl
@[simp] theorem Dev.putTrk_fused (d : Dev) (n : Nat) (x : Trk) : (d.putTrk n x).fused = d.fused := rfl
@[simp] theorem Dev.putTrk_trust (d : Dev) (n : Nat) (x : Trk) : (d.putTrk n x).trust = d.trust := rfl
@[simp] theorem Dev.putTrk_mon (d : Dev) (n : Nat) (x : Trk) : (d.putTrk n x).mon = d.mon := rfl
@[simp] theorem Dev.putTrk_bist (d : Dev) (n : Nat) (x : Trk) : (d.putTrk n x).bist = d.bist := rfl
@[simp] theorem Dev.putTrk_dma (d : Dev) (n : Nat) (x : Trk) : (d.putTrk n x).dma = d.dma := rfl
@[simp] theorem Dev.putTrk_chk (d : Dev) (n : Nat) (x : Trk) : (d.putTrk n x).chk = d.chk := rfl
@[simp] theorem Dev.putTrk_memc (d : Dev) (n : Nat) (x : Trk) : (d.putTrk n x).memc = d.memc := rfl
@[simp] theorem Dev.putTrk_fresh (d : Dev) (n : Nat) (x : Trk) : (d.putTrk n x).fresh = d.fresh := rfl
@[simp] theorem Dev.get_putTrk (d : Dev) (n : Nat) (x : Trk) (g : Field) : (d.putTrk n x).get g = d.get g := rfl
@[simp] theorem Dev.cntAt_putTrk (d : Dev) (n : Nat) (x : Trk) (k : Nat) : (d.putTrk n x).cntAt k = d.cntAt k := rfl
@[simp] theorem Dev.listAt_putTrk (d : Dev) (n : Nat) (x : Trk) (k : Nat) : (d.putTrk n x).listAt k = d.listAt k := rfl
@[simp] theorem Dev.chAt_putTrk (d : Dev) (n : Nat) (x : Trk) (k : Nat) : (d.putTrk n x).chAt k = d.chAt k := rfl
@[simp] theorem Dev.synAt_putTrk (d : Dev) (n : Nat) (x : Trk) (k : Nat) : (d.putTrk n x).synAt k = d.synAt k := rfl
@[simp] theorem Dev.gateAt_putTrk (d : Dev) (n : Nat) (x : Trk) (k : Nat) : (d.putTrk n x).gateAt k = d.gateAt k := rfl
@[simp] theorem Dev.oscAt_putTrk (d : Dev) (n : Nat) (x : Trk) (k : Nat) : (d.putTrk n x).oscAt k = d.oscAt k := rfl
@[simp] theorem Dev.ceAt_putTrk (d : Dev) (n : Nat) (x : Trk) (k : Nat) : (d.putTrk n x).ceAt k = d.ceAt k := rfl
@[simp] theorem Dev.peAt_putTrk (d : Dev) (n : Nat) (x : Trk) (k : Nat) : (d.putTrk n x).peAt k = d.peAt k := rfl
@[simp] theorem Dev.dmaAt_putTrk (d : Dev) (n : Nat) (x : Trk) (k : Nat) : (d.putTrk n x).dmaAt k = d.dmaAt k := rfl
@[simp] theorem Dev.ethAt_putTrk (d : Dev) (n : Nat) (x : Trk) (k : Nat) : (d.putTrk n x).ethAt k = d.ethAt k := rfl
@[simp] theorem Dev.cport_putTrk (d : Dev) (n : Nat) (x : Trk) (k : Nat) : (d.putTrk n x).cport k = d.cport k := rfl
@[simp] theorem Dev.ctxAt_putTrk (d : Dev) (n : Nat) (x : Trk) (k : Nat) : (d.putTrk n x).ctxAt k = d.ctxAt k := rfl

/-! ### `Dev.putCnt` -/

@[simp] theorem Dev.putCnt_regs (d : Dev) (n : Nat) (x : Cnt) : (d.putCnt n x).regs = d.regs := rfl
@[simp] theorem Dev.putCnt_cyc (d : Dev) (n : Nat) (x : Cnt) : (d.putCnt n x).cyc = d.cyc := rfl
@[simp] theorem Dev.putCnt_latch (d : Dev) (n : Nat) (x : Cnt) : (d.putCnt n x).latch = d.latch := rfl
@[simp] theorem Dev.putCnt_readOut (d : Dev) (n : Nat) (x : Cnt) : (d.putCnt n x).readOut = d.readOut := rfl
@[simp] theorem Dev.putCnt_clock (d : Dev) (n : Nat) (x : Cnt) : (d.putCnt n x).clock = d.clock := rfl
@[simp] theorem Dev.putCnt_fab (d : Dev) (n : Nat) (x : Cnt) : (d.putCnt n x).fab = d.fab := rfl
@[simp] theorem Dev.putCnt_mem (d : Dev) (n : Nat) (x : Cnt) : (d.putCnt n x).mem = d.mem := rfl
@[simp] theorem Dev.putCnt_tb (d : Dev) (n : Nat) (x : Cnt) : (d.putCnt n x).tb = d.tb := rfl
@[simp] theorem Dev.putCnt_trk (d : Dev) (n : Nat) (x : Cnt) : (d.putCnt n x).trk = d.trk := rfl
@[simp] theorem Dev.putCnt_cox (d : Dev) (n : Nat) (x : Cnt) : (d.putCnt n x).cox = d.cox := rfl
@[simp] theorem Dev.putCnt_ch (d : Dev) (n : Nat) (x : Cnt) : (d.putCnt n x).ch = d.ch := rfl
@[simp] theorem Dev.putCnt_syn (d : Dev) (n : Nat) (x : Cnt) : (d.putCnt n x).syn = d.syn := rfl
@[simp] theorem Dev.putCnt_gate (d : Dev) (n : Nat) (x : Cnt) : (d.putCnt n x).gate = d.gate := rfl
@[simp] theorem Dev.putCnt_ce (d : Dev) (n : Nat) (x : Cnt) : (d.putCnt n x).ce = d.ce := rfl
@[simp] theorem Dev.putCnt_pe (d : Dev) (n : Nat) (x : Cnt) : (d.putCnt n x).pe = d.pe := rfl
@[simp] theorem Dev.putCnt_peBall (d : Dev) (n : Nat) (x : Cnt) : (d.putCnt n x).peBall = d.peBall := rfl
@[simp] theorem Dev.putCnt_gflagBy (d : Dev) (n : Nat) (x : Cnt) : (d.putCnt n x).gflagBy = d.gflagBy := rfl
@[simp] theorem Dev.putCnt_sync (d : Dev) (n : Nat) (x : Cnt) : (d.putCnt n x).sync = d.sync := rfl
@[simp] theorem Dev.putCnt_tap (d : Dev) (n : Nat) (x : Cnt) : (d.putCnt n x).tap = d.tap := rfl
@[simp] theorem Dev.putCnt_rig (d : Dev) (n : Nat) (x : Cnt) : (d.putCnt n x).rig = d.rig := rfl
@[simp] theorem Dev.putCnt_txn (d : Dev) (n : Nat) (x : Cnt) : (d.putCnt n x).txn = d.txn := rfl
@[simp] theorem Dev.putCnt_crew (d : Dev) (n : Nat) (x : Cnt) : (d.putCnt n x).crew = d.crew := rfl
@[simp] theorem Dev.putCnt_eth (d : Dev) (n : Nat) (x : Cnt) : (d.putCnt n x).eth = d.eth := rfl
@[simp] theorem Dev.putCnt_ethSent (d : Dev) (n : Nat) (x : Cnt) : (d.putCnt n x).ethSent = d.ethSent := rfl
@[simp] theorem Dev.putCnt_ethFwd (d : Dev) (n : Nat) (x : Cnt) : (d.putCnt n x).ethFwd = d.ethFwd := rfl
@[simp] theorem Dev.putCnt_irq (d : Dev) (n : Nat) (x : Cnt) : (d.putCnt n x).irq = d.irq := rfl
@[simp] theorem Dev.putCnt_keel (d : Dev) (n : Nat) (x : Cnt) : (d.putCnt n x).keel = d.keel := rfl
@[simp] theorem Dev.putCnt_log (d : Dev) (n : Nat) (x : Cnt) : (d.putCnt n x).log = d.log := rfl
@[simp] theorem Dev.putCnt_pwr (d : Dev) (n : Nat) (x : Cnt) : (d.putCnt n x).pwr = d.pwr := rfl
@[simp] theorem Dev.putCnt_host (d : Dev) (n : Nat) (x : Cnt) : (d.putCnt n x).host = d.host := rfl
@[simp] theorem Dev.putCnt_fused (d : Dev) (n : Nat) (x : Cnt) : (d.putCnt n x).fused = d.fused := rfl
@[simp] theorem Dev.putCnt_trust (d : Dev) (n : Nat) (x : Cnt) : (d.putCnt n x).trust = d.trust := rfl
@[simp] theorem Dev.putCnt_mon (d : Dev) (n : Nat) (x : Cnt) : (d.putCnt n x).mon = d.mon := rfl
@[simp] theorem Dev.putCnt_bist (d : Dev) (n : Nat) (x : Cnt) : (d.putCnt n x).bist = d.bist := rfl
@[simp] theorem Dev.putCnt_dma (d : Dev) (n : Nat) (x : Cnt) : (d.putCnt n x).dma = d.dma := rfl
@[simp] theorem Dev.putCnt_chk (d : Dev) (n : Nat) (x : Cnt) : (d.putCnt n x).chk = d.chk := rfl
@[simp] theorem Dev.putCnt_memc (d : Dev) (n : Nat) (x : Cnt) : (d.putCnt n x).memc = d.memc := rfl
@[simp] theorem Dev.putCnt_fresh (d : Dev) (n : Nat) (x : Cnt) : (d.putCnt n x).fresh = d.fresh := rfl
@[simp] theorem Dev.get_putCnt (d : Dev) (n : Nat) (x : Cnt) (g : Field) : (d.putCnt n x).get g = d.get g := rfl
@[simp] theorem Dev.trkAt_putCnt (d : Dev) (n : Nat) (x : Cnt) (k : Nat) : (d.putCnt n x).trkAt k = d.trkAt k := rfl
@[simp] theorem Dev.listAt_putCnt (d : Dev) (n : Nat) (x : Cnt) (k : Nat) : (d.putCnt n x).listAt k = d.listAt k := rfl
@[simp] theorem Dev.chAt_putCnt (d : Dev) (n : Nat) (x : Cnt) (k : Nat) : (d.putCnt n x).chAt k = d.chAt k := rfl
@[simp] theorem Dev.synAt_putCnt (d : Dev) (n : Nat) (x : Cnt) (k : Nat) : (d.putCnt n x).synAt k = d.synAt k := rfl
@[simp] theorem Dev.gateAt_putCnt (d : Dev) (n : Nat) (x : Cnt) (k : Nat) : (d.putCnt n x).gateAt k = d.gateAt k := rfl
@[simp] theorem Dev.oscAt_putCnt (d : Dev) (n : Nat) (x : Cnt) (k : Nat) : (d.putCnt n x).oscAt k = d.oscAt k := rfl
@[simp] theorem Dev.ceAt_putCnt (d : Dev) (n : Nat) (x : Cnt) (k : Nat) : (d.putCnt n x).ceAt k = d.ceAt k := rfl
@[simp] theorem Dev.peAt_putCnt (d : Dev) (n : Nat) (x : Cnt) (k : Nat) : (d.putCnt n x).peAt k = d.peAt k := rfl
@[simp] theorem Dev.dmaAt_putCnt (d : Dev) (n : Nat) (x : Cnt) (k : Nat) : (d.putCnt n x).dmaAt k = d.dmaAt k := rfl
@[simp] theorem Dev.ethAt_putCnt (d : Dev) (n : Nat) (x : Cnt) (k : Nat) : (d.putCnt n x).ethAt k = d.ethAt k := rfl
@[simp] theorem Dev.cport_putCnt (d : Dev) (n : Nat) (x : Cnt) (k : Nat) : (d.putCnt n x).cport k = d.cport k := rfl
@[simp] theorem Dev.ctxAt_putCnt (d : Dev) (n : Nat) (x : Cnt) (k : Nat) : (d.putCnt n x).ctxAt k = d.ctxAt k := rfl

/-! ### `Dev.putList` -/

@[simp] theorem Dev.putList_regs (d : Dev) (n : Nat) (x : CoxList) : (d.putList n x).regs = d.regs := rfl
@[simp] theorem Dev.putList_cyc (d : Dev) (n : Nat) (x : CoxList) : (d.putList n x).cyc = d.cyc := rfl
@[simp] theorem Dev.putList_latch (d : Dev) (n : Nat) (x : CoxList) : (d.putList n x).latch = d.latch := rfl
@[simp] theorem Dev.putList_readOut (d : Dev) (n : Nat) (x : CoxList) : (d.putList n x).readOut = d.readOut := rfl
@[simp] theorem Dev.putList_clock (d : Dev) (n : Nat) (x : CoxList) : (d.putList n x).clock = d.clock := rfl
@[simp] theorem Dev.putList_fab (d : Dev) (n : Nat) (x : CoxList) : (d.putList n x).fab = d.fab := rfl
@[simp] theorem Dev.putList_mem (d : Dev) (n : Nat) (x : CoxList) : (d.putList n x).mem = d.mem := rfl
@[simp] theorem Dev.putList_tb (d : Dev) (n : Nat) (x : CoxList) : (d.putList n x).tb = d.tb := rfl
@[simp] theorem Dev.putList_trk (d : Dev) (n : Nat) (x : CoxList) : (d.putList n x).trk = d.trk := rfl
@[simp] theorem Dev.putList_cnt (d : Dev) (n : Nat) (x : CoxList) : (d.putList n x).cnt = d.cnt := rfl
@[simp] theorem Dev.putList_ch (d : Dev) (n : Nat) (x : CoxList) : (d.putList n x).ch = d.ch := rfl
@[simp] theorem Dev.putList_syn (d : Dev) (n : Nat) (x : CoxList) : (d.putList n x).syn = d.syn := rfl
@[simp] theorem Dev.putList_gate (d : Dev) (n : Nat) (x : CoxList) : (d.putList n x).gate = d.gate := rfl
@[simp] theorem Dev.putList_ce (d : Dev) (n : Nat) (x : CoxList) : (d.putList n x).ce = d.ce := rfl
@[simp] theorem Dev.putList_pe (d : Dev) (n : Nat) (x : CoxList) : (d.putList n x).pe = d.pe := rfl
@[simp] theorem Dev.putList_peBall (d : Dev) (n : Nat) (x : CoxList) : (d.putList n x).peBall = d.peBall := rfl
@[simp] theorem Dev.putList_gflagBy (d : Dev) (n : Nat) (x : CoxList) : (d.putList n x).gflagBy = d.gflagBy := rfl
@[simp] theorem Dev.putList_sync (d : Dev) (n : Nat) (x : CoxList) : (d.putList n x).sync = d.sync := rfl
@[simp] theorem Dev.putList_tap (d : Dev) (n : Nat) (x : CoxList) : (d.putList n x).tap = d.tap := rfl
@[simp] theorem Dev.putList_rig (d : Dev) (n : Nat) (x : CoxList) : (d.putList n x).rig = d.rig := rfl
@[simp] theorem Dev.putList_txn (d : Dev) (n : Nat) (x : CoxList) : (d.putList n x).txn = d.txn := rfl
@[simp] theorem Dev.putList_crew (d : Dev) (n : Nat) (x : CoxList) : (d.putList n x).crew = d.crew := rfl
@[simp] theorem Dev.putList_eth (d : Dev) (n : Nat) (x : CoxList) : (d.putList n x).eth = d.eth := rfl
@[simp] theorem Dev.putList_ethSent (d : Dev) (n : Nat) (x : CoxList) : (d.putList n x).ethSent = d.ethSent := rfl
@[simp] theorem Dev.putList_ethFwd (d : Dev) (n : Nat) (x : CoxList) : (d.putList n x).ethFwd = d.ethFwd := rfl
@[simp] theorem Dev.putList_irq (d : Dev) (n : Nat) (x : CoxList) : (d.putList n x).irq = d.irq := rfl
@[simp] theorem Dev.putList_keel (d : Dev) (n : Nat) (x : CoxList) : (d.putList n x).keel = d.keel := rfl
@[simp] theorem Dev.putList_log (d : Dev) (n : Nat) (x : CoxList) : (d.putList n x).log = d.log := rfl
@[simp] theorem Dev.putList_pwr (d : Dev) (n : Nat) (x : CoxList) : (d.putList n x).pwr = d.pwr := rfl
@[simp] theorem Dev.putList_host (d : Dev) (n : Nat) (x : CoxList) : (d.putList n x).host = d.host := rfl
@[simp] theorem Dev.putList_fused (d : Dev) (n : Nat) (x : CoxList) : (d.putList n x).fused = d.fused := rfl
@[simp] theorem Dev.putList_trust (d : Dev) (n : Nat) (x : CoxList) : (d.putList n x).trust = d.trust := rfl
@[simp] theorem Dev.putList_mon (d : Dev) (n : Nat) (x : CoxList) : (d.putList n x).mon = d.mon := rfl
@[simp] theorem Dev.putList_bist (d : Dev) (n : Nat) (x : CoxList) : (d.putList n x).bist = d.bist := rfl
@[simp] theorem Dev.putList_dma (d : Dev) (n : Nat) (x : CoxList) : (d.putList n x).dma = d.dma := rfl
@[simp] theorem Dev.putList_chk (d : Dev) (n : Nat) (x : CoxList) : (d.putList n x).chk = d.chk := rfl
@[simp] theorem Dev.putList_memc (d : Dev) (n : Nat) (x : CoxList) : (d.putList n x).memc = d.memc := rfl
@[simp] theorem Dev.putList_fresh (d : Dev) (n : Nat) (x : CoxList) : (d.putList n x).fresh = d.fresh := rfl
@[simp] theorem Dev.get_putList (d : Dev) (n : Nat) (x : CoxList) (g : Field) : (d.putList n x).get g = d.get g := rfl
@[simp] theorem Dev.trkAt_putList (d : Dev) (n : Nat) (x : CoxList) (k : Nat) : (d.putList n x).trkAt k = d.trkAt k := rfl
@[simp] theorem Dev.cntAt_putList (d : Dev) (n : Nat) (x : CoxList) (k : Nat) : (d.putList n x).cntAt k = d.cntAt k := rfl
@[simp] theorem Dev.chAt_putList (d : Dev) (n : Nat) (x : CoxList) (k : Nat) : (d.putList n x).chAt k = d.chAt k := rfl
@[simp] theorem Dev.synAt_putList (d : Dev) (n : Nat) (x : CoxList) (k : Nat) : (d.putList n x).synAt k = d.synAt k := rfl
@[simp] theorem Dev.gateAt_putList (d : Dev) (n : Nat) (x : CoxList) (k : Nat) : (d.putList n x).gateAt k = d.gateAt k := rfl
@[simp] theorem Dev.oscAt_putList (d : Dev) (n : Nat) (x : CoxList) (k : Nat) : (d.putList n x).oscAt k = d.oscAt k := rfl
@[simp] theorem Dev.ceAt_putList (d : Dev) (n : Nat) (x : CoxList) (k : Nat) : (d.putList n x).ceAt k = d.ceAt k := rfl
@[simp] theorem Dev.peAt_putList (d : Dev) (n : Nat) (x : CoxList) (k : Nat) : (d.putList n x).peAt k = d.peAt k := rfl
@[simp] theorem Dev.dmaAt_putList (d : Dev) (n : Nat) (x : CoxList) (k : Nat) : (d.putList n x).dmaAt k = d.dmaAt k := rfl
@[simp] theorem Dev.ethAt_putList (d : Dev) (n : Nat) (x : CoxList) (k : Nat) : (d.putList n x).ethAt k = d.ethAt k := rfl
@[simp] theorem Dev.cport_putList (d : Dev) (n : Nat) (x : CoxList) (k : Nat) : (d.putList n x).cport k = d.cport k := rfl
@[simp] theorem Dev.ctxAt_putList (d : Dev) (n : Nat) (x : CoxList) (k : Nat) : (d.putList n x).ctxAt k = d.ctxAt k := rfl

/-! ### `Dev.putCh` -/

@[simp] theorem Dev.putCh_regs (d : Dev) (n : Nat) (x : Chan) : (d.putCh n x).regs = d.regs := rfl
@[simp] theorem Dev.putCh_cyc (d : Dev) (n : Nat) (x : Chan) : (d.putCh n x).cyc = d.cyc := rfl
@[simp] theorem Dev.putCh_latch (d : Dev) (n : Nat) (x : Chan) : (d.putCh n x).latch = d.latch := rfl
@[simp] theorem Dev.putCh_readOut (d : Dev) (n : Nat) (x : Chan) : (d.putCh n x).readOut = d.readOut := rfl
@[simp] theorem Dev.putCh_clock (d : Dev) (n : Nat) (x : Chan) : (d.putCh n x).clock = d.clock := rfl
@[simp] theorem Dev.putCh_fab (d : Dev) (n : Nat) (x : Chan) : (d.putCh n x).fab = d.fab := rfl
@[simp] theorem Dev.putCh_mem (d : Dev) (n : Nat) (x : Chan) : (d.putCh n x).mem = d.mem := rfl
@[simp] theorem Dev.putCh_tb (d : Dev) (n : Nat) (x : Chan) : (d.putCh n x).tb = d.tb := rfl
@[simp] theorem Dev.putCh_trk (d : Dev) (n : Nat) (x : Chan) : (d.putCh n x).trk = d.trk := rfl
@[simp] theorem Dev.putCh_cnt (d : Dev) (n : Nat) (x : Chan) : (d.putCh n x).cnt = d.cnt := rfl
@[simp] theorem Dev.putCh_cox (d : Dev) (n : Nat) (x : Chan) : (d.putCh n x).cox = d.cox := rfl
@[simp] theorem Dev.putCh_syn (d : Dev) (n : Nat) (x : Chan) : (d.putCh n x).syn = d.syn := rfl
@[simp] theorem Dev.putCh_gate (d : Dev) (n : Nat) (x : Chan) : (d.putCh n x).gate = d.gate := rfl
@[simp] theorem Dev.putCh_ce (d : Dev) (n : Nat) (x : Chan) : (d.putCh n x).ce = d.ce := rfl
@[simp] theorem Dev.putCh_pe (d : Dev) (n : Nat) (x : Chan) : (d.putCh n x).pe = d.pe := rfl
@[simp] theorem Dev.putCh_peBall (d : Dev) (n : Nat) (x : Chan) : (d.putCh n x).peBall = d.peBall := rfl
@[simp] theorem Dev.putCh_gflagBy (d : Dev) (n : Nat) (x : Chan) : (d.putCh n x).gflagBy = d.gflagBy := rfl
@[simp] theorem Dev.putCh_sync (d : Dev) (n : Nat) (x : Chan) : (d.putCh n x).sync = d.sync := rfl
@[simp] theorem Dev.putCh_tap (d : Dev) (n : Nat) (x : Chan) : (d.putCh n x).tap = d.tap := rfl
@[simp] theorem Dev.putCh_rig (d : Dev) (n : Nat) (x : Chan) : (d.putCh n x).rig = d.rig := rfl
@[simp] theorem Dev.putCh_txn (d : Dev) (n : Nat) (x : Chan) : (d.putCh n x).txn = d.txn := rfl
@[simp] theorem Dev.putCh_crew (d : Dev) (n : Nat) (x : Chan) : (d.putCh n x).crew = d.crew := rfl
@[simp] theorem Dev.putCh_eth (d : Dev) (n : Nat) (x : Chan) : (d.putCh n x).eth = d.eth := rfl
@[simp] theorem Dev.putCh_ethSent (d : Dev) (n : Nat) (x : Chan) : (d.putCh n x).ethSent = d.ethSent := rfl
@[simp] theorem Dev.putCh_ethFwd (d : Dev) (n : Nat) (x : Chan) : (d.putCh n x).ethFwd = d.ethFwd := rfl
@[simp] theorem Dev.putCh_irq (d : Dev) (n : Nat) (x : Chan) : (d.putCh n x).irq = d.irq := rfl
@[simp] theorem Dev.putCh_keel (d : Dev) (n : Nat) (x : Chan) : (d.putCh n x).keel = d.keel := rfl
@[simp] theorem Dev.putCh_log (d : Dev) (n : Nat) (x : Chan) : (d.putCh n x).log = d.log := rfl
@[simp] theorem Dev.putCh_pwr (d : Dev) (n : Nat) (x : Chan) : (d.putCh n x).pwr = d.pwr := rfl
@[simp] theorem Dev.putCh_host (d : Dev) (n : Nat) (x : Chan) : (d.putCh n x).host = d.host := rfl
@[simp] theorem Dev.putCh_fused (d : Dev) (n : Nat) (x : Chan) : (d.putCh n x).fused = d.fused := rfl
@[simp] theorem Dev.putCh_trust (d : Dev) (n : Nat) (x : Chan) : (d.putCh n x).trust = d.trust := rfl
@[simp] theorem Dev.putCh_mon (d : Dev) (n : Nat) (x : Chan) : (d.putCh n x).mon = d.mon := rfl
@[simp] theorem Dev.putCh_bist (d : Dev) (n : Nat) (x : Chan) : (d.putCh n x).bist = d.bist := rfl
@[simp] theorem Dev.putCh_dma (d : Dev) (n : Nat) (x : Chan) : (d.putCh n x).dma = d.dma := rfl
@[simp] theorem Dev.putCh_chk (d : Dev) (n : Nat) (x : Chan) : (d.putCh n x).chk = d.chk := rfl
@[simp] theorem Dev.putCh_memc (d : Dev) (n : Nat) (x : Chan) : (d.putCh n x).memc = d.memc := rfl
@[simp] theorem Dev.putCh_fresh (d : Dev) (n : Nat) (x : Chan) : (d.putCh n x).fresh = d.fresh := rfl
@[simp] theorem Dev.get_putCh (d : Dev) (n : Nat) (x : Chan) (g : Field) : (d.putCh n x).get g = d.get g := rfl
@[simp] theorem Dev.trkAt_putCh (d : Dev) (n : Nat) (x : Chan) (k : Nat) : (d.putCh n x).trkAt k = d.trkAt k := rfl
@[simp] theorem Dev.cntAt_putCh (d : Dev) (n : Nat) (x : Chan) (k : Nat) : (d.putCh n x).cntAt k = d.cntAt k := rfl
@[simp] theorem Dev.listAt_putCh (d : Dev) (n : Nat) (x : Chan) (k : Nat) : (d.putCh n x).listAt k = d.listAt k := rfl
@[simp] theorem Dev.synAt_putCh (d : Dev) (n : Nat) (x : Chan) (k : Nat) : (d.putCh n x).synAt k = d.synAt k := rfl
@[simp] theorem Dev.gateAt_putCh (d : Dev) (n : Nat) (x : Chan) (k : Nat) : (d.putCh n x).gateAt k = d.gateAt k := rfl
@[simp] theorem Dev.oscAt_putCh (d : Dev) (n : Nat) (x : Chan) (k : Nat) : (d.putCh n x).oscAt k = d.oscAt k := rfl
@[simp] theorem Dev.ceAt_putCh (d : Dev) (n : Nat) (x : Chan) (k : Nat) : (d.putCh n x).ceAt k = d.ceAt k := rfl
@[simp] theorem Dev.peAt_putCh (d : Dev) (n : Nat) (x : Chan) (k : Nat) : (d.putCh n x).peAt k = d.peAt k := rfl
@[simp] theorem Dev.dmaAt_putCh (d : Dev) (n : Nat) (x : Chan) (k : Nat) : (d.putCh n x).dmaAt k = d.dmaAt k := rfl
@[simp] theorem Dev.ethAt_putCh (d : Dev) (n : Nat) (x : Chan) (k : Nat) : (d.putCh n x).ethAt k = d.ethAt k := rfl
@[simp] theorem Dev.cport_putCh (d : Dev) (n : Nat) (x : Chan) (k : Nat) : (d.putCh n x).cport k = d.cport k := rfl
@[simp] theorem Dev.ctxAt_putCh (d : Dev) (n : Nat) (x : Chan) (k : Nat) : (d.putCh n x).ctxAt k = d.ctxAt k := rfl

/-! ### `Dev.putSyn` -/

@[simp] theorem Dev.putSyn_regs (d : Dev) (n : Nat) (x : Syn) : (d.putSyn n x).regs = d.regs := rfl
@[simp] theorem Dev.putSyn_cyc (d : Dev) (n : Nat) (x : Syn) : (d.putSyn n x).cyc = d.cyc := rfl
@[simp] theorem Dev.putSyn_latch (d : Dev) (n : Nat) (x : Syn) : (d.putSyn n x).latch = d.latch := rfl
@[simp] theorem Dev.putSyn_readOut (d : Dev) (n : Nat) (x : Syn) : (d.putSyn n x).readOut = d.readOut := rfl
@[simp] theorem Dev.putSyn_clock (d : Dev) (n : Nat) (x : Syn) : (d.putSyn n x).clock = d.clock := rfl
@[simp] theorem Dev.putSyn_fab (d : Dev) (n : Nat) (x : Syn) : (d.putSyn n x).fab = d.fab := rfl
@[simp] theorem Dev.putSyn_mem (d : Dev) (n : Nat) (x : Syn) : (d.putSyn n x).mem = d.mem := rfl
@[simp] theorem Dev.putSyn_tb (d : Dev) (n : Nat) (x : Syn) : (d.putSyn n x).tb = d.tb := rfl
@[simp] theorem Dev.putSyn_trk (d : Dev) (n : Nat) (x : Syn) : (d.putSyn n x).trk = d.trk := rfl
@[simp] theorem Dev.putSyn_cnt (d : Dev) (n : Nat) (x : Syn) : (d.putSyn n x).cnt = d.cnt := rfl
@[simp] theorem Dev.putSyn_cox (d : Dev) (n : Nat) (x : Syn) : (d.putSyn n x).cox = d.cox := rfl
@[simp] theorem Dev.putSyn_ch (d : Dev) (n : Nat) (x : Syn) : (d.putSyn n x).ch = d.ch := rfl
@[simp] theorem Dev.putSyn_gate (d : Dev) (n : Nat) (x : Syn) : (d.putSyn n x).gate = d.gate := rfl
@[simp] theorem Dev.putSyn_ce (d : Dev) (n : Nat) (x : Syn) : (d.putSyn n x).ce = d.ce := rfl
@[simp] theorem Dev.putSyn_pe (d : Dev) (n : Nat) (x : Syn) : (d.putSyn n x).pe = d.pe := rfl
@[simp] theorem Dev.putSyn_peBall (d : Dev) (n : Nat) (x : Syn) : (d.putSyn n x).peBall = d.peBall := rfl
@[simp] theorem Dev.putSyn_gflagBy (d : Dev) (n : Nat) (x : Syn) : (d.putSyn n x).gflagBy = d.gflagBy := rfl
@[simp] theorem Dev.putSyn_sync (d : Dev) (n : Nat) (x : Syn) : (d.putSyn n x).sync = d.sync := rfl
@[simp] theorem Dev.putSyn_tap (d : Dev) (n : Nat) (x : Syn) : (d.putSyn n x).tap = d.tap := rfl
@[simp] theorem Dev.putSyn_rig (d : Dev) (n : Nat) (x : Syn) : (d.putSyn n x).rig = d.rig := rfl
@[simp] theorem Dev.putSyn_txn (d : Dev) (n : Nat) (x : Syn) : (d.putSyn n x).txn = d.txn := rfl
@[simp] theorem Dev.putSyn_crew (d : Dev) (n : Nat) (x : Syn) : (d.putSyn n x).crew = d.crew := rfl
@[simp] theorem Dev.putSyn_eth (d : Dev) (n : Nat) (x : Syn) : (d.putSyn n x).eth = d.eth := rfl
@[simp] theorem Dev.putSyn_ethSent (d : Dev) (n : Nat) (x : Syn) : (d.putSyn n x).ethSent = d.ethSent := rfl
@[simp] theorem Dev.putSyn_ethFwd (d : Dev) (n : Nat) (x : Syn) : (d.putSyn n x).ethFwd = d.ethFwd := rfl
@[simp] theorem Dev.putSyn_irq (d : Dev) (n : Nat) (x : Syn) : (d.putSyn n x).irq = d.irq := rfl
@[simp] theorem Dev.putSyn_keel (d : Dev) (n : Nat) (x : Syn) : (d.putSyn n x).keel = d.keel := rfl
@[simp] theorem Dev.putSyn_log (d : Dev) (n : Nat) (x : Syn) : (d.putSyn n x).log = d.log := rfl
@[simp] theorem Dev.putSyn_pwr (d : Dev) (n : Nat) (x : Syn) : (d.putSyn n x).pwr = d.pwr := rfl
@[simp] theorem Dev.putSyn_host (d : Dev) (n : Nat) (x : Syn) : (d.putSyn n x).host = d.host := rfl
@[simp] theorem Dev.putSyn_fused (d : Dev) (n : Nat) (x : Syn) : (d.putSyn n x).fused = d.fused := rfl
@[simp] theorem Dev.putSyn_trust (d : Dev) (n : Nat) (x : Syn) : (d.putSyn n x).trust = d.trust := rfl
@[simp] theorem Dev.putSyn_mon (d : Dev) (n : Nat) (x : Syn) : (d.putSyn n x).mon = d.mon := rfl
@[simp] theorem Dev.putSyn_bist (d : Dev) (n : Nat) (x : Syn) : (d.putSyn n x).bist = d.bist := rfl
@[simp] theorem Dev.putSyn_dma (d : Dev) (n : Nat) (x : Syn) : (d.putSyn n x).dma = d.dma := rfl
@[simp] theorem Dev.putSyn_chk (d : Dev) (n : Nat) (x : Syn) : (d.putSyn n x).chk = d.chk := rfl
@[simp] theorem Dev.putSyn_memc (d : Dev) (n : Nat) (x : Syn) : (d.putSyn n x).memc = d.memc := rfl
@[simp] theorem Dev.putSyn_fresh (d : Dev) (n : Nat) (x : Syn) : (d.putSyn n x).fresh = d.fresh := rfl
@[simp] theorem Dev.get_putSyn (d : Dev) (n : Nat) (x : Syn) (g : Field) : (d.putSyn n x).get g = d.get g := rfl
@[simp] theorem Dev.trkAt_putSyn (d : Dev) (n : Nat) (x : Syn) (k : Nat) : (d.putSyn n x).trkAt k = d.trkAt k := rfl
@[simp] theorem Dev.cntAt_putSyn (d : Dev) (n : Nat) (x : Syn) (k : Nat) : (d.putSyn n x).cntAt k = d.cntAt k := rfl
@[simp] theorem Dev.listAt_putSyn (d : Dev) (n : Nat) (x : Syn) (k : Nat) : (d.putSyn n x).listAt k = d.listAt k := rfl
@[simp] theorem Dev.chAt_putSyn (d : Dev) (n : Nat) (x : Syn) (k : Nat) : (d.putSyn n x).chAt k = d.chAt k := rfl
@[simp] theorem Dev.gateAt_putSyn (d : Dev) (n : Nat) (x : Syn) (k : Nat) : (d.putSyn n x).gateAt k = d.gateAt k := rfl
@[simp] theorem Dev.oscAt_putSyn (d : Dev) (n : Nat) (x : Syn) (k : Nat) : (d.putSyn n x).oscAt k = d.oscAt k := rfl
@[simp] theorem Dev.ceAt_putSyn (d : Dev) (n : Nat) (x : Syn) (k : Nat) : (d.putSyn n x).ceAt k = d.ceAt k := rfl
@[simp] theorem Dev.peAt_putSyn (d : Dev) (n : Nat) (x : Syn) (k : Nat) : (d.putSyn n x).peAt k = d.peAt k := rfl
@[simp] theorem Dev.dmaAt_putSyn (d : Dev) (n : Nat) (x : Syn) (k : Nat) : (d.putSyn n x).dmaAt k = d.dmaAt k := rfl
@[simp] theorem Dev.ethAt_putSyn (d : Dev) (n : Nat) (x : Syn) (k : Nat) : (d.putSyn n x).ethAt k = d.ethAt k := rfl
@[simp] theorem Dev.cport_putSyn (d : Dev) (n : Nat) (x : Syn) (k : Nat) : (d.putSyn n x).cport k = d.cport k := rfl
@[simp] theorem Dev.ctxAt_putSyn (d : Dev) (n : Nat) (x : Syn) (k : Nat) : (d.putSyn n x).ctxAt k = d.ctxAt k := rfl

/-! ### `Dev.putGate` -/

@[simp] theorem Dev.putGate_regs (d : Dev) (n : Nat) (x : Gate) : (d.putGate n x).regs = d.regs := rfl
@[simp] theorem Dev.putGate_cyc (d : Dev) (n : Nat) (x : Gate) : (d.putGate n x).cyc = d.cyc := rfl
@[simp] theorem Dev.putGate_latch (d : Dev) (n : Nat) (x : Gate) : (d.putGate n x).latch = d.latch := rfl
@[simp] theorem Dev.putGate_readOut (d : Dev) (n : Nat) (x : Gate) : (d.putGate n x).readOut = d.readOut := rfl
@[simp] theorem Dev.putGate_clock (d : Dev) (n : Nat) (x : Gate) : (d.putGate n x).clock = d.clock := rfl
@[simp] theorem Dev.putGate_fab (d : Dev) (n : Nat) (x : Gate) : (d.putGate n x).fab = d.fab := rfl
@[simp] theorem Dev.putGate_mem (d : Dev) (n : Nat) (x : Gate) : (d.putGate n x).mem = d.mem := rfl
@[simp] theorem Dev.putGate_tb (d : Dev) (n : Nat) (x : Gate) : (d.putGate n x).tb = d.tb := rfl
@[simp] theorem Dev.putGate_trk (d : Dev) (n : Nat) (x : Gate) : (d.putGate n x).trk = d.trk := rfl
@[simp] theorem Dev.putGate_cnt (d : Dev) (n : Nat) (x : Gate) : (d.putGate n x).cnt = d.cnt := rfl
@[simp] theorem Dev.putGate_cox (d : Dev) (n : Nat) (x : Gate) : (d.putGate n x).cox = d.cox := rfl
@[simp] theorem Dev.putGate_ch (d : Dev) (n : Nat) (x : Gate) : (d.putGate n x).ch = d.ch := rfl
@[simp] theorem Dev.putGate_syn (d : Dev) (n : Nat) (x : Gate) : (d.putGate n x).syn = d.syn := rfl
@[simp] theorem Dev.putGate_ce (d : Dev) (n : Nat) (x : Gate) : (d.putGate n x).ce = d.ce := rfl
@[simp] theorem Dev.putGate_pe (d : Dev) (n : Nat) (x : Gate) : (d.putGate n x).pe = d.pe := rfl
@[simp] theorem Dev.putGate_peBall (d : Dev) (n : Nat) (x : Gate) : (d.putGate n x).peBall = d.peBall := rfl
@[simp] theorem Dev.putGate_gflagBy (d : Dev) (n : Nat) (x : Gate) : (d.putGate n x).gflagBy = d.gflagBy := rfl
@[simp] theorem Dev.putGate_sync (d : Dev) (n : Nat) (x : Gate) : (d.putGate n x).sync = d.sync := rfl
@[simp] theorem Dev.putGate_tap (d : Dev) (n : Nat) (x : Gate) : (d.putGate n x).tap = d.tap := rfl
@[simp] theorem Dev.putGate_rig (d : Dev) (n : Nat) (x : Gate) : (d.putGate n x).rig = d.rig := rfl
@[simp] theorem Dev.putGate_txn (d : Dev) (n : Nat) (x : Gate) : (d.putGate n x).txn = d.txn := rfl
@[simp] theorem Dev.putGate_crew (d : Dev) (n : Nat) (x : Gate) : (d.putGate n x).crew = d.crew := rfl
@[simp] theorem Dev.putGate_eth (d : Dev) (n : Nat) (x : Gate) : (d.putGate n x).eth = d.eth := rfl
@[simp] theorem Dev.putGate_ethSent (d : Dev) (n : Nat) (x : Gate) : (d.putGate n x).ethSent = d.ethSent := rfl
@[simp] theorem Dev.putGate_ethFwd (d : Dev) (n : Nat) (x : Gate) : (d.putGate n x).ethFwd = d.ethFwd := rfl
@[simp] theorem Dev.putGate_irq (d : Dev) (n : Nat) (x : Gate) : (d.putGate n x).irq = d.irq := rfl
@[simp] theorem Dev.putGate_keel (d : Dev) (n : Nat) (x : Gate) : (d.putGate n x).keel = d.keel := rfl
@[simp] theorem Dev.putGate_log (d : Dev) (n : Nat) (x : Gate) : (d.putGate n x).log = d.log := rfl
@[simp] theorem Dev.putGate_pwr (d : Dev) (n : Nat) (x : Gate) : (d.putGate n x).pwr = d.pwr := rfl
@[simp] theorem Dev.putGate_host (d : Dev) (n : Nat) (x : Gate) : (d.putGate n x).host = d.host := rfl
@[simp] theorem Dev.putGate_fused (d : Dev) (n : Nat) (x : Gate) : (d.putGate n x).fused = d.fused := rfl
@[simp] theorem Dev.putGate_trust (d : Dev) (n : Nat) (x : Gate) : (d.putGate n x).trust = d.trust := rfl
@[simp] theorem Dev.putGate_mon (d : Dev) (n : Nat) (x : Gate) : (d.putGate n x).mon = d.mon := rfl
@[simp] theorem Dev.putGate_bist (d : Dev) (n : Nat) (x : Gate) : (d.putGate n x).bist = d.bist := rfl
@[simp] theorem Dev.putGate_dma (d : Dev) (n : Nat) (x : Gate) : (d.putGate n x).dma = d.dma := rfl
@[simp] theorem Dev.putGate_chk (d : Dev) (n : Nat) (x : Gate) : (d.putGate n x).chk = d.chk := rfl
@[simp] theorem Dev.putGate_memc (d : Dev) (n : Nat) (x : Gate) : (d.putGate n x).memc = d.memc := rfl
@[simp] theorem Dev.putGate_fresh (d : Dev) (n : Nat) (x : Gate) : (d.putGate n x).fresh = d.fresh := rfl
@[simp] theorem Dev.get_putGate (d : Dev) (n : Nat) (x : Gate) (g : Field) : (d.putGate n x).get g = d.get g := rfl
@[simp] theorem Dev.trkAt_putGate (d : Dev) (n : Nat) (x : Gate) (k : Nat) : (d.putGate n x).trkAt k = d.trkAt k := rfl
@[simp] theorem Dev.cntAt_putGate (d : Dev) (n : Nat) (x : Gate) (k : Nat) : (d.putGate n x).cntAt k = d.cntAt k := rfl
@[simp] theorem Dev.listAt_putGate (d : Dev) (n : Nat) (x : Gate) (k : Nat) : (d.putGate n x).listAt k = d.listAt k := rfl
@[simp] theorem Dev.chAt_putGate (d : Dev) (n : Nat) (x : Gate) (k : Nat) : (d.putGate n x).chAt k = d.chAt k := rfl
@[simp] theorem Dev.synAt_putGate (d : Dev) (n : Nat) (x : Gate) (k : Nat) : (d.putGate n x).synAt k = d.synAt k := rfl
@[simp] theorem Dev.oscAt_putGate (d : Dev) (n : Nat) (x : Gate) (k : Nat) : (d.putGate n x).oscAt k = d.oscAt k := rfl
@[simp] theorem Dev.ceAt_putGate (d : Dev) (n : Nat) (x : Gate) (k : Nat) : (d.putGate n x).ceAt k = d.ceAt k := rfl
@[simp] theorem Dev.peAt_putGate (d : Dev) (n : Nat) (x : Gate) (k : Nat) : (d.putGate n x).peAt k = d.peAt k := rfl
@[simp] theorem Dev.dmaAt_putGate (d : Dev) (n : Nat) (x : Gate) (k : Nat) : (d.putGate n x).dmaAt k = d.dmaAt k := rfl
@[simp] theorem Dev.ethAt_putGate (d : Dev) (n : Nat) (x : Gate) (k : Nat) : (d.putGate n x).ethAt k = d.ethAt k := rfl
@[simp] theorem Dev.cport_putGate (d : Dev) (n : Nat) (x : Gate) (k : Nat) : (d.putGate n x).cport k = d.cport k := rfl
@[simp] theorem Dev.ctxAt_putGate (d : Dev) (n : Nat) (x : Gate) (k : Nat) : (d.putGate n x).ctxAt k = d.ctxAt k := rfl

/-! ### `Dev.putOsc` -/

@[simp] theorem Dev.putOsc_regs (d : Dev) (n : Nat) (x : Osc) : (d.putOsc n x).regs = d.regs := rfl
@[simp] theorem Dev.putOsc_cyc (d : Dev) (n : Nat) (x : Osc) : (d.putOsc n x).cyc = d.cyc := rfl
@[simp] theorem Dev.putOsc_latch (d : Dev) (n : Nat) (x : Osc) : (d.putOsc n x).latch = d.latch := rfl
@[simp] theorem Dev.putOsc_readOut (d : Dev) (n : Nat) (x : Osc) : (d.putOsc n x).readOut = d.readOut := rfl
@[simp] theorem Dev.putOsc_clock (d : Dev) (n : Nat) (x : Osc) : (d.putOsc n x).clock = d.clock := rfl
@[simp] theorem Dev.putOsc_fab (d : Dev) (n : Nat) (x : Osc) : (d.putOsc n x).fab = d.fab := rfl
@[simp] theorem Dev.putOsc_mem (d : Dev) (n : Nat) (x : Osc) : (d.putOsc n x).mem = d.mem := rfl
@[simp] theorem Dev.putOsc_trk (d : Dev) (n : Nat) (x : Osc) : (d.putOsc n x).trk = d.trk := rfl
@[simp] theorem Dev.putOsc_cnt (d : Dev) (n : Nat) (x : Osc) : (d.putOsc n x).cnt = d.cnt := rfl
@[simp] theorem Dev.putOsc_cox (d : Dev) (n : Nat) (x : Osc) : (d.putOsc n x).cox = d.cox := rfl
@[simp] theorem Dev.putOsc_ch (d : Dev) (n : Nat) (x : Osc) : (d.putOsc n x).ch = d.ch := rfl
@[simp] theorem Dev.putOsc_syn (d : Dev) (n : Nat) (x : Osc) : (d.putOsc n x).syn = d.syn := rfl
@[simp] theorem Dev.putOsc_gate (d : Dev) (n : Nat) (x : Osc) : (d.putOsc n x).gate = d.gate := rfl
@[simp] theorem Dev.putOsc_ce (d : Dev) (n : Nat) (x : Osc) : (d.putOsc n x).ce = d.ce := rfl
@[simp] theorem Dev.putOsc_pe (d : Dev) (n : Nat) (x : Osc) : (d.putOsc n x).pe = d.pe := rfl
@[simp] theorem Dev.putOsc_peBall (d : Dev) (n : Nat) (x : Osc) : (d.putOsc n x).peBall = d.peBall := rfl
@[simp] theorem Dev.putOsc_gflagBy (d : Dev) (n : Nat) (x : Osc) : (d.putOsc n x).gflagBy = d.gflagBy := rfl
@[simp] theorem Dev.putOsc_sync (d : Dev) (n : Nat) (x : Osc) : (d.putOsc n x).sync = d.sync := rfl
@[simp] theorem Dev.putOsc_tap (d : Dev) (n : Nat) (x : Osc) : (d.putOsc n x).tap = d.tap := rfl
@[simp] theorem Dev.putOsc_rig (d : Dev) (n : Nat) (x : Osc) : (d.putOsc n x).rig = d.rig := rfl
@[simp] theorem Dev.putOsc_txn (d : Dev) (n : Nat) (x : Osc) : (d.putOsc n x).txn = d.txn := rfl
@[simp] theorem Dev.putOsc_crew (d : Dev) (n : Nat) (x : Osc) : (d.putOsc n x).crew = d.crew := rfl
@[simp] theorem Dev.putOsc_eth (d : Dev) (n : Nat) (x : Osc) : (d.putOsc n x).eth = d.eth := rfl
@[simp] theorem Dev.putOsc_ethSent (d : Dev) (n : Nat) (x : Osc) : (d.putOsc n x).ethSent = d.ethSent := rfl
@[simp] theorem Dev.putOsc_ethFwd (d : Dev) (n : Nat) (x : Osc) : (d.putOsc n x).ethFwd = d.ethFwd := rfl
@[simp] theorem Dev.putOsc_irq (d : Dev) (n : Nat) (x : Osc) : (d.putOsc n x).irq = d.irq := rfl
@[simp] theorem Dev.putOsc_keel (d : Dev) (n : Nat) (x : Osc) : (d.putOsc n x).keel = d.keel := rfl
@[simp] theorem Dev.putOsc_log (d : Dev) (n : Nat) (x : Osc) : (d.putOsc n x).log = d.log := rfl
@[simp] theorem Dev.putOsc_pwr (d : Dev) (n : Nat) (x : Osc) : (d.putOsc n x).pwr = d.pwr := rfl
@[simp] theorem Dev.putOsc_host (d : Dev) (n : Nat) (x : Osc) : (d.putOsc n x).host = d.host := rfl
@[simp] theorem Dev.putOsc_fused (d : Dev) (n : Nat) (x : Osc) : (d.putOsc n x).fused = d.fused := rfl
@[simp] theorem Dev.putOsc_trust (d : Dev) (n : Nat) (x : Osc) : (d.putOsc n x).trust = d.trust := rfl
@[simp] theorem Dev.putOsc_mon (d : Dev) (n : Nat) (x : Osc) : (d.putOsc n x).mon = d.mon := rfl
@[simp] theorem Dev.putOsc_bist (d : Dev) (n : Nat) (x : Osc) : (d.putOsc n x).bist = d.bist := rfl
@[simp] theorem Dev.putOsc_dma (d : Dev) (n : Nat) (x : Osc) : (d.putOsc n x).dma = d.dma := rfl
@[simp] theorem Dev.putOsc_chk (d : Dev) (n : Nat) (x : Osc) : (d.putOsc n x).chk = d.chk := rfl
@[simp] theorem Dev.putOsc_memc (d : Dev) (n : Nat) (x : Osc) : (d.putOsc n x).memc = d.memc := rfl
@[simp] theorem Dev.putOsc_fresh (d : Dev) (n : Nat) (x : Osc) : (d.putOsc n x).fresh = d.fresh := rfl
@[simp] theorem Dev.get_putOsc (d : Dev) (n : Nat) (x : Osc) (g : Field) : (d.putOsc n x).get g = d.get g := rfl
@[simp] theorem Dev.trkAt_putOsc (d : Dev) (n : Nat) (x : Osc) (k : Nat) : (d.putOsc n x).trkAt k = d.trkAt k := rfl
@[simp] theorem Dev.cntAt_putOsc (d : Dev) (n : Nat) (x : Osc) (k : Nat) : (d.putOsc n x).cntAt k = d.cntAt k := rfl
@[simp] theorem Dev.listAt_putOsc (d : Dev) (n : Nat) (x : Osc) (k : Nat) : (d.putOsc n x).listAt k = d.listAt k := rfl
@[simp] theorem Dev.chAt_putOsc (d : Dev) (n : Nat) (x : Osc) (k : Nat) : (d.putOsc n x).chAt k = d.chAt k := rfl
@[simp] theorem Dev.synAt_putOsc (d : Dev) (n : Nat) (x : Osc) (k : Nat) : (d.putOsc n x).synAt k = d.synAt k := rfl
@[simp] theorem Dev.gateAt_putOsc (d : Dev) (n : Nat) (x : Osc) (k : Nat) : (d.putOsc n x).gateAt k = d.gateAt k := rfl
@[simp] theorem Dev.ceAt_putOsc (d : Dev) (n : Nat) (x : Osc) (k : Nat) : (d.putOsc n x).ceAt k = d.ceAt k := rfl
@[simp] theorem Dev.peAt_putOsc (d : Dev) (n : Nat) (x : Osc) (k : Nat) : (d.putOsc n x).peAt k = d.peAt k := rfl
@[simp] theorem Dev.dmaAt_putOsc (d : Dev) (n : Nat) (x : Osc) (k : Nat) : (d.putOsc n x).dmaAt k = d.dmaAt k := rfl
@[simp] theorem Dev.ethAt_putOsc (d : Dev) (n : Nat) (x : Osc) (k : Nat) : (d.putOsc n x).ethAt k = d.ethAt k := rfl
@[simp] theorem Dev.cport_putOsc (d : Dev) (n : Nat) (x : Osc) (k : Nat) : (d.putOsc n x).cport k = d.cport k := rfl
@[simp] theorem Dev.ctxAt_putOsc (d : Dev) (n : Nat) (x : Osc) (k : Nat) : (d.putOsc n x).ctxAt k = d.ctxAt k := rfl

/-! ### `Dev.putCe` -/

@[simp] theorem Dev.putCe_regs (d : Dev) (n : Nat) (x : Ce) : (d.putCe n x).regs = d.regs := rfl
@[simp] theorem Dev.putCe_cyc (d : Dev) (n : Nat) (x : Ce) : (d.putCe n x).cyc = d.cyc := rfl
@[simp] theorem Dev.putCe_latch (d : Dev) (n : Nat) (x : Ce) : (d.putCe n x).latch = d.latch := rfl
@[simp] theorem Dev.putCe_readOut (d : Dev) (n : Nat) (x : Ce) : (d.putCe n x).readOut = d.readOut := rfl
@[simp] theorem Dev.putCe_clock (d : Dev) (n : Nat) (x : Ce) : (d.putCe n x).clock = d.clock := rfl
@[simp] theorem Dev.putCe_fab (d : Dev) (n : Nat) (x : Ce) : (d.putCe n x).fab = d.fab := rfl
@[simp] theorem Dev.putCe_mem (d : Dev) (n : Nat) (x : Ce) : (d.putCe n x).mem = d.mem := rfl
@[simp] theorem Dev.putCe_tb (d : Dev) (n : Nat) (x : Ce) : (d.putCe n x).tb = d.tb := rfl
@[simp] theorem Dev.putCe_trk (d : Dev) (n : Nat) (x : Ce) : (d.putCe n x).trk = d.trk := rfl
@[simp] theorem Dev.putCe_cnt (d : Dev) (n : Nat) (x : Ce) : (d.putCe n x).cnt = d.cnt := rfl
@[simp] theorem Dev.putCe_cox (d : Dev) (n : Nat) (x : Ce) : (d.putCe n x).cox = d.cox := rfl
@[simp] theorem Dev.putCe_ch (d : Dev) (n : Nat) (x : Ce) : (d.putCe n x).ch = d.ch := rfl
@[simp] theorem Dev.putCe_syn (d : Dev) (n : Nat) (x : Ce) : (d.putCe n x).syn = d.syn := rfl
@[simp] theorem Dev.putCe_gate (d : Dev) (n : Nat) (x : Ce) : (d.putCe n x).gate = d.gate := rfl
@[simp] theorem Dev.putCe_pe (d : Dev) (n : Nat) (x : Ce) : (d.putCe n x).pe = d.pe := rfl
@[simp] theorem Dev.putCe_peBall (d : Dev) (n : Nat) (x : Ce) : (d.putCe n x).peBall = d.peBall := rfl
@[simp] theorem Dev.putCe_gflagBy (d : Dev) (n : Nat) (x : Ce) : (d.putCe n x).gflagBy = d.gflagBy := rfl
@[simp] theorem Dev.putCe_sync (d : Dev) (n : Nat) (x : Ce) : (d.putCe n x).sync = d.sync := rfl
@[simp] theorem Dev.putCe_tap (d : Dev) (n : Nat) (x : Ce) : (d.putCe n x).tap = d.tap := rfl
@[simp] theorem Dev.putCe_rig (d : Dev) (n : Nat) (x : Ce) : (d.putCe n x).rig = d.rig := rfl
@[simp] theorem Dev.putCe_txn (d : Dev) (n : Nat) (x : Ce) : (d.putCe n x).txn = d.txn := rfl
@[simp] theorem Dev.putCe_crew (d : Dev) (n : Nat) (x : Ce) : (d.putCe n x).crew = d.crew := rfl
@[simp] theorem Dev.putCe_eth (d : Dev) (n : Nat) (x : Ce) : (d.putCe n x).eth = d.eth := rfl
@[simp] theorem Dev.putCe_ethSent (d : Dev) (n : Nat) (x : Ce) : (d.putCe n x).ethSent = d.ethSent := rfl
@[simp] theorem Dev.putCe_ethFwd (d : Dev) (n : Nat) (x : Ce) : (d.putCe n x).ethFwd = d.ethFwd := rfl
@[simp] theorem Dev.putCe_irq (d : Dev) (n : Nat) (x : Ce) : (d.putCe n x).irq = d.irq := rfl
@[simp] theorem Dev.putCe_keel (d : Dev) (n : Nat) (x : Ce) : (d.putCe n x).keel = d.keel := rfl
@[simp] theorem Dev.putCe_log (d : Dev) (n : Nat) (x : Ce) : (d.putCe n x).log = d.log := rfl
@[simp] theorem Dev.putCe_pwr (d : Dev) (n : Nat) (x : Ce) : (d.putCe n x).pwr = d.pwr := rfl
@[simp] theorem Dev.putCe_host (d : Dev) (n : Nat) (x : Ce) : (d.putCe n x).host = d.host := rfl
@[simp] theorem Dev.putCe_fused (d : Dev) (n : Nat) (x : Ce) : (d.putCe n x).fused = d.fused := rfl
@[simp] theorem Dev.putCe_trust (d : Dev) (n : Nat) (x : Ce) : (d.putCe n x).trust = d.trust := rfl
@[simp] theorem Dev.putCe_mon (d : Dev) (n : Nat) (x : Ce) : (d.putCe n x).mon = d.mon := rfl
@[simp] theorem Dev.putCe_bist (d : Dev) (n : Nat) (x : Ce) : (d.putCe n x).bist = d.bist := rfl
@[simp] theorem Dev.putCe_dma (d : Dev) (n : Nat) (x : Ce) : (d.putCe n x).dma = d.dma := rfl
@[simp] theorem Dev.putCe_chk (d : Dev) (n : Nat) (x : Ce) : (d.putCe n x).chk = d.chk := rfl
@[simp] theorem Dev.putCe_memc (d : Dev) (n : Nat) (x : Ce) : (d.putCe n x).memc = d.memc := rfl
@[simp] theorem Dev.putCe_fresh (d : Dev) (n : Nat) (x : Ce) : (d.putCe n x).fresh = d.fresh := rfl
@[simp] theorem Dev.get_putCe (d : Dev) (n : Nat) (x : Ce) (g : Field) : (d.putCe n x).get g = d.get g := rfl
@[simp] theorem Dev.trkAt_putCe (d : Dev) (n : Nat) (x : Ce) (k : Nat) : (d.putCe n x).trkAt k = d.trkAt k := rfl
@[simp] theorem Dev.cntAt_putCe (d : Dev) (n : Nat) (x : Ce) (k : Nat) : (d.putCe n x).cntAt k = d.cntAt k := rfl
@[simp] theorem Dev.listAt_putCe (d : Dev) (n : Nat) (x : Ce) (k : Nat) : (d.putCe n x).listAt k = d.listAt k := rfl
@[simp] theorem Dev.chAt_putCe (d : Dev) (n : Nat) (x : Ce) (k : Nat) : (d.putCe n x).chAt k = d.chAt k := rfl
@[simp] theorem Dev.synAt_putCe (d : Dev) (n : Nat) (x : Ce) (k : Nat) : (d.putCe n x).synAt k = d.synAt k := rfl
@[simp] theorem Dev.gateAt_putCe (d : Dev) (n : Nat) (x : Ce) (k : Nat) : (d.putCe n x).gateAt k = d.gateAt k := rfl
@[simp] theorem Dev.oscAt_putCe (d : Dev) (n : Nat) (x : Ce) (k : Nat) : (d.putCe n x).oscAt k = d.oscAt k := rfl
@[simp] theorem Dev.peAt_putCe (d : Dev) (n : Nat) (x : Ce) (k : Nat) : (d.putCe n x).peAt k = d.peAt k := rfl
@[simp] theorem Dev.dmaAt_putCe (d : Dev) (n : Nat) (x : Ce) (k : Nat) : (d.putCe n x).dmaAt k = d.dmaAt k := rfl
@[simp] theorem Dev.ethAt_putCe (d : Dev) (n : Nat) (x : Ce) (k : Nat) : (d.putCe n x).ethAt k = d.ethAt k := rfl
@[simp] theorem Dev.cport_putCe (d : Dev) (n : Nat) (x : Ce) (k : Nat) : (d.putCe n x).cport k = d.cport k := rfl
@[simp] theorem Dev.ctxAt_putCe (d : Dev) (n : Nat) (x : Ce) (k : Nat) : (d.putCe n x).ctxAt k = d.ctxAt k := rfl

/-! ### `Dev.putPe` -/

@[simp] theorem Dev.putPe_regs (d : Dev) (n : Nat) (x : Pe) : (d.putPe n x).regs = d.regs := rfl
@[simp] theorem Dev.putPe_cyc (d : Dev) (n : Nat) (x : Pe) : (d.putPe n x).cyc = d.cyc := rfl
@[simp] theorem Dev.putPe_latch (d : Dev) (n : Nat) (x : Pe) : (d.putPe n x).latch = d.latch := rfl
@[simp] theorem Dev.putPe_readOut (d : Dev) (n : Nat) (x : Pe) : (d.putPe n x).readOut = d.readOut := rfl
@[simp] theorem Dev.putPe_clock (d : Dev) (n : Nat) (x : Pe) : (d.putPe n x).clock = d.clock := rfl
@[simp] theorem Dev.putPe_fab (d : Dev) (n : Nat) (x : Pe) : (d.putPe n x).fab = d.fab := rfl
@[simp] theorem Dev.putPe_mem (d : Dev) (n : Nat) (x : Pe) : (d.putPe n x).mem = d.mem := rfl
@[simp] theorem Dev.putPe_tb (d : Dev) (n : Nat) (x : Pe) : (d.putPe n x).tb = d.tb := rfl
@[simp] theorem Dev.putPe_trk (d : Dev) (n : Nat) (x : Pe) : (d.putPe n x).trk = d.trk := rfl
@[simp] theorem Dev.putPe_cnt (d : Dev) (n : Nat) (x : Pe) : (d.putPe n x).cnt = d.cnt := rfl
@[simp] theorem Dev.putPe_cox (d : Dev) (n : Nat) (x : Pe) : (d.putPe n x).cox = d.cox := rfl
@[simp] theorem Dev.putPe_ch (d : Dev) (n : Nat) (x : Pe) : (d.putPe n x).ch = d.ch := rfl
@[simp] theorem Dev.putPe_syn (d : Dev) (n : Nat) (x : Pe) : (d.putPe n x).syn = d.syn := rfl
@[simp] theorem Dev.putPe_gate (d : Dev) (n : Nat) (x : Pe) : (d.putPe n x).gate = d.gate := rfl
@[simp] theorem Dev.putPe_ce (d : Dev) (n : Nat) (x : Pe) : (d.putPe n x).ce = d.ce := rfl
@[simp] theorem Dev.putPe_peBall (d : Dev) (n : Nat) (x : Pe) : (d.putPe n x).peBall = d.peBall := rfl
@[simp] theorem Dev.putPe_gflagBy (d : Dev) (n : Nat) (x : Pe) : (d.putPe n x).gflagBy = d.gflagBy := rfl
@[simp] theorem Dev.putPe_sync (d : Dev) (n : Nat) (x : Pe) : (d.putPe n x).sync = d.sync := rfl
@[simp] theorem Dev.putPe_tap (d : Dev) (n : Nat) (x : Pe) : (d.putPe n x).tap = d.tap := rfl
@[simp] theorem Dev.putPe_rig (d : Dev) (n : Nat) (x : Pe) : (d.putPe n x).rig = d.rig := rfl
@[simp] theorem Dev.putPe_txn (d : Dev) (n : Nat) (x : Pe) : (d.putPe n x).txn = d.txn := rfl
@[simp] theorem Dev.putPe_crew (d : Dev) (n : Nat) (x : Pe) : (d.putPe n x).crew = d.crew := rfl
@[simp] theorem Dev.putPe_eth (d : Dev) (n : Nat) (x : Pe) : (d.putPe n x).eth = d.eth := rfl
@[simp] theorem Dev.putPe_ethSent (d : Dev) (n : Nat) (x : Pe) : (d.putPe n x).ethSent = d.ethSent := rfl
@[simp] theorem Dev.putPe_ethFwd (d : Dev) (n : Nat) (x : Pe) : (d.putPe n x).ethFwd = d.ethFwd := rfl
@[simp] theorem Dev.putPe_irq (d : Dev) (n : Nat) (x : Pe) : (d.putPe n x).irq = d.irq := rfl
@[simp] theorem Dev.putPe_keel (d : Dev) (n : Nat) (x : Pe) : (d.putPe n x).keel = d.keel := rfl
@[simp] theorem Dev.putPe_log (d : Dev) (n : Nat) (x : Pe) : (d.putPe n x).log = d.log := rfl
@[simp] theorem Dev.putPe_pwr (d : Dev) (n : Nat) (x : Pe) : (d.putPe n x).pwr = d.pwr := rfl
@[simp] theorem Dev.putPe_host (d : Dev) (n : Nat) (x : Pe) : (d.putPe n x).host = d.host := rfl
@[simp] theorem Dev.putPe_fused (d : Dev) (n : Nat) (x : Pe) : (d.putPe n x).fused = d.fused := rfl
@[simp] theorem Dev.putPe_trust (d : Dev) (n : Nat) (x : Pe) : (d.putPe n x).trust = d.trust := rfl
@[simp] theorem Dev.putPe_mon (d : Dev) (n : Nat) (x : Pe) : (d.putPe n x).mon = d.mon := rfl
@[simp] theorem Dev.putPe_bist (d : Dev) (n : Nat) (x : Pe) : (d.putPe n x).bist = d.bist := rfl
@[simp] theorem Dev.putPe_dma (d : Dev) (n : Nat) (x : Pe) : (d.putPe n x).dma = d.dma := rfl
@[simp] theorem Dev.putPe_chk (d : Dev) (n : Nat) (x : Pe) : (d.putPe n x).chk = d.chk := rfl
@[simp] theorem Dev.putPe_memc (d : Dev) (n : Nat) (x : Pe) : (d.putPe n x).memc = d.memc := rfl
@[simp] theorem Dev.putPe_fresh (d : Dev) (n : Nat) (x : Pe) : (d.putPe n x).fresh = d.fresh := rfl
@[simp] theorem Dev.get_putPe (d : Dev) (n : Nat) (x : Pe) (g : Field) : (d.putPe n x).get g = d.get g := rfl
@[simp] theorem Dev.trkAt_putPe (d : Dev) (n : Nat) (x : Pe) (k : Nat) : (d.putPe n x).trkAt k = d.trkAt k := rfl
@[simp] theorem Dev.cntAt_putPe (d : Dev) (n : Nat) (x : Pe) (k : Nat) : (d.putPe n x).cntAt k = d.cntAt k := rfl
@[simp] theorem Dev.listAt_putPe (d : Dev) (n : Nat) (x : Pe) (k : Nat) : (d.putPe n x).listAt k = d.listAt k := rfl
@[simp] theorem Dev.chAt_putPe (d : Dev) (n : Nat) (x : Pe) (k : Nat) : (d.putPe n x).chAt k = d.chAt k := rfl
@[simp] theorem Dev.synAt_putPe (d : Dev) (n : Nat) (x : Pe) (k : Nat) : (d.putPe n x).synAt k = d.synAt k := rfl
@[simp] theorem Dev.gateAt_putPe (d : Dev) (n : Nat) (x : Pe) (k : Nat) : (d.putPe n x).gateAt k = d.gateAt k := rfl
@[simp] theorem Dev.oscAt_putPe (d : Dev) (n : Nat) (x : Pe) (k : Nat) : (d.putPe n x).oscAt k = d.oscAt k := rfl
@[simp] theorem Dev.ceAt_putPe (d : Dev) (n : Nat) (x : Pe) (k : Nat) : (d.putPe n x).ceAt k = d.ceAt k := rfl
@[simp] theorem Dev.dmaAt_putPe (d : Dev) (n : Nat) (x : Pe) (k : Nat) : (d.putPe n x).dmaAt k = d.dmaAt k := rfl
@[simp] theorem Dev.ethAt_putPe (d : Dev) (n : Nat) (x : Pe) (k : Nat) : (d.putPe n x).ethAt k = d.ethAt k := rfl
@[simp] theorem Dev.cport_putPe (d : Dev) (n : Nat) (x : Pe) (k : Nat) : (d.putPe n x).cport k = d.cport k := rfl
@[simp] theorem Dev.ctxAt_putPe (d : Dev) (n : Nat) (x : Pe) (k : Nat) : (d.putPe n x).ctxAt k = d.ctxAt k := rfl

/-! ### `Dev.putCtx` -/

@[simp] theorem Dev.putCtx_regs (d : Dev) (n : Nat) (x : Ctx) : (d.putCtx n x).regs = d.regs := rfl
@[simp] theorem Dev.putCtx_cyc (d : Dev) (n : Nat) (x : Ctx) : (d.putCtx n x).cyc = d.cyc := rfl
@[simp] theorem Dev.putCtx_latch (d : Dev) (n : Nat) (x : Ctx) : (d.putCtx n x).latch = d.latch := rfl
@[simp] theorem Dev.putCtx_readOut (d : Dev) (n : Nat) (x : Ctx) : (d.putCtx n x).readOut = d.readOut := rfl
@[simp] theorem Dev.putCtx_clock (d : Dev) (n : Nat) (x : Ctx) : (d.putCtx n x).clock = d.clock := rfl
@[simp] theorem Dev.putCtx_fab (d : Dev) (n : Nat) (x : Ctx) : (d.putCtx n x).fab = d.fab := rfl
@[simp] theorem Dev.putCtx_mem (d : Dev) (n : Nat) (x : Ctx) : (d.putCtx n x).mem = d.mem := rfl
@[simp] theorem Dev.putCtx_tb (d : Dev) (n : Nat) (x : Ctx) : (d.putCtx n x).tb = d.tb := rfl
@[simp] theorem Dev.putCtx_trk (d : Dev) (n : Nat) (x : Ctx) : (d.putCtx n x).trk = d.trk := rfl
@[simp] theorem Dev.putCtx_cnt (d : Dev) (n : Nat) (x : Ctx) : (d.putCtx n x).cnt = d.cnt := rfl
@[simp] theorem Dev.putCtx_cox (d : Dev) (n : Nat) (x : Ctx) : (d.putCtx n x).cox = d.cox := rfl
@[simp] theorem Dev.putCtx_ch (d : Dev) (n : Nat) (x : Ctx) : (d.putCtx n x).ch = d.ch := rfl
@[simp] theorem Dev.putCtx_syn (d : Dev) (n : Nat) (x : Ctx) : (d.putCtx n x).syn = d.syn := rfl
@[simp] theorem Dev.putCtx_gate (d : Dev) (n : Nat) (x : Ctx) : (d.putCtx n x).gate = d.gate := rfl
@[simp] theorem Dev.putCtx_ce (d : Dev) (n : Nat) (x : Ctx) : (d.putCtx n x).ce = d.ce := rfl
@[simp] theorem Dev.putCtx_pe (d : Dev) (n : Nat) (x : Ctx) : (d.putCtx n x).pe = d.pe := rfl
@[simp] theorem Dev.putCtx_peBall (d : Dev) (n : Nat) (x : Ctx) : (d.putCtx n x).peBall = d.peBall := rfl
@[simp] theorem Dev.putCtx_gflagBy (d : Dev) (n : Nat) (x : Ctx) : (d.putCtx n x).gflagBy = d.gflagBy := rfl
@[simp] theorem Dev.putCtx_sync (d : Dev) (n : Nat) (x : Ctx) : (d.putCtx n x).sync = d.sync := rfl
@[simp] theorem Dev.putCtx_tap (d : Dev) (n : Nat) (x : Ctx) : (d.putCtx n x).tap = d.tap := rfl
@[simp] theorem Dev.putCtx_rig (d : Dev) (n : Nat) (x : Ctx) : (d.putCtx n x).rig = d.rig := rfl
@[simp] theorem Dev.putCtx_crew (d : Dev) (n : Nat) (x : Ctx) : (d.putCtx n x).crew = d.crew := rfl
@[simp] theorem Dev.putCtx_eth (d : Dev) (n : Nat) (x : Ctx) : (d.putCtx n x).eth = d.eth := rfl
@[simp] theorem Dev.putCtx_ethSent (d : Dev) (n : Nat) (x : Ctx) : (d.putCtx n x).ethSent = d.ethSent := rfl
@[simp] theorem Dev.putCtx_ethFwd (d : Dev) (n : Nat) (x : Ctx) : (d.putCtx n x).ethFwd = d.ethFwd := rfl
@[simp] theorem Dev.putCtx_irq (d : Dev) (n : Nat) (x : Ctx) : (d.putCtx n x).irq = d.irq := rfl
@[simp] theorem Dev.putCtx_keel (d : Dev) (n : Nat) (x : Ctx) : (d.putCtx n x).keel = d.keel := rfl
@[simp] theorem Dev.putCtx_log (d : Dev) (n : Nat) (x : Ctx) : (d.putCtx n x).log = d.log := rfl
@[simp] theorem Dev.putCtx_pwr (d : Dev) (n : Nat) (x : Ctx) : (d.putCtx n x).pwr = d.pwr := rfl
@[simp] theorem Dev.putCtx_host (d : Dev) (n : Nat) (x : Ctx) : (d.putCtx n x).host = d.host := rfl
@[simp] theorem Dev.putCtx_fused (d : Dev) (n : Nat) (x : Ctx) : (d.putCtx n x).fused = d.fused := rfl
@[simp] theorem Dev.putCtx_trust (d : Dev) (n : Nat) (x : Ctx) : (d.putCtx n x).trust = d.trust := rfl
@[simp] theorem Dev.putCtx_mon (d : Dev) (n : Nat) (x : Ctx) : (d.putCtx n x).mon = d.mon := rfl
@[simp] theorem Dev.putCtx_bist (d : Dev) (n : Nat) (x : Ctx) : (d.putCtx n x).bist = d.bist := rfl
@[simp] theorem Dev.putCtx_dma (d : Dev) (n : Nat) (x : Ctx) : (d.putCtx n x).dma = d.dma := rfl
@[simp] theorem Dev.putCtx_chk (d : Dev) (n : Nat) (x : Ctx) : (d.putCtx n x).chk = d.chk := rfl
@[simp] theorem Dev.putCtx_memc (d : Dev) (n : Nat) (x : Ctx) : (d.putCtx n x).memc = d.memc := rfl
@[simp] theorem Dev.putCtx_fresh (d : Dev) (n : Nat) (x : Ctx) : (d.putCtx n x).fresh = d.fresh := rfl
@[simp] theorem Dev.get_putCtx (d : Dev) (n : Nat) (x : Ctx) (g : Field) : (d.putCtx n x).get g = d.get g := rfl
@[simp] theorem Dev.trkAt_putCtx (d : Dev) (n : Nat) (x : Ctx) (k : Nat) : (d.putCtx n x).trkAt k = d.trkAt k := rfl
@[simp] theorem Dev.cntAt_putCtx (d : Dev) (n : Nat) (x : Ctx) (k : Nat) : (d.putCtx n x).cntAt k = d.cntAt k := rfl
@[simp] theorem Dev.listAt_putCtx (d : Dev) (n : Nat) (x : Ctx) (k : Nat) : (d.putCtx n x).listAt k = d.listAt k := rfl
@[simp] theorem Dev.chAt_putCtx (d : Dev) (n : Nat) (x : Ctx) (k : Nat) : (d.putCtx n x).chAt k = d.chAt k := rfl
@[simp] theorem Dev.synAt_putCtx (d : Dev) (n : Nat) (x : Ctx) (k : Nat) : (d.putCtx n x).synAt k = d.synAt k := rfl
@[simp] theorem Dev.gateAt_putCtx (d : Dev) (n : Nat) (x : Ctx) (k : Nat) : (d.putCtx n x).gateAt k = d.gateAt k := rfl
@[simp] theorem Dev.oscAt_putCtx (d : Dev) (n : Nat) (x : Ctx) (k : Nat) : (d.putCtx n x).oscAt k = d.oscAt k := rfl
@[simp] theorem Dev.ceAt_putCtx (d : Dev) (n : Nat) (x : Ctx) (k : Nat) : (d.putCtx n x).ceAt k = d.ceAt k := rfl
@[simp] theorem Dev.peAt_putCtx (d : Dev) (n : Nat) (x : Ctx) (k : Nat) : (d.putCtx n x).peAt k = d.peAt k := rfl
@[simp] theorem Dev.dmaAt_putCtx (d : Dev) (n : Nat) (x : Ctx) (k : Nat) : (d.putCtx n x).dmaAt k = d.dmaAt k := rfl
@[simp] theorem Dev.ethAt_putCtx (d : Dev) (n : Nat) (x : Ctx) (k : Nat) : (d.putCtx n x).ethAt k = d.ethAt k := rfl
@[simp] theorem Dev.cport_putCtx (d : Dev) (n : Nat) (x : Ctx) (k : Nat) : (d.putCtx n x).cport k = d.cport k := rfl

/-! ### `Dev.putDma` -/

@[simp] theorem Dev.putDma_regs (d : Dev) (n : Nat) (x : Dma) : (d.putDma n x).regs = d.regs := rfl
@[simp] theorem Dev.putDma_cyc (d : Dev) (n : Nat) (x : Dma) : (d.putDma n x).cyc = d.cyc := rfl
@[simp] theorem Dev.putDma_latch (d : Dev) (n : Nat) (x : Dma) : (d.putDma n x).latch = d.latch := rfl
@[simp] theorem Dev.putDma_readOut (d : Dev) (n : Nat) (x : Dma) : (d.putDma n x).readOut = d.readOut := rfl
@[simp] theorem Dev.putDma_clock (d : Dev) (n : Nat) (x : Dma) : (d.putDma n x).clock = d.clock := rfl
@[simp] theorem Dev.putDma_fab (d : Dev) (n : Nat) (x : Dma) : (d.putDma n x).fab = d.fab := rfl
@[simp] theorem Dev.putDma_mem (d : Dev) (n : Nat) (x : Dma) : (d.putDma n x).mem = d.mem := rfl
@[simp] theorem Dev.putDma_tb (d : Dev) (n : Nat) (x : Dma) : (d.putDma n x).tb = d.tb := rfl
@[simp] theorem Dev.putDma_trk (d : Dev) (n : Nat) (x : Dma) : (d.putDma n x).trk = d.trk := rfl
@[simp] theorem Dev.putDma_cnt (d : Dev) (n : Nat) (x : Dma) : (d.putDma n x).cnt = d.cnt := rfl
@[simp] theorem Dev.putDma_cox (d : Dev) (n : Nat) (x : Dma) : (d.putDma n x).cox = d.cox := rfl
@[simp] theorem Dev.putDma_ch (d : Dev) (n : Nat) (x : Dma) : (d.putDma n x).ch = d.ch := rfl
@[simp] theorem Dev.putDma_syn (d : Dev) (n : Nat) (x : Dma) : (d.putDma n x).syn = d.syn := rfl
@[simp] theorem Dev.putDma_gate (d : Dev) (n : Nat) (x : Dma) : (d.putDma n x).gate = d.gate := rfl
@[simp] theorem Dev.putDma_ce (d : Dev) (n : Nat) (x : Dma) : (d.putDma n x).ce = d.ce := rfl
@[simp] theorem Dev.putDma_pe (d : Dev) (n : Nat) (x : Dma) : (d.putDma n x).pe = d.pe := rfl
@[simp] theorem Dev.putDma_peBall (d : Dev) (n : Nat) (x : Dma) : (d.putDma n x).peBall = d.peBall := rfl
@[simp] theorem Dev.putDma_gflagBy (d : Dev) (n : Nat) (x : Dma) : (d.putDma n x).gflagBy = d.gflagBy := rfl
@[simp] theorem Dev.putDma_sync (d : Dev) (n : Nat) (x : Dma) : (d.putDma n x).sync = d.sync := rfl
@[simp] theorem Dev.putDma_tap (d : Dev) (n : Nat) (x : Dma) : (d.putDma n x).tap = d.tap := rfl
@[simp] theorem Dev.putDma_rig (d : Dev) (n : Nat) (x : Dma) : (d.putDma n x).rig = d.rig := rfl
@[simp] theorem Dev.putDma_txn (d : Dev) (n : Nat) (x : Dma) : (d.putDma n x).txn = d.txn := rfl
@[simp] theorem Dev.putDma_crew (d : Dev) (n : Nat) (x : Dma) : (d.putDma n x).crew = d.crew := rfl
@[simp] theorem Dev.putDma_eth (d : Dev) (n : Nat) (x : Dma) : (d.putDma n x).eth = d.eth := rfl
@[simp] theorem Dev.putDma_ethSent (d : Dev) (n : Nat) (x : Dma) : (d.putDma n x).ethSent = d.ethSent := rfl
@[simp] theorem Dev.putDma_ethFwd (d : Dev) (n : Nat) (x : Dma) : (d.putDma n x).ethFwd = d.ethFwd := rfl
@[simp] theorem Dev.putDma_irq (d : Dev) (n : Nat) (x : Dma) : (d.putDma n x).irq = d.irq := rfl
@[simp] theorem Dev.putDma_keel (d : Dev) (n : Nat) (x : Dma) : (d.putDma n x).keel = d.keel := rfl
@[simp] theorem Dev.putDma_log (d : Dev) (n : Nat) (x : Dma) : (d.putDma n x).log = d.log := rfl
@[simp] theorem Dev.putDma_pwr (d : Dev) (n : Nat) (x : Dma) : (d.putDma n x).pwr = d.pwr := rfl
@[simp] theorem Dev.putDma_host (d : Dev) (n : Nat) (x : Dma) : (d.putDma n x).host = d.host := rfl
@[simp] theorem Dev.putDma_fused (d : Dev) (n : Nat) (x : Dma) : (d.putDma n x).fused = d.fused := rfl
@[simp] theorem Dev.putDma_trust (d : Dev) (n : Nat) (x : Dma) : (d.putDma n x).trust = d.trust := rfl
@[simp] theorem Dev.putDma_mon (d : Dev) (n : Nat) (x : Dma) : (d.putDma n x).mon = d.mon := rfl
@[simp] theorem Dev.putDma_bist (d : Dev) (n : Nat) (x : Dma) : (d.putDma n x).bist = d.bist := rfl
@[simp] theorem Dev.putDma_chk (d : Dev) (n : Nat) (x : Dma) : (d.putDma n x).chk = d.chk := rfl
@[simp] theorem Dev.putDma_memc (d : Dev) (n : Nat) (x : Dma) : (d.putDma n x).memc = d.memc := rfl
@[simp] theorem Dev.putDma_fresh (d : Dev) (n : Nat) (x : Dma) : (d.putDma n x).fresh = d.fresh := rfl
@[simp] theorem Dev.get_putDma (d : Dev) (n : Nat) (x : Dma) (g : Field) : (d.putDma n x).get g = d.get g := rfl
@[simp] theorem Dev.trkAt_putDma (d : Dev) (n : Nat) (x : Dma) (k : Nat) : (d.putDma n x).trkAt k = d.trkAt k := rfl
@[simp] theorem Dev.cntAt_putDma (d : Dev) (n : Nat) (x : Dma) (k : Nat) : (d.putDma n x).cntAt k = d.cntAt k := rfl
@[simp] theorem Dev.listAt_putDma (d : Dev) (n : Nat) (x : Dma) (k : Nat) : (d.putDma n x).listAt k = d.listAt k := rfl
@[simp] theorem Dev.chAt_putDma (d : Dev) (n : Nat) (x : Dma) (k : Nat) : (d.putDma n x).chAt k = d.chAt k := rfl
@[simp] theorem Dev.synAt_putDma (d : Dev) (n : Nat) (x : Dma) (k : Nat) : (d.putDma n x).synAt k = d.synAt k := rfl
@[simp] theorem Dev.gateAt_putDma (d : Dev) (n : Nat) (x : Dma) (k : Nat) : (d.putDma n x).gateAt k = d.gateAt k := rfl
@[simp] theorem Dev.oscAt_putDma (d : Dev) (n : Nat) (x : Dma) (k : Nat) : (d.putDma n x).oscAt k = d.oscAt k := rfl
@[simp] theorem Dev.ceAt_putDma (d : Dev) (n : Nat) (x : Dma) (k : Nat) : (d.putDma n x).ceAt k = d.ceAt k := rfl
@[simp] theorem Dev.peAt_putDma (d : Dev) (n : Nat) (x : Dma) (k : Nat) : (d.putDma n x).peAt k = d.peAt k := rfl
@[simp] theorem Dev.ethAt_putDma (d : Dev) (n : Nat) (x : Dma) (k : Nat) : (d.putDma n x).ethAt k = d.ethAt k := rfl
@[simp] theorem Dev.cport_putDma (d : Dev) (n : Nat) (x : Dma) (k : Nat) : (d.putDma n x).cport k = d.cport k := rfl
@[simp] theorem Dev.ctxAt_putDma (d : Dev) (n : Nat) (x : Dma) (k : Nat) : (d.putDma n x).ctxAt k = d.ctxAt k := rfl

/-! ### `Dev.putScan` -/

@[simp] theorem Dev.putScan_regs (d : Dev) (n : Nat) (x : ChkScan) : (d.putScan n x).regs = d.regs := rfl
@[simp] theorem Dev.putScan_cyc (d : Dev) (n : Nat) (x : ChkScan) : (d.putScan n x).cyc = d.cyc := rfl
@[simp] theorem Dev.putScan_latch (d : Dev) (n : Nat) (x : ChkScan) : (d.putScan n x).latch = d.latch := rfl
@[simp] theorem Dev.putScan_readOut (d : Dev) (n : Nat) (x : ChkScan) : (d.putScan n x).readOut = d.readOut := rfl
@[simp] theorem Dev.putScan_clock (d : Dev) (n : Nat) (x : ChkScan) : (d.putScan n x).clock = d.clock := rfl
@[simp] theorem Dev.putScan_fab (d : Dev) (n : Nat) (x : ChkScan) : (d.putScan n x).fab = d.fab := rfl
@[simp] theorem Dev.putScan_mem (d : Dev) (n : Nat) (x : ChkScan) : (d.putScan n x).mem = d.mem := rfl
@[simp] theorem Dev.putScan_tb (d : Dev) (n : Nat) (x : ChkScan) : (d.putScan n x).tb = d.tb := rfl
@[simp] theorem Dev.putScan_trk (d : Dev) (n : Nat) (x : ChkScan) : (d.putScan n x).trk = d.trk := rfl
@[simp] theorem Dev.putScan_cnt (d : Dev) (n : Nat) (x : ChkScan) : (d.putScan n x).cnt = d.cnt := rfl
@[simp] theorem Dev.putScan_cox (d : Dev) (n : Nat) (x : ChkScan) : (d.putScan n x).cox = d.cox := rfl
@[simp] theorem Dev.putScan_ch (d : Dev) (n : Nat) (x : ChkScan) : (d.putScan n x).ch = d.ch := rfl
@[simp] theorem Dev.putScan_syn (d : Dev) (n : Nat) (x : ChkScan) : (d.putScan n x).syn = d.syn := rfl
@[simp] theorem Dev.putScan_gate (d : Dev) (n : Nat) (x : ChkScan) : (d.putScan n x).gate = d.gate := rfl
@[simp] theorem Dev.putScan_ce (d : Dev) (n : Nat) (x : ChkScan) : (d.putScan n x).ce = d.ce := rfl
@[simp] theorem Dev.putScan_pe (d : Dev) (n : Nat) (x : ChkScan) : (d.putScan n x).pe = d.pe := rfl
@[simp] theorem Dev.putScan_peBall (d : Dev) (n : Nat) (x : ChkScan) : (d.putScan n x).peBall = d.peBall := rfl
@[simp] theorem Dev.putScan_gflagBy (d : Dev) (n : Nat) (x : ChkScan) : (d.putScan n x).gflagBy = d.gflagBy := rfl
@[simp] theorem Dev.putScan_sync (d : Dev) (n : Nat) (x : ChkScan) : (d.putScan n x).sync = d.sync := rfl
@[simp] theorem Dev.putScan_tap (d : Dev) (n : Nat) (x : ChkScan) : (d.putScan n x).tap = d.tap := rfl
@[simp] theorem Dev.putScan_rig (d : Dev) (n : Nat) (x : ChkScan) : (d.putScan n x).rig = d.rig := rfl
@[simp] theorem Dev.putScan_txn (d : Dev) (n : Nat) (x : ChkScan) : (d.putScan n x).txn = d.txn := rfl
@[simp] theorem Dev.putScan_crew (d : Dev) (n : Nat) (x : ChkScan) : (d.putScan n x).crew = d.crew := rfl
@[simp] theorem Dev.putScan_eth (d : Dev) (n : Nat) (x : ChkScan) : (d.putScan n x).eth = d.eth := rfl
@[simp] theorem Dev.putScan_ethSent (d : Dev) (n : Nat) (x : ChkScan) : (d.putScan n x).ethSent = d.ethSent := rfl
@[simp] theorem Dev.putScan_ethFwd (d : Dev) (n : Nat) (x : ChkScan) : (d.putScan n x).ethFwd = d.ethFwd := rfl
@[simp] theorem Dev.putScan_irq (d : Dev) (n : Nat) (x : ChkScan) : (d.putScan n x).irq = d.irq := rfl
@[simp] theorem Dev.putScan_keel (d : Dev) (n : Nat) (x : ChkScan) : (d.putScan n x).keel = d.keel := rfl
@[simp] theorem Dev.putScan_log (d : Dev) (n : Nat) (x : ChkScan) : (d.putScan n x).log = d.log := rfl
@[simp] theorem Dev.putScan_pwr (d : Dev) (n : Nat) (x : ChkScan) : (d.putScan n x).pwr = d.pwr := rfl
@[simp] theorem Dev.putScan_host (d : Dev) (n : Nat) (x : ChkScan) : (d.putScan n x).host = d.host := rfl
@[simp] theorem Dev.putScan_fused (d : Dev) (n : Nat) (x : ChkScan) : (d.putScan n x).fused = d.fused := rfl
@[simp] theorem Dev.putScan_trust (d : Dev) (n : Nat) (x : ChkScan) : (d.putScan n x).trust = d.trust := rfl
@[simp] theorem Dev.putScan_mon (d : Dev) (n : Nat) (x : ChkScan) : (d.putScan n x).mon = d.mon := rfl
@[simp] theorem Dev.putScan_bist (d : Dev) (n : Nat) (x : ChkScan) : (d.putScan n x).bist = d.bist := rfl
@[simp] theorem Dev.putScan_dma (d : Dev) (n : Nat) (x : ChkScan) : (d.putScan n x).dma = d.dma := rfl
@[simp] theorem Dev.putScan_memc (d : Dev) (n : Nat) (x : ChkScan) : (d.putScan n x).memc = d.memc := rfl
@[simp] theorem Dev.putScan_fresh (d : Dev) (n : Nat) (x : ChkScan) : (d.putScan n x).fresh = d.fresh := rfl
@[simp] theorem Dev.get_putScan (d : Dev) (n : Nat) (x : ChkScan) (g : Field) : (d.putScan n x).get g = d.get g := rfl
@[simp] theorem Dev.trkAt_putScan (d : Dev) (n : Nat) (x : ChkScan) (k : Nat) : (d.putScan n x).trkAt k = d.trkAt k := rfl
@[simp] theorem Dev.cntAt_putScan (d : Dev) (n : Nat) (x : ChkScan) (k : Nat) : (d.putScan n x).cntAt k = d.cntAt k := rfl
@[simp] theorem Dev.listAt_putScan (d : Dev) (n : Nat) (x : ChkScan) (k : Nat) : (d.putScan n x).listAt k = d.listAt k := rfl
@[simp] theorem Dev.chAt_putScan (d : Dev) (n : Nat) (x : ChkScan) (k : Nat) : (d.putScan n x).chAt k = d.chAt k := rfl
@[simp] theorem Dev.synAt_putScan (d : Dev) (n : Nat) (x : ChkScan) (k : Nat) : (d.putScan n x).synAt k = d.synAt k := rfl
@[simp] theorem Dev.gateAt_putScan (d : Dev) (n : Nat) (x : ChkScan) (k : Nat) : (d.putScan n x).gateAt k = d.gateAt k := rfl
@[simp] theorem Dev.oscAt_putScan (d : Dev) (n : Nat) (x : ChkScan) (k : Nat) : (d.putScan n x).oscAt k = d.oscAt k := rfl
@[simp] theorem Dev.ceAt_putScan (d : Dev) (n : Nat) (x : ChkScan) (k : Nat) : (d.putScan n x).ceAt k = d.ceAt k := rfl
@[simp] theorem Dev.peAt_putScan (d : Dev) (n : Nat) (x : ChkScan) (k : Nat) : (d.putScan n x).peAt k = d.peAt k := rfl
@[simp] theorem Dev.dmaAt_putScan (d : Dev) (n : Nat) (x : ChkScan) (k : Nat) : (d.putScan n x).dmaAt k = d.dmaAt k := rfl
@[simp] theorem Dev.ethAt_putScan (d : Dev) (n : Nat) (x : ChkScan) (k : Nat) : (d.putScan n x).ethAt k = d.ethAt k := rfl
@[simp] theorem Dev.cport_putScan (d : Dev) (n : Nat) (x : ChkScan) (k : Nat) : (d.putScan n x).cport k = d.cport k := rfl
@[simp] theorem Dev.ctxAt_putScan (d : Dev) (n : Nat) (x : ChkScan) (k : Nat) : (d.putScan n x).ctxAt k = d.ctxAt k := rfl

/-! ### `Dev.putCport` -/

@[simp] theorem Dev.putCport_regs (d : Dev) (n : Nat) (x : CrewPort) : (d.putCport n x).regs = d.regs := rfl
@[simp] theorem Dev.putCport_cyc (d : Dev) (n : Nat) (x : CrewPort) : (d.putCport n x).cyc = d.cyc := rfl
@[simp] theorem Dev.putCport_latch (d : Dev) (n : Nat) (x : CrewPort) : (d.putCport n x).latch = d.latch := rfl
@[simp] theorem Dev.putCport_readOut (d : Dev) (n : Nat) (x : CrewPort) : (d.putCport n x).readOut = d.readOut := rfl
@[simp] theorem Dev.putCport_clock (d : Dev) (n : Nat) (x : CrewPort) : (d.putCport n x).clock = d.clock := rfl
@[simp] theorem Dev.putCport_fab (d : Dev) (n : Nat) (x : CrewPort) : (d.putCport n x).fab = d.fab := rfl
@[simp] theorem Dev.putCport_mem (d : Dev) (n : Nat) (x : CrewPort) : (d.putCport n x).mem = d.mem := rfl
@[simp] theorem Dev.putCport_tb (d : Dev) (n : Nat) (x : CrewPort) : (d.putCport n x).tb = d.tb := rfl
@[simp] theorem Dev.putCport_trk (d : Dev) (n : Nat) (x : CrewPort) : (d.putCport n x).trk = d.trk := rfl
@[simp] theorem Dev.putCport_cnt (d : Dev) (n : Nat) (x : CrewPort) : (d.putCport n x).cnt = d.cnt := rfl
@[simp] theorem Dev.putCport_cox (d : Dev) (n : Nat) (x : CrewPort) : (d.putCport n x).cox = d.cox := rfl
@[simp] theorem Dev.putCport_ch (d : Dev) (n : Nat) (x : CrewPort) : (d.putCport n x).ch = d.ch := rfl
@[simp] theorem Dev.putCport_syn (d : Dev) (n : Nat) (x : CrewPort) : (d.putCport n x).syn = d.syn := rfl
@[simp] theorem Dev.putCport_gate (d : Dev) (n : Nat) (x : CrewPort) : (d.putCport n x).gate = d.gate := rfl
@[simp] theorem Dev.putCport_ce (d : Dev) (n : Nat) (x : CrewPort) : (d.putCport n x).ce = d.ce := rfl
@[simp] theorem Dev.putCport_pe (d : Dev) (n : Nat) (x : CrewPort) : (d.putCport n x).pe = d.pe := rfl
@[simp] theorem Dev.putCport_peBall (d : Dev) (n : Nat) (x : CrewPort) : (d.putCport n x).peBall = d.peBall := rfl
@[simp] theorem Dev.putCport_gflagBy (d : Dev) (n : Nat) (x : CrewPort) : (d.putCport n x).gflagBy = d.gflagBy := rfl
@[simp] theorem Dev.putCport_sync (d : Dev) (n : Nat) (x : CrewPort) : (d.putCport n x).sync = d.sync := rfl
@[simp] theorem Dev.putCport_tap (d : Dev) (n : Nat) (x : CrewPort) : (d.putCport n x).tap = d.tap := rfl
@[simp] theorem Dev.putCport_rig (d : Dev) (n : Nat) (x : CrewPort) : (d.putCport n x).rig = d.rig := rfl
@[simp] theorem Dev.putCport_txn (d : Dev) (n : Nat) (x : CrewPort) : (d.putCport n x).txn = d.txn := rfl
@[simp] theorem Dev.putCport_eth (d : Dev) (n : Nat) (x : CrewPort) : (d.putCport n x).eth = d.eth := rfl
@[simp] theorem Dev.putCport_ethSent (d : Dev) (n : Nat) (x : CrewPort) : (d.putCport n x).ethSent = d.ethSent := rfl
@[simp] theorem Dev.putCport_ethFwd (d : Dev) (n : Nat) (x : CrewPort) : (d.putCport n x).ethFwd = d.ethFwd := rfl
@[simp] theorem Dev.putCport_irq (d : Dev) (n : Nat) (x : CrewPort) : (d.putCport n x).irq = d.irq := rfl
@[simp] theorem Dev.putCport_keel (d : Dev) (n : Nat) (x : CrewPort) : (d.putCport n x).keel = d.keel := rfl
@[simp] theorem Dev.putCport_log (d : Dev) (n : Nat) (x : CrewPort) : (d.putCport n x).log = d.log := rfl
@[simp] theorem Dev.putCport_pwr (d : Dev) (n : Nat) (x : CrewPort) : (d.putCport n x).pwr = d.pwr := rfl
@[simp] theorem Dev.putCport_host (d : Dev) (n : Nat) (x : CrewPort) : (d.putCport n x).host = d.host := rfl
@[simp] theorem Dev.putCport_fused (d : Dev) (n : Nat) (x : CrewPort) : (d.putCport n x).fused = d.fused := rfl
@[simp] theorem Dev.putCport_trust (d : Dev) (n : Nat) (x : CrewPort) : (d.putCport n x).trust = d.trust := rfl
@[simp] theorem Dev.putCport_mon (d : Dev) (n : Nat) (x : CrewPort) : (d.putCport n x).mon = d.mon := rfl
@[simp] theorem Dev.putCport_bist (d : Dev) (n : Nat) (x : CrewPort) : (d.putCport n x).bist = d.bist := rfl
@[simp] theorem Dev.putCport_dma (d : Dev) (n : Nat) (x : CrewPort) : (d.putCport n x).dma = d.dma := rfl
@[simp] theorem Dev.putCport_chk (d : Dev) (n : Nat) (x : CrewPort) : (d.putCport n x).chk = d.chk := rfl
@[simp] theorem Dev.putCport_memc (d : Dev) (n : Nat) (x : CrewPort) : (d.putCport n x).memc = d.memc := rfl
@[simp] theorem Dev.putCport_fresh (d : Dev) (n : Nat) (x : CrewPort) : (d.putCport n x).fresh = d.fresh := rfl
@[simp] theorem Dev.get_putCport (d : Dev) (n : Nat) (x : CrewPort) (g : Field) : (d.putCport n x).get g = d.get g := rfl
@[simp] theorem Dev.trkAt_putCport (d : Dev) (n : Nat) (x : CrewPort) (k : Nat) : (d.putCport n x).trkAt k = d.trkAt k := rfl
@[simp] theorem Dev.cntAt_putCport (d : Dev) (n : Nat) (x : CrewPort) (k : Nat) : (d.putCport n x).cntAt k = d.cntAt k := rfl
@[simp] theorem Dev.listAt_putCport (d : Dev) (n : Nat) (x : CrewPort) (k : Nat) : (d.putCport n x).listAt k = d.listAt k := rfl
@[simp] theorem Dev.chAt_putCport (d : Dev) (n : Nat) (x : CrewPort) (k : Nat) : (d.putCport n x).chAt k = d.chAt k := rfl
@[simp] theorem Dev.synAt_putCport (d : Dev) (n : Nat) (x : CrewPort) (k : Nat) : (d.putCport n x).synAt k = d.synAt k := rfl
@[simp] theorem Dev.gateAt_putCport (d : Dev) (n : Nat) (x : CrewPort) (k : Nat) : (d.putCport n x).gateAt k = d.gateAt k := rfl
@[simp] theorem Dev.oscAt_putCport (d : Dev) (n : Nat) (x : CrewPort) (k : Nat) : (d.putCport n x).oscAt k = d.oscAt k := rfl
@[simp] theorem Dev.ceAt_putCport (d : Dev) (n : Nat) (x : CrewPort) (k : Nat) : (d.putCport n x).ceAt k = d.ceAt k := rfl
@[simp] theorem Dev.peAt_putCport (d : Dev) (n : Nat) (x : CrewPort) (k : Nat) : (d.putCport n x).peAt k = d.peAt k := rfl
@[simp] theorem Dev.dmaAt_putCport (d : Dev) (n : Nat) (x : CrewPort) (k : Nat) : (d.putCport n x).dmaAt k = d.dmaAt k := rfl
@[simp] theorem Dev.ethAt_putCport (d : Dev) (n : Nat) (x : CrewPort) (k : Nat) : (d.putCport n x).ethAt k = d.ethAt k := rfl
@[simp] theorem Dev.ctxAt_putCport (d : Dev) (n : Nat) (x : CrewPort) (k : Nat) : (d.putCport n x).ctxAt k = d.ctxAt k := rfl

/-! ### `Dev.putEth` -/

@[simp] theorem Dev.putEth_regs (d : Dev) (n : Nat) (x : Eth) : (d.putEth n x).regs = d.regs := rfl
@[simp] theorem Dev.putEth_cyc (d : Dev) (n : Nat) (x : Eth) : (d.putEth n x).cyc = d.cyc := rfl
@[simp] theorem Dev.putEth_latch (d : Dev) (n : Nat) (x : Eth) : (d.putEth n x).latch = d.latch := rfl
@[simp] theorem Dev.putEth_readOut (d : Dev) (n : Nat) (x : Eth) : (d.putEth n x).readOut = d.readOut := rfl
@[simp] theorem Dev.putEth_clock (d : Dev) (n : Nat) (x : Eth) : (d.putEth n x).clock = d.clock := rfl
@[simp] theorem Dev.putEth_fab (d : Dev) (n : Nat) (x : Eth) : (d.putEth n x).fab = d.fab := rfl
@[simp] theorem Dev.putEth_mem (d : Dev) (n : Nat) (x : Eth) : (d.putEth n x).mem = d.mem := rfl
@[simp] theorem Dev.putEth_tb (d : Dev) (n : Nat) (x : Eth) : (d.putEth n x).tb = d.tb := rfl
@[simp] theorem Dev.putEth_trk (d : Dev) (n : Nat) (x : Eth) : (d.putEth n x).trk = d.trk := rfl
@[simp] theorem Dev.putEth_cnt (d : Dev) (n : Nat) (x : Eth) : (d.putEth n x).cnt = d.cnt := rfl
@[simp] theorem Dev.putEth_cox (d : Dev) (n : Nat) (x : Eth) : (d.putEth n x).cox = d.cox := rfl
@[simp] theorem Dev.putEth_ch (d : Dev) (n : Nat) (x : Eth) : (d.putEth n x).ch = d.ch := rfl
@[simp] theorem Dev.putEth_syn (d : Dev) (n : Nat) (x : Eth) : (d.putEth n x).syn = d.syn := rfl
@[simp] theorem Dev.putEth_gate (d : Dev) (n : Nat) (x : Eth) : (d.putEth n x).gate = d.gate := rfl
@[simp] theorem Dev.putEth_ce (d : Dev) (n : Nat) (x : Eth) : (d.putEth n x).ce = d.ce := rfl
@[simp] theorem Dev.putEth_pe (d : Dev) (n : Nat) (x : Eth) : (d.putEth n x).pe = d.pe := rfl
@[simp] theorem Dev.putEth_peBall (d : Dev) (n : Nat) (x : Eth) : (d.putEth n x).peBall = d.peBall := rfl
@[simp] theorem Dev.putEth_gflagBy (d : Dev) (n : Nat) (x : Eth) : (d.putEth n x).gflagBy = d.gflagBy := rfl
@[simp] theorem Dev.putEth_sync (d : Dev) (n : Nat) (x : Eth) : (d.putEth n x).sync = d.sync := rfl
@[simp] theorem Dev.putEth_tap (d : Dev) (n : Nat) (x : Eth) : (d.putEth n x).tap = d.tap := rfl
@[simp] theorem Dev.putEth_rig (d : Dev) (n : Nat) (x : Eth) : (d.putEth n x).rig = d.rig := rfl
@[simp] theorem Dev.putEth_txn (d : Dev) (n : Nat) (x : Eth) : (d.putEth n x).txn = d.txn := rfl
@[simp] theorem Dev.putEth_crew (d : Dev) (n : Nat) (x : Eth) : (d.putEth n x).crew = d.crew := rfl
@[simp] theorem Dev.putEth_ethSent (d : Dev) (n : Nat) (x : Eth) : (d.putEth n x).ethSent = d.ethSent := rfl
@[simp] theorem Dev.putEth_ethFwd (d : Dev) (n : Nat) (x : Eth) : (d.putEth n x).ethFwd = d.ethFwd := rfl
@[simp] theorem Dev.putEth_irq (d : Dev) (n : Nat) (x : Eth) : (d.putEth n x).irq = d.irq := rfl
@[simp] theorem Dev.putEth_keel (d : Dev) (n : Nat) (x : Eth) : (d.putEth n x).keel = d.keel := rfl
@[simp] theorem Dev.putEth_log (d : Dev) (n : Nat) (x : Eth) : (d.putEth n x).log = d.log := rfl
@[simp] theorem Dev.putEth_pwr (d : Dev) (n : Nat) (x : Eth) : (d.putEth n x).pwr = d.pwr := rfl
@[simp] theorem Dev.putEth_host (d : Dev) (n : Nat) (x : Eth) : (d.putEth n x).host = d.host := rfl
@[simp] theorem Dev.putEth_fused (d : Dev) (n : Nat) (x : Eth) : (d.putEth n x).fused = d.fused := rfl
@[simp] theorem Dev.putEth_trust (d : Dev) (n : Nat) (x : Eth) : (d.putEth n x).trust = d.trust := rfl
@[simp] theorem Dev.putEth_mon (d : Dev) (n : Nat) (x : Eth) : (d.putEth n x).mon = d.mon := rfl
@[simp] theorem Dev.putEth_bist (d : Dev) (n : Nat) (x : Eth) : (d.putEth n x).bist = d.bist := rfl
@[simp] theorem Dev.putEth_dma (d : Dev) (n : Nat) (x : Eth) : (d.putEth n x).dma = d.dma := rfl
@[simp] theorem Dev.putEth_chk (d : Dev) (n : Nat) (x : Eth) : (d.putEth n x).chk = d.chk := rfl
@[simp] theorem Dev.putEth_memc (d : Dev) (n : Nat) (x : Eth) : (d.putEth n x).memc = d.memc := rfl
@[simp] theorem Dev.putEth_fresh (d : Dev) (n : Nat) (x : Eth) : (d.putEth n x).fresh = d.fresh := rfl
@[simp] theorem Dev.get_putEth (d : Dev) (n : Nat) (x : Eth) (g : Field) : (d.putEth n x).get g = d.get g := rfl
@[simp] theorem Dev.trkAt_putEth (d : Dev) (n : Nat) (x : Eth) (k : Nat) : (d.putEth n x).trkAt k = d.trkAt k := rfl
@[simp] theorem Dev.cntAt_putEth (d : Dev) (n : Nat) (x : Eth) (k : Nat) : (d.putEth n x).cntAt k = d.cntAt k := rfl
@[simp] theorem Dev.listAt_putEth (d : Dev) (n : Nat) (x : Eth) (k : Nat) : (d.putEth n x).listAt k = d.listAt k := rfl
@[simp] theorem Dev.chAt_putEth (d : Dev) (n : Nat) (x : Eth) (k : Nat) : (d.putEth n x).chAt k = d.chAt k := rfl
@[simp] theorem Dev.synAt_putEth (d : Dev) (n : Nat) (x : Eth) (k : Nat) : (d.putEth n x).synAt k = d.synAt k := rfl
@[simp] theorem Dev.gateAt_putEth (d : Dev) (n : Nat) (x : Eth) (k : Nat) : (d.putEth n x).gateAt k = d.gateAt k := rfl
@[simp] theorem Dev.oscAt_putEth (d : Dev) (n : Nat) (x : Eth) (k : Nat) : (d.putEth n x).oscAt k = d.oscAt k := rfl
@[simp] theorem Dev.ceAt_putEth (d : Dev) (n : Nat) (x : Eth) (k : Nat) : (d.putEth n x).ceAt k = d.ceAt k := rfl
@[simp] theorem Dev.peAt_putEth (d : Dev) (n : Nat) (x : Eth) (k : Nat) : (d.putEth n x).peAt k = d.peAt k := rfl
@[simp] theorem Dev.dmaAt_putEth (d : Dev) (n : Nat) (x : Eth) (k : Nat) : (d.putEth n x).dmaAt k = d.dmaAt k := rfl
@[simp] theorem Dev.cport_putEth (d : Dev) (n : Nat) (x : Eth) (k : Nat) : (d.putEth n x).cport k = d.cport k := rfl
@[simp] theorem Dev.ctxAt_putEth (d : Dev) (n : Nat) (x : Eth) (k : Nat) : (d.putEth n x).ctxAt k = d.ctxAt k := rfl

/-! ### Reads after writes -/

/-- A field reads as the value written, cut to its width. -/
@[simp] theorem Dev.get_set_same (d : Dev) (f : Field) (v : Nat) : (d.set f v).get f = v % 2 ^ f.w := by
  unfold Dev.get Dev.set; simp

/-- A write of a field leaves every other field alone. -/
theorem Dev.get_set_ne (d : Dev) (f g : Field) (v : Nat) (h : g.key ≠ f.key) : (d.set f v).get g = d.get g := by
  unfold Dev.get Dev.set; exact aget_awrite_ne _ _ _ _ _ _ h

@[simp] theorem Dev.trkAt_putTrk_same (d : Dev) (n : Nat) (x : Trk) : (d.putTrk n x).trkAt n = x := by
  unfold Dev.trkAt Dev.putTrk; simp
theorem Dev.trkAt_putTrk_ne (d : Dev) (n k : Nat) (x : Trk) (h : k ≠ n) : (d.putTrk n x).trkAt k = d.trkAt k := by
  unfold Dev.trkAt Dev.putTrk; exact aget_awrite_ne _ _ _ _ _ _ h
@[simp] theorem Dev.cntAt_putCnt_same (d : Dev) (n : Nat) (x : Cnt) : (d.putCnt n x).cntAt n = x := by
  unfold Dev.cntAt Dev.putCnt; simp
theorem Dev.cntAt_putCnt_ne (d : Dev) (n k : Nat) (x : Cnt) (h : k ≠ n) : (d.putCnt n x).cntAt k = d.cntAt k := by
  unfold Dev.cntAt Dev.putCnt; exact aget_awrite_ne _ _ _ _ _ _ h
@[simp] theorem Dev.listAt_putList_same (d : Dev) (n : Nat) (x : CoxList) : (d.putList n x).listAt n = x := by
  unfold Dev.listAt Dev.putList; simp
theorem Dev.listAt_putList_ne (d : Dev) (n k : Nat) (x : CoxList) (h : k ≠ n) : (d.putList n x).listAt k = d.listAt k := by
  unfold Dev.listAt Dev.putList; exact aget_awrite_ne _ _ _ _ _ _ h
@[simp] theorem Dev.chAt_putCh_same (d : Dev) (n : Nat) (x : Chan) : (d.putCh n x).chAt n = x := by
  unfold Dev.chAt Dev.putCh; simp
theorem Dev.chAt_putCh_ne (d : Dev) (n k : Nat) (x : Chan) (h : k ≠ n) : (d.putCh n x).chAt k = d.chAt k := by
  unfold Dev.chAt Dev.putCh; exact aget_awrite_ne _ _ _ _ _ _ h
@[simp] theorem Dev.synAt_putSyn_same (d : Dev) (n : Nat) (x : Syn) : (d.putSyn n x).synAt n = x := by
  unfold Dev.synAt Dev.putSyn; simp
theorem Dev.synAt_putSyn_ne (d : Dev) (n k : Nat) (x : Syn) (h : k ≠ n) : (d.putSyn n x).synAt k = d.synAt k := by
  unfold Dev.synAt Dev.putSyn; exact aget_awrite_ne _ _ _ _ _ _ h
@[simp] theorem Dev.gateAt_putGate_same (d : Dev) (n : Nat) (x : Gate) : (d.putGate n x).gateAt n = x := by
  unfold Dev.gateAt Dev.putGate; simp
theorem Dev.gateAt_putGate_ne (d : Dev) (n k : Nat) (x : Gate) (h : k ≠ n) : (d.putGate n x).gateAt k = d.gateAt k := by
  unfold Dev.gateAt Dev.putGate; exact aget_awrite_ne _ _ _ _ _ _ h
@[simp] theorem Dev.oscAt_putOsc_same (d : Dev) (n : Nat) (x : Osc) : (d.putOsc n x).oscAt n = x := by
  unfold Dev.oscAt Dev.putOsc; simp
theorem Dev.oscAt_putOsc_ne (d : Dev) (n k : Nat) (x : Osc) (h : k ≠ n) : (d.putOsc n x).oscAt k = d.oscAt k := by
  unfold Dev.oscAt Dev.putOsc; exact aget_awrite_ne _ _ _ _ _ _ h
@[simp] theorem Dev.ceAt_putCe_same (d : Dev) (n : Nat) (x : Ce) : (d.putCe n x).ceAt n = x := by
  unfold Dev.ceAt Dev.putCe; simp
theorem Dev.ceAt_putCe_ne (d : Dev) (n k : Nat) (x : Ce) (h : k ≠ n) : (d.putCe n x).ceAt k = d.ceAt k := by
  unfold Dev.ceAt Dev.putCe; exact aget_awrite_ne _ _ _ _ _ _ h
@[simp] theorem Dev.peAt_putPe_same (d : Dev) (n : Nat) (x : Pe) : (d.putPe n x).peAt n = x := by
  unfold Dev.peAt Dev.putPe; simp
theorem Dev.peAt_putPe_ne (d : Dev) (n k : Nat) (x : Pe) (h : k ≠ n) : (d.putPe n x).peAt k = d.peAt k := by
  unfold Dev.peAt Dev.putPe; exact aget_awrite_ne _ _ _ _ _ _ h
@[simp] theorem Dev.dmaAt_putDma_same (d : Dev) (n : Nat) (x : Dma) : (d.putDma n x).dmaAt n = x := by
  unfold Dev.dmaAt Dev.putDma; simp
theorem Dev.dmaAt_putDma_ne (d : Dev) (n k : Nat) (x : Dma) (h : k ≠ n) : (d.putDma n x).dmaAt k = d.dmaAt k := by
  unfold Dev.dmaAt Dev.putDma; exact aget_awrite_ne _ _ _ _ _ _ h
@[simp] theorem Dev.ethAt_putEth_same (d : Dev) (n : Nat) (x : Eth) : (d.putEth n x).ethAt n = x := by
  unfold Dev.ethAt Dev.putEth; simp
theorem Dev.ethAt_putEth_ne (d : Dev) (n k : Nat) (x : Eth) (h : k ≠ n) : (d.putEth n x).ethAt k = d.ethAt k := by
  unfold Dev.ethAt Dev.putEth; exact aget_awrite_ne _ _ _ _ _ _ h
@[simp] theorem Dev.cport_putCport_same (d : Dev) (n : Nat) (x : CrewPort) : (d.putCport n x).cport n = x := by
  unfold Dev.cport Dev.putCport; simp
theorem Dev.cport_putCport_ne (d : Dev) (n k : Nat) (x : CrewPort) (h : k ≠ n) : (d.putCport n x).cport k = d.cport k := by
  unfold Dev.cport Dev.putCport; exact aget_awrite_ne _ _ _ _ _ _ h
@[simp] theorem Dev.ctxAt_putCtx_same (d : Dev) (n : Nat) (x : Ctx) : (d.putCtx n x).ctxAt n = x := by
  unfold Dev.ctxAt Dev.putCtx; simp
theorem Dev.ctxAt_putCtx_ne (d : Dev) (n k : Nat) (x : Ctx) (h : k ≠ n) : (d.putCtx n x).ctxAt k = d.ctxAt k := by
  unfold Dev.ctxAt Dev.putCtx; exact aget_awrite_ne _ _ _ _ _ _ h

@[simp] theorem Dev.lastRead_ret (d : Dev) (m : Master) (v : Nat) : (d.ret m v).lastRead m = v := by
  unfold Dev.lastRead Dev.ret; simp

@[simp] theorem Dev.latched_latchTo (d : Dev) (m : Master) (a v : Nat) : (d.latchTo m a v).latched m a = v := by
  unfold Dev.latched Dev.latchTo; simp

@[simp] theorem Dev.latched_ret (d : Dev) (m k : Master) (a v : Nat) : (d.ret m v).latched k a = d.latched k a := rfl

end Sys2Proof.Machine
end

