-- ==== Sys2Proof/Laws/Frame.lean ====
section
/-!
SUPPORT. Sys2Proof/Laws/Frame.lean: what the consequences of a command (`aftermath`) may change, and that they leave everything else alone.
-/
namespace Sys2Proof.Machine

/-- `e` differs from `d` only in register fields whose keys `K` names and in the parts that `Dev.rest` leaves out. -/
structure Same (K : Nat → Bool) (d e : Dev) : Prop where
  regs : ∀ r k, K k = false → aget r k e.regs = aget r k d.regs
  rest : e.rest = d.rest

theorem Same.refl (K : Nat → Bool) (d : Dev) : Same K d d := ⟨fun _ _ _ => rfl, rfl⟩

theorem Same.trans {K : Nat → Bool} {a b c : Dev} (h : Same K a b) (g : Same K b c) : Same K a c :=
  ⟨fun r k hk => (g.regs r k hk).trans (h.regs r k hk), g.rest.trans h.rest⟩

theorem Same.mono {K L : Nat → Bool} {a b : Dev} (h : Same K a b) (hl : ∀ k, K k = true → L k = true) : Same L a b :=
  ⟨fun r k hk => h.regs r k (by
    cases hx : K k with
    | false => rfl
    | true => rw [hl k hx] at hk; cases hk), h.rest⟩

/-- A register field outside `K` reads as before. -/
theorem Same.get {K : Nat → Bool} {d e : Dev} (h : Same K d e) (f : Field) (hf : K f.key = false) : e.get f = d.get f := h.regs _ _ hf

theorem Same.on {K : Nat → Bool} {d e : Dev} (h : Same K d e) (f : Field) (hf : K f.key = false) : e.on f = d.on f := by
  unfold Dev.on; rw [h.get f hf]

theorem Same.part {α : Type} {K : Nat → Bool} {d e : Dev} (h : Same K d e) (p : Dev → α) (hp : ∀ x : Dev, p x.rest = p x) : p e = p d := by
  rw [← hp e, ← hp d, h.rest]

theorem same_set (K : Nat → Bool) (d : Dev) (f : Field) (v : Nat) (h : K f.key = true) : Same K d (d.set f v) :=
  ⟨fun r k hk => by
    have : k ≠ f.key := fun e => by rw [e, h] at hk; cases hk
    exact aget_awrite_ne _ _ _ _ _ _ this, rfl⟩

theorem same_setB (K : Nat → Bool) (d : Dev) (f : Field) (b : Bool) (h : K f.key = true) : Same K d (d.setB f b) := same_set K d f _ h
theorem same_inc (K : Nat → Bool) (d : Dev) (f : Field) (h : K f.key = true) : Same K d (d.inc f) := same_set K d f _ h

theorem same_setBit (K : Nat → Bool) (d : Dev) (f : Field) (i : Nat) (h : K f.key = true) : Same K d (d.setBit f i) := by
  unfold Dev.setBit; split
  · exact .refl K d
  · exact same_set K d f _ h

theorem same_clrBit (K : Nat → Bool) (d : Dev) (f : Field) (i : Nat) (h : K f.key = true) : Same K d (d.clrBit f i) := by
  unfold Dev.clrBit; split
  · exact same_set K d f _ h
  · exact .refl K d

theorem same_mark (K : Nat → Bool) (d : Dev) (f : Field) (b : Nat) : Same K d (d.mark f b) := ⟨fun _ _ _ => rfl, rfl⟩

theorem same_causeBit (K : Nat → Bool) (d : Dev) (f : Field) (i : Nat) (h : K f.key = true) : Same K d (d.causeBit f i) :=
  (same_setBit K d f i h).trans (same_mark K _ f _)

theorem same_putBit (K : Nat → Bool) (d : Dev) (f : Field) (i : Nat) (b : Bool) (h : K f.key = true) : Same K d (d.putBit f i b) := by
  unfold Dev.putBit; split
  · exact same_setBit K d f i h
  · exact same_clrBit K d f i h

theorem same_foldl {α : Type} (K : Nat → Bool) (f : Dev → α → Dev) (l : List α) (d : Dev) (h : ∀ d x, x ∈ l → Same K d (f d x)) :
    Same K d (l.foldl f d) := by
  induction l generalizing d with
  | nil => exact .refl K d
  | cons x r ih =>
    exact (h d x (List.mem_cons_self ..)).trans (ih _ fun d y hy => h d y (List.mem_cons_of_mem _ hy))

theorem same_forUpTo (K : Nat → Bool) (n : Nat) (f : Nat → Dev → Dev) (d : Dev) (h : ∀ i d, i < n → Same K d (f i d)) :
    Same K d (forUpTo n f d) := by
  unfold forUpTo
  exact same_foldl K _ _ d fun d x hx => h x d (List.mem_range.mp hx)

/-! ### The keys -/

theorem gateKey_iff (k : Nat) : gateKey k = true ↔ k = 0x110000 * 32 + 3 ∨ (0x41008 * 32 ≤ k ∧ k < 0x41200 * 32) := by
  simp only [gateKey, Bool.or_eq_true, Bool.and_eq_true, decide_eq_true_eq, beq_iff_eq]

theorem irqKey_iff (k : Nat) : irqKey k = true ↔ (0xb1000 * 32 ≤ k ∧ k < 0xb1080 * 32) ∨
    (0xb2000 * 32 ≤ k ∧ k < 0xb3000 * 32 ∧ k / 32 % 0x40 = 0xc) ∨ k = 0xb3004 * 32 ∨ (0xb3100 * 32 ≤ k ∧ k < 0xb3200 * 32) ∨
    k = 0xf0a00 * 32 := by
  simp only [irqKey, Bool.or_eq_true, Bool.and_eq_true, decide_eq_true_eq, beq_iff_eq, or_assoc, and_assoc]

theorem tailKey_iff (k : Nat) : tailKey k = true ↔ (0xc0100 * 32 ≤ k ∧ k < 0xc0500 * 32 ∧ k % 32 = 10) ∨
    (0x140000 * 32 ≤ k ∧ k < 0x140100 * 32) ∨ irqKey k = true := by
  simp only [tailKey, Bool.or_eq_true, Bool.and_eq_true, decide_eq_true_eq, beq_iff_eq, or_assoc, and_assoc]

/-! ### The gates -/

theorem same_settleGate (n : Nat) (d : Dev) (h : n < 8) : Same gateKey d (settleGate n d) := by
  have k1 : gateKey (TXG_CFG_Q_TB n).key = true := by rw [gateKey_iff]; simp only [Field.key, TXG_CFG_Q_TB, fld]; omega
  have k2 : gateKey (TXG_CFG_Q_RIG n).key = true := by rw [gateKey_iff]; simp only [Field.key, TXG_CFG_Q_RIG, fld]; omega
  have k3 : gateKey (TXG_CFG_Q_TRUST n).key = true := by rw [gateKey_iff]; simp only [Field.key, TXG_CFG_Q_TRUST, fld]; omega
  have k4 : gateKey (TXG_STATUS_TB_OK n).key = true := by rw [gateKey_iff]; simp only [Field.key, TXG_STATUS_TB_OK, fld]; omega
  have k5 : gateKey (TXG_STATUS_RIG_OK n).key = true := by rw [gateKey_iff]; simp only [Field.key, TXG_STATUS_RIG_OK, fld]; omega
  have k6 : gateKey (TXG_STATUS_TRUST_OK n).key = true := by rw [gateKey_iff]; simp only [Field.key, TXG_STATUS_TRUST_OK, fld]; omega
  have k7 : gateKey (TXG_STATUS_SYN_OK n).key = true := by rw [gateKey_iff]; simp only [Field.key, TXG_STATUS_SYN_OK, fld]; omega
  have k8 : gateKey (TXG_STATUS_STATE n).key = true := by rw [gateKey_iff]; simp only [Field.key, TXG_STATUS_STATE, fld]; omega
  have k9 : gateKey (TXG_COUNTS_DISQ_CNT n).key = true := by rw [gateKey_iff]; simp only [Field.key, TXG_COUNTS_DISQ_CNT, fld]; omega
  have forced : Same gateKey d (gateForce n d) := by
    unfold gateForce; split
    · exact ((same_set _ _ _ _ k1).trans (same_set _ _ _ _ k2)).trans (same_set _ _ _ _ k3)
    · exact .refl _ _
  have shown : ∀ x, Same gateKey x (gateShow n x) := fun x =>
    (((same_setB _ _ _ _ k4).trans (same_setB _ _ _ _ k5)).trans (same_setB _ _ _ _ k6)).trans (same_set _ _ _ _ k7)
  have dropped : ∀ x, Same gateKey x (gateDrop n x) := by
    intro x; unfold gateDrop; split
    · exact same_set _ _ _ _ k8
    · split
      · exact ((same_set _ _ _ _ k8).trans (same_inc _ _ _ k9)).trans (same_causeBit _ _ _ _ (by decide))
      · exact .refl _ _
  exact (forced.trans (shown _)).trans (dropped _)

theorem same_settle (d : Dev) : Same gateKey d d.settle := by
  unfold Dev.settle txgShow
  exact ((same_setB _ _ _ _ (by decide)).trans (same_forUpTo _ 8 _ _ fun i d hi => same_settleGate i d hi)).trans
    (((same_set _ _ _ _ (by decide)).trans (same_set _ _ _ _ (by decide))).trans (same_setB _ _ _ _ (by decide)))

/-! ### DMA requests and self-test -/

theorem same_dmaReqShow (c : Nat) (d : Dev) (h : c < 16) : Same tailKey d (dmaReqShow c d) := by
  have k1 : tailKey (DMA_STATUS_REQ c).key = true := by
    rw [tailKey_iff]; simp only [Field.key, DMA_STATUS_REQ, fld]; omega
  simp only [dmaReqShow]
  split
  · exact .refl _ _
  · split
    · exact (same_setB _ _ _ _ k1).trans ⟨fun _ _ _ => rfl, rfl⟩
    · exact same_setB _ _ _ _ k1

theorem same_dmaEval (d : Dev) : Same tailKey d (dmaEval d) := by
  unfold dmaEval; split
  · exact .refl _ _
  · exact same_forUpTo _ 16 _ _ fun i d hi => same_dmaReqShow i d hi

theorem same_putSlot (i : Nat) (s : Slot) (d : Dev) : Same tailKey d (putSlot i s d) := by
  unfold putSlot; split
  · exact Same.trans (b := { d with bist := { d.bist with slot0 := s } }) ⟨fun _ _ _ => rfl, rfl⟩ (same_set _ _ _ _ (by decide))
  · exact Same.trans (b := { d with bist := { d.bist with slot1 := s } }) ⟨fun _ _ _ => rfl, rfl⟩ (same_set _ _ _ _ (by decide))

theorem same_sliceAbandon (i : Nat) (d : Dev) : Same tailKey d (sliceAbandon i d) := by
  simp only [sliceAbandon]
  split
  · exact .refl _ _
  · have h1 : Same tailKey d (putSlot i {} (sliceKeep (d.slotAt i).unit (d.slotAt i).slice d)) :=
      Same.trans (b := sliceKeep (d.slotAt i).unit (d.slotAt i).slice d) ⟨fun _ _ _ => rfl, rfl⟩ (same_putSlot _ _ _)
    split
    · exact h1.trans (same_inc _ _ _ (by decide))
    · exact h1

theorem same_bistCheck (d : Dev) : Same tailKey d (bistCheck d) := by
  unfold bistCheck
  have one : ∀ i (x : Dev), Same tailKey x
      (if (x.slotAt i).started && !(x.unitFree (x.slotAt i).unit && x.precond) then sliceAbandon i x else x) := by
    intro i x; split
    · exact same_sliceAbandon i x
    · exact .refl _ _
  dsimp only
  split
  · exact same_setB _ _ _ _ (by decide)
  · exact ((same_setB _ _ _ _ (by decide)).trans (one 0 _)).trans (one 1 _)

/-! ### Interrupts -/

theorem same_setPend (n : Nat) (v : Bool) (d : Dev) : Same irqKey d (setPend n v d) := by
  unfold setPend; split
  · exact .refl _ _
  · have k : irqKey (IRQ_PEND_PEND (n / 32)).key = true := by
      rw [irqKey_iff]; simp only [Field.key, IRQ_PEND_PEND, fld]; omega
    split
    · dsimp only; split
      · exact same_causeBit _ _ _ _ k
      · exact (same_causeBit _ _ _ _ k).trans ⟨fun _ _ _ => rfl, rfl⟩
    · exact same_clrBit _ _ _ _ k

theorem same_lineEffect (n : Nat) (up : Bool) (d : Dev) : Same irqKey d (lineEffect n up d) := by
  unfold lineEffect; split
  · split
    · exact same_setPend _ _ _
    · exact .refl _ _
  · exact same_setPend _ _ _

theorem same_ringEffect (r : Ring) (d : Dev) : Same irqKey d (ringEffect r d) := by
  unfold ringEffect
  have k1 : irqKey (IRQ_DB_DATA_DATUM (min r.idx 62)).key = true := by rw [irqKey_iff]; simp only [Field.key, IRQ_DB_DATA_DATUM, fld]; omega
  have k2 : irqKey (IRQ_DB_DATA_RINGER (min r.idx 62)).key = true := by rw [irqKey_iff]; simp only [Field.key, IRQ_DB_DATA_RINGER, fld]; omega
  have h0 : Same irqKey d (if d.pend (960 + min r.idx 62) then d.inc IRQ_DB_COUNTS_OVR_CNT else d) := by
    split
    · exact same_inc _ _ _ (by decide)
    · exact .refl _ _
  exact ((h0.trans (same_set _ _ _ _ k1)).trans (same_set _ _ _ _ k2)).trans (same_setPend _ _ _)

theorem same_irqShow (t : Nat) (d : Dev) (h : t < 11) : Same irqKey d (irqShow t d) := by
  have k1 : irqKey (IRQ_T_STATUS_CAND t).key = true := by rw [irqKey_iff]; simp only [Field.key, IRQ_T_STATUS_CAND, fld]; omega
  have k2 : irqKey (IRQ_T_STATUS_DEPTH t).key = true := by rw [irqKey_iff]; simp only [Field.key, IRQ_T_STATUS_DEPTH, fld]; omega
  have k3 : irqKey (IRQ_T_STATUS_RUNPRI t).key = true := by rw [irqKey_iff]; simp only [Field.key, IRQ_T_STATUS_RUNPRI, fld]; omega
  have k4 : irqKey (IRQ_T_STATUS_WAKE t).key = true := by rw [irqKey_iff]; simp only [Field.key, IRQ_T_STATUS_WAKE, fld]; omega
  have shown : ∀ c x, Same irqKey x (irqStatus t c x) := fun c x =>
    ((same_set _ _ _ _ k1).trans ((same_set _ _ _ _ k2).trans (same_set _ _ _ _ k3))).trans (same_setB _ _ _ _ k4)
  have pba : ∀ c x, Same irqKey x (pbaFollow c x) := by
    intro c x; simp only [pbaFollow]; split
    · exact .refl _ _
    · exact same_set _ _ _ _ (by decide)
  simp only [irqShow]
  split
  · split
    · exact ((shown _ _).trans (pba _ _)).trans ⟨fun _ _ _ => rfl, rfl⟩
    · exact (shown _ _).trans (pba _ _)
  · exact shown _ _

theorem same_irqAll (d : Dev) : Same irqKey d (irqAll d) := by
  unfold irqAll; exact same_forUpTo _ 11 _ _ fun i d hi => same_irqShow i d hi

theorem same_irqSense (d : Dev) : Same irqKey d (irqSense d) := ⟨fun _ _ _ => rfl, rfl⟩

theorem same_irqDeliver (t : Nat) (d : Dev) : Same irqKey d (irqDeliver t d) := by
  simp only [irqDeliver]
  split
  · exact .refl _ _
  · have lines : ∀ (l : List LineChg) (x : Dev), Same irqKey x (l.foldl (fun d c => lineEffect c.src c.up d) x) := fun l x =>
      same_foldl irqKey _ l x fun d c _ => same_lineEffect c.src c.up d
    have rings : ∀ (l : List Ring) (x : Dev), Same irqKey x (l.foldl (fun d r => ringEffect r d) x) := fun l x =>
      same_foldl irqKey _ l x fun d r _ => same_ringEffect r d
    have taken : ∀ i, Same irqKey d { d with irq := i } := fun i => ⟨fun _ _ _ => rfl, rfl⟩
    exact (((taken _).trans (lines _ _)).trans (rings _ _)).trans (same_irqAll _)

theorem same_msixSend (v : Nat) (d : Dev) : Same irqKey d (msixSend v d) := by
  unfold msixSend; split
  · exact .refl _ _
  · split
    · exact (same_clrBit _ _ _ _ (by decide)).trans ⟨fun _ _ _ => rfl, rfl⟩
    · exact same_setBit _ _ _ _ (by decide)

theorem same_msixDue (t : Nat) (d : Dev) : Same irqKey d (msixDue t d) := by
  simp only [msixDue]
  split
  · exact .refl _ _
  · exact Same.trans (b := { d with irq := { d.irq with msi := d.irq.msi.filter fun x => !decide (x.1 ≤ t) } }) ⟨fun _ _ _ => rfl, rfl⟩
      (same_foldl _ _ _ _ fun d x _ => same_msixSend _ _)

theorem same_trustBell (d : Dev) : Same irqKey d (trustBell d) := by
  simp only [trustBell]
  split
  · exact .refl _ _
  · split
    · refine Same.trans (b := { d with irq := { d.irq with bell := d.regWord TRUST_IRQ_STAT_CMD_DONE.addr } }) ⟨fun _ _ _ => rfl, rfl⟩
        (same_forUpTo _ 6 _ _ fun i d _ => ?_)
      split
      · exact ⟨fun _ _ _ => rfl, rfl⟩
      · exact .refl _ _
    · exact ⟨fun _ _ _ => rfl, rfl⟩

/-! ### The consequences of a command -/

theorem irq_tail (k : Nat) (h : irqKey k = true) : tailKey k = true := by simp [tailKey, h]

/-- What follows the gates. -/
theorem same_afterTail (d : Dev) : Same tailKey d (afterTail d) := by
  have h1 : Same tailKey d (trustBell (bistCheck (dmaEval d))) :=
    ((same_dmaEval d).trans (same_bistCheck _)).trans ((same_trustBell _).mono irq_tail)
  have h2 : ∀ x, Same tailKey x (irqNow x) := by
    intro x; unfold irqNow; split
    · exact .refl _ _
    · exact ((same_irqSense _).trans (same_irqDeliver _ _)).mono irq_tail
  have h3 : ∀ x, Same tailKey x (irqSettle x) := fun x => ((same_irqAll x).trans (same_msixDue _ _)).mono irq_tail
  exact (h1.trans (h2 _)).trans (h3 _)

theorem same_effects (d : Dev) : Same afterKey d (afterTail d.settle) :=
  ((same_settle d).mono fun k h => by simp [afterKey, h]).trans ((same_afterTail _).mono fun k h => by simp [afterKey, h])

theorem regs_aftermath (b d : Dev) : (aftermath b d).regs = (afterTail d.settle).regs := by simp only [aftermath]

/-- The consequences of a command leave every register field alone that `afterKey` does not name. -/
theorem get_aftermath (b d : Dev) (f : Field) (hf : afterKey f.key = false) : (aftermath b d).get f = d.get f := by
  unfold Dev.get
  rw [regs_aftermath]
  exact (same_effects d).regs _ _ hf

theorem on_aftermath (b d : Dev) (f : Field) (hf : afterKey f.key = false) : (aftermath b d).on f = d.on f := by
  unfold Dev.on
  rw [get_aftermath b d f hf]

/-- The consequences of a command leave every part of the device alone but registers, interrupts, self-test, DMA requests and fuses. -/
theorem part_aftermath {α : Type} (b d : Dev) (p : Dev → α) (hp : ∀ x : Dev, p x.rest = p x)
    (hu : ∀ (x : Dev) (u : Fused), p { x with fused := u } = p x) : p (aftermath b d) = p d := by
  have h := (same_effects d).part p hp
  rw [← h]
  unfold aftermath
  exact hu _ _

/-- Fuses never change (R468). -/
@[simp] theorem fused_aftermath (b d : Dev) : (aftermath b d).fused = b.fused := by simp only [aftermath]

end Sys2Proof.Machine
end

