-- ==== Sys2Proof/Laws/Exec.lean ====
section
/-!
SUPPORT. Sys2Proof/Laws/Exec.lean: the two frames in which every command acts, and what they answer.
-/
namespace Sys2Proof.Machine

/-- Every command acts through `State.run`, which a device held in reset does not take, or through `State.power`. -/
theorem exec_form (i : Instr) (s : State) : (∃ f, exec i s = s.run f) ∨ (∃ f, exec i s = s.power f) := by
  unfold exec
  split <;> first | exact Or.inl ⟨_, rfl⟩ | exact Or.inr ⟨_, rfl⟩

theorem run_held (s : State) (f : Dev → Dev) (h : s.dev.clock.phase = .held) : s.run f = .next s := by
  unfold State.run; rw [if_pos h]

theorem run_next (s : State) (f : Dev → Dev) (h : s.dev.clock.phase ≠ .held) :
    s.run f = .next { s with dev := aftermath s.dev (f s.dev) } := by
  unfold State.run; rw [if_neg h]

theorem tclk_phase {d : Dev} (h : d.tclkRuns = true) : d.clock.phase ≠ .held := by
  intro e; rw [Dev.tclkRuns, e] at h; cases h

theorem hosts_tclk {d : Dev} (h : d.hostsRun = true) : d.tclkRuns = true := by
  unfold Dev.hostsRun at h; revert h; cases d.tclkRuns <;> simp

/-- A unit clocked by TCLK acts while TCLK runs. -/
theorem run_live (s : State) (f : Dev → Dev) (h : s.dev.tclkRuns = true) :
    s.run (live f) = .next { s with dev := aftermath s.dev (f s.dev) } := by
  rw [run_next _ _ (tclk_phase h)]; unfold live; rw [if_pos h]

/-- A register write takes place while the host interfaces take transactions, after what comes before it in its TCLK. -/
theorem run_onBus (s : State) (f : Dev → Dev) (h : s.dev.hostsRun = true) :
    s.run (onBus f) = .next { s with dev := aftermath s.dev (f (busFirst s.dev)) } := by
  rw [run_next _ _ (tclk_phase (hosts_tclk h))]; unfold onBus; rw [if_pos h]

theorem run_give (s : State) (m : Master) (f : Dev → Nat × Dev) (h : s.dev.hostsRun = true) :
    s.run (give m f) = .next { s with dev := aftermath s.dev ((f s.dev).2.ret m ((f s.dev).1 % 2 ^ 32)) } := by
  rw [run_next _ _ (tclk_phase (hosts_tclk h))]; unfold give; rw [if_pos h]

end Sys2Proof.Machine
end

