-- ==== Sys2Proof/Laws/Ce.lean ====
section
/-!
SUPPORT. Sys2Proof/Laws/Ce.lean: the issue of a bundle of one syllable on a control engine that is ready.
-/
namespace Sys2Proof.Machine

theorem Dev.to_now (d : Dev) (t : Nat) (h : t = d.clock.now) : d.to t = d := by
  subst h; cases d; simp [Dev.to]

theorem landTo_nil (n t : Nat) (d : Dev) (h : (d.ceAt n).lands = []) : landTo n t d = d := by
  simp [landTo, h]

theorem timRun_nil (n : Nat) (d : Dev) (h : (d.ceAt n).tim = []) : timRun n d = d := by
  simp [timRun, h]

theorem Dev.tbOk_putCe (d : Dev) (n : Nat) (c : Ce) : (d.putCe n c).tbOk = d.tbOk := by simp only [Dev.tbOk, Dev.get_putCe]

theorem Dev.cond_putCe (d : Dev) (n : Nat) (c : Ce) (m k t : Nat) : (d.putCe n c).cond m k t = d.cond m k t := by
  unfold Dev.cond
  split
  · rfl
  · simp only [Dev.selector, Dev.flag, Dev.spec, Dev.get_putCe, Dev.tbOk_putCe, Dev.ceIrq, Dev.xr, Dev.phys, Dev.wb]; rfl

/-- With no stall at the wheel, the bundle issues in this TCLK. -/
theorem ceIssue_now (n : Nat) (b : List Syl) (d : Dev) (h : (d.ceAt n).wheelAt = none) : ceIssue n b d = ceStepped n (issueBundle n b d) := by
  simp [ceIssue, Dev.stallTo, h]

/-- A bundle of one defined syllable that is neither SEQ nor MEM: its effect, and the next PC one engine cycle later. -/
theorem issueBundle_one (b : Dev) (n : Nat) (x : Syl) (hb : bits (b.spec n 13) 0 15 = 0) (hc : b.cond n x.c b.clock.now = true)
    (hok : sylOk x = true) (hu : x.unit ≠ 0) (h3 : x.unit ≠ 3) :
    issueBundle n [x] b = (let d := unitEffect n b.clock.now x b
      ceShow n ((d.putCe n { d.ceAt n with issueAt := b.clock.now + 1 * ceCycle d.mode }).set (CE_STATUS_PC n)
        ((b.get (CE_STATUS_PC n) + 1) % 65536))) := by
  have hrep : b.repeats n = false := by simp [Dev.repeats, hb]
  have h0 : (x.unit == 0) = false := by simp [hu]
  have h3' : (x.unit == 3) = false := by simp [h3]
  have hbo : bundleOk false [x] = true := by simp [bundleOk, hok, unitsRise]
  unfold issueBundle issueNext
  simp only [hrep, hbo, Bool.not_true, Bool.false_eq_true, if_false, List.filter_cons, List.filter_nil, hc, if_true, List.find?_cons, h0, h3',
    List.find?_nil, List.foldl_cons, List.foldl_nil, List.length_cons, List.length_nil, Nat.zero_add]

end Sys2Proof.Machine
end

