-- ==== Sys2Proof/Laws/Mem.lean ====
section
/-!
SUPPORT. Sys2Proof/Laws/Mem.lean: the laws of byte memory: reads after writes, what a write leaves alone, and that every operation keeps
the canonical form.
-/
namespace Sys2Proof.Machine

@[simp] theorem Mem.byte_put_same (m : Mem) (a : Nat) (b : Byte) : (m.put a b).byte a = b := by
  unfold Mem.byte Mem.put; simp

theorem Mem.byte_put_ne (m : Mem) (a x : Nat) (b : Byte) (h : x ≠ a) : (m.put a b).byte x = m.byte x := by
  unfold Mem.byte Mem.put; exact aget_awrite_ne _ _ _ _ _ _ h

theorem Mem.wf_put (m : Mem) (a : Nat) (b : Byte) (h : Memory.wf m = true) : Memory.wf (m.put a b) = true :=
  canon_awrite _ _ _ _ h

theorem Mem.wf_write (m : Mem) (a v n : Nat) (h : Memory.wf m = true) : Memory.wf (m.write a v n) = true := by
  induction n generalizing m a v with
  | zero => exact h
  | succ n ih => exact ih _ _ _ (Mem.wf_put m a _ h)

theorem Mem.wf_puts (m : Mem) (a : Nat) (l : List Nat) (h : Memory.wf m = true) : Memory.wf (m.puts a l) = true := by
  induction l generalizing m a with
  | nil => exact h
  | cons b r ih => simp only [Mem.puts]; exact ih _ _ (Mem.wf_put m a _ h)

theorem Mem.wf_filter (m : Mem) (p : Host.Cell → Bool) (h : Memory.wf m = true) : Memory.wf (m.filter p) = true := canon_filter _ p m h

/-- A write leaves every byte outside it alone. -/
theorem Mem.byte_write_outside (m : Mem) (a v n x : Nat) (h : x < a ∨ a + n ≤ x) : (m.write a v n).byte x = m.byte x := by
  induction n generalizing m a v with
  | zero => rfl
  | succ n ih =>
    simp only [Mem.write]
    rw [ih _ _ _ (by omega)]
    exact Mem.byte_put_ne _ _ _ _ (by omega)

/-- A read of bytes that a write does not touch. -/
theorem Mem.read_write_outside (m : Mem) (a v n b k : Nat) (h : b + k ≤ a ∨ a + n ≤ b) : (m.write a v n).read b k = m.read b k := by
  induction k generalizing b with
  | zero => rfl
  | succ k ih =>
    simp only [Mem.read]
    rw [ih (b + 1) (by omega), Mem.byte_write_outside m a v n b (by omega)]

/-- A read finds what was written. -/
theorem Mem.read_write_same (m : Mem) (a v n : Nat) : (m.write a v n).read a n = v % 256 ^ n := by
  induction n generalizing m a v with
  | zero => simp [Mem.read, Nat.mod_one]
  | succ n ih =>
    simp only [Mem.write, Mem.read]
    rw [ih, Mem.byte_write_outside _ _ _ _ _ (Or.inl (Nat.lt_succ_self a)), Mem.byte_put_same]
    rw [Nat.pow_succ, Nat.mul_comm (256 ^ n) 256, Nat.mod_mul]
    simp

end Sys2Proof.Machine
end

