-- ==== Sys2Proof/Laws/Settle.lean ====
section
/-!
SUPPORT. Sys2Proof/Laws/Settle.lean: what the consequences of a command leave: every gate that is OPEN is qualified, TXINH shows what drives
TXINH_N, and every target shows its candidate.
-/
namespace Sys2Proof.Machine

/-- keys of one gate -/
def oneGate (m k : Nat) : Bool :=
  k == 0x41008*32+8 || (decide ((0x41100 + 0x20*m)*32 ≤ k) && decide (k < (0x41100+0x20*m+0x20)*32))

theorem oneGate_iff (m k : Nat) : oneGate m k = true ↔ k = 0x41008*32+8 ∨ ((0x41100 + 0x20*m)*32 ≤ k ∧ k < (0x41100+0x20*m+0x20)*32) := by
  simp only [oneGate, Bool.or_eq_true, Bool.and_eq_true, decide_eq_true_eq, beq_iff_eq]

theorem bfalse {b : Bool} (h : ¬ b = true) : b = false := by cases b <;> simp_all

theorem same_settleGate1 (n : Nat) (d : Dev) : Same (oneGate n) d (settleGate n d) := by
  have k1 : oneGate n (TXG_CFG_Q_TB n).key = true := by rw [oneGate_iff]; simp only [Field.key, TXG_CFG_Q_TB, fld]; omega
  have k2 : oneGate n (TXG_CFG_Q_RIG n).key = true := by rw [oneGate_iff]; simp only [Field.key, TXG_CFG_Q_RIG, fld]; omega
  have k3 : oneGate n (TXG_CFG_Q_TRUST n).key = true := by rw [oneGate_iff]; simp only [Field.key, TXG_CFG_Q_TRUST, fld]; omega
  have k4 : oneGate n (TXG_STATUS_TB_OK n).key = true := by rw [oneGate_iff]; simp only [Field.key, TXG_STATUS_TB_OK, fld]; omega
  have k5 : oneGate n (TXG_STATUS_RIG_OK n).key = true := by rw [oneGate_iff]; simp only [Field.key, TXG_STATUS_RIG_OK, fld]; omega
  have k6 : oneGate n (TXG_STATUS_TRUST_OK n).key = true := by rw [oneGate_iff]; simp only [Field.key, TXG_STATUS_TRUST_OK, fld]; omega
  have k7 : oneGate n (TXG_STATUS_SYN_OK n).key = true := by rw [oneGate_iff]; simp only [Field.key, TXG_STATUS_SYN_OK, fld]; omega
  have k8 : oneGate n (TXG_STATUS_STATE n).key = true := by rw [oneGate_iff]; simp only [Field.key, TXG_STATUS_STATE, fld]; omega
  have k9 : oneGate n (TXG_COUNTS_DISQ_CNT n).key = true := by rw [oneGate_iff]; simp only [Field.key, TXG_COUNTS_DISQ_CNT, fld]; omega
  have k10 : oneGate n TXG_IRQ_STAT_DISQ.key = true := by rw [oneGate_iff]; exact Or.inl rfl
  have forced : Same (oneGate n) d (gateForce n d) := by
    unfold gateForce; split
    · exact ((same_set _ _ _ _ k1).trans (same_set _ _ _ _ k2)).trans (same_set _ _ _ _ k3)
    · exact .refl _ _
  have shown : ∀ x, Same (oneGate n) x (gateShow n x) := fun x =>
    (((same_setB _ _ _ _ k4).trans (same_setB _ _ _ _ k5)).trans (same_setB _ _ _ _ k6)).trans (same_set _ _ _ _ k7)
  have dropped : ∀ x, Same (oneGate n) x (gateDrop n x) := by
    intro x; unfold gateDrop; split
    · exact same_set _ _ _ _ k8
    · split
      · exact ((same_set _ _ _ _ k8).trans (same_inc _ _ _ k9)).trans (same_causeBit _ _ _ _ k10)
      · exact .refl _ _
  exact (forced.trans (shown _)).trans (dropped _)

/-- What the qualification of gate n reads. -/
structure QualSame (n : Nat) (d e : Dev) : Prop where
  lc : e.get TRUST_STATUS_LC = d.get TRUST_STATUS_LC
  good : e.get TRUST_STATUS_GOOD = d.get TRUST_STATUS_GOOD
  tb : e.get TB_STATUS_STATE = d.get TB_STATUS_STATE
  a : e.get RIG_STATUS_STATE_A = d.get RIG_STATUS_STATE_A
  b : e.get RIG_STATUS_STATE_B = d.get RIG_STATUS_STATE_B
  syn : ∀ k, k < 4 → e.get (SYN_STATUS_STATE k) = d.get (SYN_STATUS_STATE k)
  q1 : e.get (TXG_CFG_Q_TB n) = d.get (TXG_CFG_Q_TB n)
  q2 : e.get (TXG_CFG_Q_RIG n) = d.get (TXG_CFG_Q_RIG n)
  q3 : e.get (TXG_CFG_Q_TRUST n) = d.get (TXG_CFG_Q_TRUST n)
  q4 : e.get (TXG_CFG_Q_SYN n) = d.get (TXG_CFG_Q_SYN n)
  st : e.get (TXG_STATUS_STATE n) = d.get (TXG_STATUS_STATE n)

theorem QualSame.qual {n : Nat} {d e : Dev} (h : QualSame n d e) : e.gateQual n = d.gateQual n := by
  have hs : (List.range 4).all (fun k => !(bit (e.get (TXG_CFG_Q_SYN n)) k) || e.synOk k) =
      (List.range 4).all (fun k => !(bit (d.get (TXG_CFG_Q_SYN n)) k) || d.synOk k) := by
    rw [h.q4]
    rw [Bool.eq_iff_iff, List.all_eq_true, List.all_eq_true]
    constructor <;> intro g k hk <;> have := g k hk <;> simp only [Dev.synOk, h.syn k (List.mem_range.mp hk)] at * <;> exact this
  unfold Dev.gateQual
  simp only [hs, Dev.on, Dev.lc, Dev.tbOk, Dev.rigOk, Dev.activeSlot, Dev.trustOk, h.lc, h.good, h.tb, h.a, h.b, h.q1, h.q2, h.q3]

theorem qual_of_same (K : Nat → Bool) (n : Nat) (d e : Dev) (h : Same K d e) (hn : n < 8)
   (hk : ∀ k, K k = true → ((0x41008*32 ≤ k ∧ k < 0x41100*32) ∨ (0x41100*32 ≤ k ∧ k < 0x41200*32 ∧ ¬ ((0x41100 + 0x20*n)*32 ≤ k ∧ k < (0x41100+0x20*n+0x20)*32)) ∨ tailKey k = true)) : QualSame n d e := by
  have key : ∀ f : Field, (¬ ((0x41008*32 ≤ f.key ∧ f.key < 0x41100*32) ∨ (0x41100*32 ≤ f.key ∧ f.key < 0x41200*32 ∧ ¬ ((0x41100 + 0x20*n)*32 ≤ f.key ∧ f.key < (0x41100+0x20*n+0x20)*32)) ∨ tailKey f.key = true)) → e.get f = d.get f := by
    intro f hf
    exact h.get f (bfalse fun g => hf (hk _ g))
  refine ⟨key _ ?_, key _ ?_, key _ ?_, key _ ?_, key _ ?_, fun k hk => key _ ?_, key _ ?_, key _ ?_, key _ ?_, key _ ?_, key _ ?_⟩ <;>
   rw [tailKey_iff, irqKey_iff] <;>
   simp only [Field.key, fld, TRUST_STATUS_LC, TRUST_STATUS_GOOD, TB_STATUS_STATE, RIG_STATUS_STATE_A, RIG_STATUS_STATE_B, SYN_STATUS_STATE, TXG_CFG_Q_TB, TXG_CFG_Q_RIG, TXG_CFG_Q_TRUST, TXG_CFG_Q_SYN, TXG_STATUS_STATE] <;> omega

def GateSafe (n : Nat) (d : Dev) : Prop := d.get (TXG_STATUS_STATE n) = 2 → d.gateQual n = true

theorem QualSame.safe {n d e} (h : QualSame n d e) (g : GateSafe n d) : GateSafe n e := by
  unfold GateSafe; rw [h.qual, h.st]; exact g

/-- The qualification of a gate does not read its state. -/
theorem qual_set_state (n v : Nat) (d : Dev) : (d.set (TXG_STATUS_STATE n) v).gateQual n = d.gateQual n := by
  have key : ∀ f : Field, f.key ≠ (TXG_STATUS_STATE n).key → (d.set (TXG_STATUS_STATE n) v).get f = d.get f := fun f h => Dev.get_set_ne _ _ _ _ h
  have e : ∀ f : Field, f.key / 32 ≠ 0x41108 + 0x20 * n → (d.set (TXG_STATUS_STATE n) v).get f = d.get f := fun f h =>
    key f fun g => h (by rw [g]; simp only [Field.key, TXG_STATUS_STATE, fld]; omega)
  have hs : ∀ k, k < 4 → (d.set (TXG_STATUS_STATE n) v).synOk k = d.synOk k := fun k hk => by
    unfold Dev.synOk
    rw [e (SYN_STATUS_STATE k) (by simp only [Field.key, SYN_STATUS_STATE, fld]; omega)]
  have ha : (List.range 4).all (fun k => !(bit ((d.set (TXG_STATUS_STATE n) v).get (TXG_CFG_Q_SYN n)) k) || (d.set (TXG_STATUS_STATE n) v).synOk k) =
      (List.range 4).all (fun k => !(bit (d.get (TXG_CFG_Q_SYN n)) k) || d.synOk k) := by
    rw [e (TXG_CFG_Q_SYN n) (by simp only [Field.key, TXG_CFG_Q_SYN, fld]; omega)]
    rw [Bool.eq_iff_iff, List.all_eq_true, List.all_eq_true]
    constructor <;> intro g k hk <;> have := g k hk <;> rw [hs k (List.mem_range.mp hk)] at * <;> exact this
  unfold Dev.gateQual
  simp only [ha, Dev.on, Dev.lc, Dev.tbOk, Dev.rigOk, Dev.activeSlot, Dev.trustOk]
  rw [e TRUST_STATUS_LC (by simp only [Field.key, TRUST_STATUS_LC, fld]; omega), e TRUST_STATUS_GOOD (by simp only [Field.key, TRUST_STATUS_GOOD, fld]; omega),
    e TB_STATUS_STATE (by simp only [Field.key, TB_STATUS_STATE, fld]; omega), e RIG_STATUS_STATE_A (by simp only [Field.key, RIG_STATUS_STATE_A, fld]; omega),
    e RIG_STATUS_STATE_B (by simp only [Field.key, RIG_STATUS_STATE_B, fld]; omega), e (TXG_CFG_Q_TB n) (by simp only [Field.key, TXG_CFG_Q_TB, fld]; omega),
    e (TXG_CFG_Q_RIG n) (by simp only [Field.key, TXG_CFG_Q_RIG, fld]; omega), e (TXG_CFG_Q_TRUST n) (by simp only [Field.key, TXG_CFG_Q_TRUST, fld]; omega)]

theorem safe_drop (n : Nat) (d : Dev) : GateSafe n (gateDrop n d) := by
  unfold gateDrop
  split
  · intro h
    rw [qual_set_state]
    cases hq : d.gateQual n with
    | true => rfl
    | false => rw [hq, Dev.get_set_same] at h; exact absurd (show (1 : Nat) = 2 from h) (by decide)
  · split
    · intro h
      exfalso
      have : ((d.set (TXG_STATUS_STATE n) 0).inc (TXG_COUNTS_DISQ_CNT n)).get (TXG_STATUS_STATE n) = 0 := by
        unfold Dev.inc
        rw [Dev.get_set_ne _ _ _ _ (by simp only [Field.key, fld, TXG_STATUS_STATE, TXG_COUNTS_DISQ_CNT]; omega), Dev.get_set_same]
        rfl
      rw [show ∀ (x : Dev) f i, (x.causeBit f i).get (TXG_STATUS_STATE n) = (x.setBit f i).get (TXG_STATUS_STATE n) from fun _ _ _ => rfl] at h
      unfold Dev.setBit at h
      split at h
      · omega
      · rw [Dev.get_set_ne _ _ _ _ (by simp only [Field.key, fld, TXG_STATUS_STATE, TXG_IRQ_STAT_DISQ]; omega)] at h
        omega
    · rename_i h
      intro g
      cases hq : d.gateQual n with
      | true => rfl
      | false => exact absurd ⟨g, by simp [hq]⟩ h

theorem safe_settleGates (k : Nat) (hk : k ≤ 8) (d : Dev) : ∀ n, n < k → GateSafe n (forUpTo k settleGate d) := by
  induction k with
  | zero => intro n hn; omega
  | succ k ih =>
    intro n hn
    have e : forUpTo (k+1) settleGate d = settleGate k (forUpTo k settleGate d) := by
      unfold forUpTo; rw [List.range_succ, List.foldl_append]; rfl
    rw [e]
    by_cases hc : n = k
    · subst hc; exact safe_drop _ _
    · refine (qual_of_same _ n _ _ (same_settleGate1 k _) (by omega) ?_).safe (ih (by omega) n (by omega))
      intro x hx
      rw [oneGate_iff] at hx
      omega

theorem gates_settle (d : Dev) : GatesSafe d.settle := by
  intro n hn
  have h := safe_settleGates 8 (by omega) (d.setB TRUST_STATUS_GOOD d.goodStanding) n hn
  have hs : Same (fun k => k == 0x4100c*32 || k == 0x4100c*32+8 || k == 0x4100c*32+16) (forUpTo 8 settleGate (d.setB TRUST_STATUS_GOOD d.goodStanding)) d.settle :=
    ((same_set _ _ _ _ (by decide)).trans (same_set _ _ _ _ (by decide))).trans (same_setB _ _ _ _ (by decide))
  exact (qual_of_same _ n _ _ hs hn (by intro k hk; simp only [Bool.or_eq_true, beq_iff_eq] at hk; omega)).safe h

theorem qual_rec (n : Nat) (d : Dev) (u : Fused) : ({ d with fused := u } : Dev).gateQual n = d.gateQual n := rfl

theorem gates_aftermath (b d : Dev) : GatesSafe (aftermath b d) := by
  intro n hn
  have h1 : GateSafe n (afterTail d.settle) :=
    (qual_of_same _ n _ _ (same_afterTail d.settle) hn (fun k hk => Or.inr (Or.inr hk))).safe (gates_settle d n hn)
  have e : QualSame n (afterTail d.settle) (aftermath b d) := by
    have key : ∀ f : Field, (aftermath b d).get f = (afterTail d.settle).get f := fun f => by
      unfold Dev.get; rw [regs_aftermath]
    exact ⟨key _, key _, key _, key _, key _, fun k _ => key _, key _, key _, key _, key _, key _⟩
  exact e.safe h1

theorem any_congr8 (f g : Nat → Bool) (h : ∀ n, n < 8 → f n = g n) : (List.range 8).any f = (List.range 8).any g := by
  rw [Bool.eq_iff_iff, List.any_eq_true, List.any_eq_true]
  constructor <;> rintro ⟨x, hx, hp⟩ <;> refine ⟨x, hx, ?_⟩ <;> have := h x (List.mem_range.mp hx) <;> simp_all

theorem txinh_same (K : Nat → Bool) (d e : Dev) (h : Same K d e) (hk : ∀ k, K k = true → k < 0x41000*32 ∨ (0x41004*32 ≤ k ∧ k < 0x41100*32) ∨ 0x41200*32 ≤ k) : e.txinh = d.txinh := by
  unfold Dev.txinh
  have ht : e.tapTest = d.tapTest := h.part Dev.tapTest fun x => rfl
  rw [ht]
  congr 1
  apply any_congr8
  intro n hn
  rw [h.get (TXG_STATUS_STATE n) (bfalse fun g => by have := hk _ g; simp only [Field.key, fld, TXG_STATUS_STATE] at this; omega),
    h.get TXG_INH_CFG_INH_MASK (bfalse fun g => by have := hk _ g; simp only [Field.key, fld, TXG_INH_CFG_INH_MASK] at this; omega)]

theorem b2n_on (d : Dev) (f : Field) (b : Bool) (hw : f.w = 1) : (d.setB f b).on f = b := by
  unfold Dev.on Dev.setB; rw [Dev.get_set_same, hw]; cases b <;> rfl

theorem txinh_fused (d : Dev) (u : Fused) : ({ d with fused := u } : Dev).txinh = d.txinh := rfl

theorem inhibit_aftermath (b d : Dev) : InhibitShown (aftermath b d) := by
  unfold InhibitShown
  have h0 : (aftermath b d).txinh = (afterTail d.settle).txinh := by
    unfold aftermath; exact txinh_fused _ _
  have h1 : (afterTail d.settle).txinh = d.settle.txinh := txinh_same _ _ _ (same_afterTail d.settle) (by
    intro k hk; rw [tailKey_iff, irqKey_iff] at hk; omega)
  have h2 : (aftermath b d).on TXG_ALL_STATUS_TXINH = d.settle.on TXG_ALL_STATUS_TXINH := by
    unfold Dev.on Dev.get; rw [regs_aftermath]
    have := (same_afterTail d.settle).get TXG_ALL_STATUS_TXINH (by decide)
    unfold Dev.get at this; rw [this]
  rw [h0, h1, h2]
  generalize hx : forUpTo 8 settleGate (d.setB TRUST_STATUS_GOOD d.goodStanding) = x
  have hset : d.settle = txgShow x := by rw [← hx]; rfl
  rw [hset]
  unfold txgShow
  simp only [b2n_on _ _ _ (show TXG_ALL_STATUS_TXINH.w = 1 from rfl)]
  generalize ((x.set TXG_ALL_STATUS_OPEN (x.gateMask 2)).set TXG_ALL_STATUS_PENDING _) = y
  exact (txinh_same (fun k => k == 0x4100c*32+16) y _ (same_setB _ y TXG_ALL_STATUS_TXINH y.txinh (by decide)) (by
    intro k hk; simp only [beq_iff_eq] at hk; omega)).symm

/-- keys written by irqShow/msixSend -/
def showKey (k : Nat) : Bool := (decide (0xb2000 * 32 ≤ k) && decide (k < 0xb3000 * 32) && k / 32 % 0x40 == 0xc) || k == 0xf0a00 * 32
def oneShow (t k : Nat) : Bool := k / 32 == 0xb200c + 0x40 * t || k == 0xf0a00 * 32
theorem showKey_iff (k : Nat) : showKey k = true ↔ (0xb2000 * 32 ≤ k ∧ k < 0xb3000 * 32 ∧ k / 32 % 0x40 = 0xc) ∨ k = 0xf0a00 * 32 := by
  simp only [showKey, Bool.or_eq_true, Bool.and_eq_true, decide_eq_true_eq, beq_iff_eq, and_assoc]
theorem oneShow_iff (t k : Nat) : oneShow t k = true ↔ k / 32 = 0xb200c + 0x40 * t ∨ k = 0xf0a00 * 32 := by
  simp only [oneShow, Bool.or_eq_true, beq_iff_eq]

theorem same_show1 (t : Nat) (d : Dev) : Same (oneShow t) d (irqShow t d) := by
  have k1 : oneShow t (IRQ_T_STATUS_CAND t).key = true := by rw [oneShow_iff]; simp only [Field.key, IRQ_T_STATUS_CAND, fld]; omega
  have k2 : oneShow t (IRQ_T_STATUS_DEPTH t).key = true := by rw [oneShow_iff]; simp only [Field.key, IRQ_T_STATUS_DEPTH, fld]; omega
  have k3 : oneShow t (IRQ_T_STATUS_RUNPRI t).key = true := by rw [oneShow_iff]; simp only [Field.key, IRQ_T_STATUS_RUNPRI, fld]; omega
  have k4 : oneShow t (IRQ_T_STATUS_WAKE t).key = true := by rw [oneShow_iff]; simp only [Field.key, IRQ_T_STATUS_WAKE, fld]; omega
  have k5 : oneShow t HOST_MSIX_PBA_PEND.key = true := by rw [oneShow_iff]; exact Or.inr rfl
  have shown : ∀ c x, Same (oneShow t) x (irqStatus t c x) := fun c x =>
    ((same_set _ _ _ _ k1).trans ((same_set _ _ _ _ k2).trans (same_set _ _ _ _ k3))).trans (same_setB _ _ _ _ k4)
  have pba : ∀ c x, Same (oneShow t) x (pbaFollow c x) := by
    intro c x; simp only [pbaFollow]; split
    · exact .refl _ _
    · exact same_set _ _ _ _ k5
  simp only [irqShow]
  split
  · split
    · exact ((shown _ _).trans (pba _ _)).trans ⟨fun _ _ _ => rfl, rfl⟩
    · exact (shown _ _).trans (pba _ _)
  · exact shown _ _

theorem same_send (v : Nat) (d : Dev) : Same (oneShow 0) d (msixSend v d) := by
  have k5 : oneShow 0 HOST_MSIX_PBA_PEND.key = true := by decide
  unfold msixSend; split
  · exact .refl _ _
  · split
    · exact (same_clrBit _ _ _ _ k5).trans ⟨fun _ _ _ => rfl, rfl⟩
    · exact same_setBit _ _ _ _ k5

/-- what candidate reads -/
structure CandSame (d e : Dev) : Prop where
  mode : e.mode = d.mode
  pend : ∀ i, i < 32 → e.get (IRQ_PEND_PEND i) = d.get (IRQ_PEND_PEND i)
  prio : ∀ n, n < 1024 → e.get (IRQ_SRC_CFG_PRIO n) = d.get (IRQ_SRC_CFG_PRIO n)
  target : ∀ n, n < 1024 → e.srcTarget n = d.srcTarget n
  en : ∀ n, n < 1024 → e.srcEn n = d.srcEn n
  stk : e.irq.prios = d.irq.prios
  new : e.cyc.newPend = d.cyc.newPend

theorem pendList_lt (d : Dev) (n : Nat) (h : n ∈ d.pendList) : n < 1024 := by
  unfold Dev.pendList at h
  simp only [List.mem_flatMap, List.mem_range] at h
  obtain ⟨i, hi, h⟩ := h
  split at h
  · cases h
  · simp only [List.mem_map, List.mem_filter, List.mem_range] at h
    obtain ⟨j, ⟨hj, _⟩, rfl⟩ := h
    omega

theorem CandSame.list {d e : Dev} (h : CandSame d e) : e.pendList = d.pendList := by
  unfold Dev.pendList
  have : ∀ l : List Nat, (∀ x ∈ l, x < 32) → l.flatMap (fun i =>
    let w := e.get (IRQ_PEND_PEND i)
    if w = 0 then [] else ((List.range 32).filter fun j => bit w j).map fun j => 32 * i + j) = l.flatMap (fun i =>
    let w := d.get (IRQ_PEND_PEND i)
    if w = 0 then [] else ((List.range 32).filter fun j => bit w j).map fun j => 32 * i + j) := by
    intro l hl
    induction l with
    | nil => rfl
    | cons x r ih =>
      simp only [List.flatMap_cons]
      rw [h.pend x (hl x (List.mem_cons_self ..)), ih fun y hy => hl y (List.mem_cons_of_mem _ hy)]
  exact this _ fun x hx => List.mem_range.mp hx

theorem foldl_congr {α β : Type} (f g : β → α → β) (l : List α) (b : β) (h : ∀ b x, x ∈ l → f b x = g b x) : l.foldl f b = l.foldl g b := by
  induction l generalizing b with
  | nil => rfl
  | cons x r ih =>
    simp only [List.foldl_cons]
    rw [h b x (List.mem_cons_self ..)]
    exact ih _ fun b y hy => h b y (List.mem_cons_of_mem _ hy)

/-- candidate's fold with ≥ invariants -/
def pick (d : Dev) (t : Nat) (best : Option Nat) (n : Nat) : Option Nat :=
      if d.eligible t n && !d.cyc.newPend.contains n then
        (match best with | some b => if d.srcPrio n < d.srcPrio b then some n else best | none => some n)
      else best

theorem pick_lt (d : Dev) (t : Nat) (l : List Nat) (b : Option Nat) (hl : ∀ x ∈ l, x < 1024) (hb : ∀ x, b = some x → x < 1024) :
   ∀ x, l.foldl (pick d t) b = some x → x < 1024 := by
  induction l generalizing b with
  | nil => exact hb
  | cons y r ih =>
    apply ih _ fun z hz => hl z (List.mem_cons_of_mem _ hz)
    intro x hx
    have hy := hl y (List.mem_cons_self ..)
    unfold pick at hx
    split at hx
    · split at hx
      · split at hx
        · cases hx; exact hy
        · exact hb _ hx
      · cases hx; exact hy
    · exact hb _ hx

theorem candidate_eq (d : Dev) (t : Nat) : d.candidate t = if d.mode = 4 ∧ 1 < t then 1023 else (d.pendList.foldl (pick d t) none).getD 1023 := rfl

theorem cand_lt (d : Dev) (t : Nat) : d.candidate t < 1024 := by
  rw [candidate_eq]
  split
  · omega
  · cases h : d.pendList.foldl (pick d t) none with
    | none => simp
    | some x => exact pick_lt d t _ _ (fun y hy => pendList_lt d y hy) (by simp) x h

theorem pick_same (d e : Dev) (h : CandSame d e) (t : Nat) (l : List Nat) (b : Option Nat) (hl : ∀ x ∈ l, x < 1024) (hb : ∀ x, b = some x → x < 1024) :
   l.foldl (pick e t) b = l.foldl (pick d t) b := by
  have hp : ∀ n, n < 1024 → e.srcPrio n = d.srcPrio n := fun n hn => by unfold Dev.srcPrio; rw [h.mode, h.prio n hn]
  induction l generalizing b with
  | nil => rfl
  | cons y r ih =>
    simp only [List.foldl_cons]
    have hy := hl y (List.mem_cons_self ..)
    have e1 : pick e t b y = pick d t b y := by
      unfold pick Dev.eligible Dev.runPri Dev.irqStack
      rw [h.target y hy, h.en y hy, hp y hy, h.stk, h.new]
      cases b with
      | none => rfl
      | some z => simp only [hp z (hb z rfl)]
    rw [e1]
    apply ih _ (fun z hz => hl z (List.mem_cons_of_mem _ hz))
    exact pick_lt d t [y] b (by simp; exact hy) hb

theorem CandSame.cand {d e : Dev} (h : CandSame d e) (t : Nat) : e.candidate t = d.candidate t := by
  rw [candidate_eq, candidate_eq, h.mode, h.list, pick_same d e h t _ _ (fun x hx => pendList_lt d x hx) (by simp)]

theorem cand_of_same (K : Nat → Bool) (d e : Dev) (h : Same K d e) (hs : e.irq.prios = d.irq.prios)
  (hn : e.cyc.newPend = d.cyc.newPend) (hk : ∀ k, K k = true → showKey k = true) : CandSame d e := by
  have key : ∀ f : Field, ¬ showKey f.key = true → e.get f = d.get f := fun f hf => h.get f (bfalse fun g => hf (hk _ g))
  have hm : e.mode = d.mode := key _ (by decide)
  refine ⟨hm, fun i hi => key _ ?_, fun n hn => key _ ?_, fun n hn => ?_, fun n hn => ?_, hs, hn⟩
  · rw [showKey_iff]; simp only [Field.key, IRQ_PEND_PEND, fld]; omega
  · rw [showKey_iff]; simp only [Field.key, IRQ_SRC_CFG_PRIO, fld]; omega
  · unfold Dev.srcTarget; rw [hm, key (IRQ_SRC_CFG_TARGET n) (by rw [showKey_iff]; simp only [Field.key, IRQ_SRC_CFG_TARGET, fld]; omega)]
  · unfold Dev.srcEn Dev.on
    rw [hm, key (IRQ_SRC_CFG_EN n) (by rw [showKey_iff]; simp only [Field.key, IRQ_SRC_CFG_EN, fld]; omega),
      key (SKW_CH_CTL_IRQ_EN n) (by rw [showKey_iff]; simp only [Field.key, SKW_CH_CTL_IRQ_EN, fld]; omega)]

theorem stacks_show (t : Nat) (d : Dev) : (irqShow t d).irq.prios = d.irq.prios := by
  have p : ∀ c x, (pbaFollow c x).irq = x.irq := by intro c x; simp only [pbaFollow]; split <;> rfl
  simp only [irqShow]
  split
  · split
    · unfold msiSchedule; simp only [p]; rfl
    · simp only [p]; rfl
  · rfl

theorem new_show (t : Nat) (d : Dev) : (irqShow t d).cyc = d.cyc := by
  have p : ∀ c x, (pbaFollow c x).cyc = x.cyc := by intro c x; simp only [pbaFollow]; split <;> rfl
  simp only [irqShow]
  split
  · split
    · unfold msiSchedule; simp only [p]; rfl
    · simp only [p]; rfl
  · rfl

theorem show_shows (t : Nat) (d : Dev) : (irqShow t d).get (IRQ_T_STATUS_CAND t) = d.candidate t := by
  have hs : ∀ c, (irqStatus t c d).get (IRQ_T_STATUS_CAND t) = c % 1024 := by
    intro c
    unfold irqStatus Dev.setB
    rw [Dev.get_set_ne _ _ _ _ (by simp only [Field.key, fld, IRQ_T_STATUS_CAND, IRQ_T_STATUS_WAKE]; omega),
      Dev.get_set_ne _ _ _ _ (by simp only [Field.key, fld, IRQ_T_STATUS_CAND, IRQ_T_STATUS_RUNPRI]; omega),
      Dev.get_set_ne _ _ _ _ (by simp only [Field.key, fld, IRQ_T_STATUS_CAND, IRQ_T_STATUS_DEPTH]; omega), Dev.get_set_same]
    rfl
  have hp : ∀ c x, (pbaFollow c x).get (IRQ_T_STATUS_CAND t) = x.get (IRQ_T_STATUS_CAND t) := by
    intro c x; simp only [pbaFollow]; split
    · rfl
    · rw [Dev.get_set_ne _ _ _ _ (by simp only [Field.key, fld, IRQ_T_STATUS_CAND, HOST_MSIX_PBA_PEND]; omega)]
  have hc : d.candidate t % 1024 = d.candidate t := Nat.mod_eq_of_lt (cand_lt d t)
  have hm : ∀ c x, (msiSchedule c x).get (IRQ_T_STATUS_CAND t) = x.get (IRQ_T_STATUS_CAND t) := fun c x => rfl
  simp only [irqShow]
  split
  · split
    · rw [hm, hp, hs, hc]
    · rw [hp, hs, hc]
  · rw [hs, hc]

theorem cands_all (k : Nat) (d : Dev) : ∀ t, t < k → k ≤ 11 → (forUpTo k irqShow d).get (IRQ_T_STATUS_CAND t) = (forUpTo k irqShow d).candidate t := by
  induction k with
  | zero => intro t ht; omega
  | succ k ih =>
    intro t ht hk
    have e : forUpTo (k+1) irqShow d = irqShow k (forUpTo k irqShow d) := by
      unfold forUpTo; rw [List.range_succ, List.foldl_append]; rfl
    rw [e]
    have c : CandSame (forUpTo k irqShow d) (irqShow k (forUpTo k irqShow d)) :=
      cand_of_same _ _ _ (same_show1 k _) (stacks_show _ _) (by rw [new_show]) (by intro x hx; rw [oneShow_iff] at hx; rw [showKey_iff]; omega)
    rw [c.cand]
    by_cases h : t = k
    · subst h; exact show_shows _ _
    · rw [← ih t (by omega) (by omega)]
      exact (same_show1 k _).get _ (bfalse fun g => by rw [oneShow_iff] at g; simp only [Field.key, IRQ_T_STATUS_CAND, fld] at g; omega)

theorem send_due (t : Nat) (d : Dev) : Same (fun k => k == 0xf0a00*32) d (msixDue t d) ∧ (msixDue t d).irq.prios = d.irq.prios ∧ (msixDue t d).cyc = d.cyc := by
  have one : ∀ v (d : Dev), Same (fun k => k == 0xf0a00*32) d (msixSend v d) ∧ (msixSend v d).irq.prios = d.irq.prios ∧ (msixSend v d).cyc = d.cyc := by
    intro v d
    have ib : ∀ (x : Dev) f i, (x.clrBit f i).irq = x.irq := by intro x f i; unfold Dev.clrBit; split <;> rfl
    have sb : ∀ (x : Dev) f i, (x.setBit f i).irq = x.irq := by intro x f i; unfold Dev.setBit; split <;> rfl
    have cc : ∀ (x : Dev) f i, (x.clrBit f i).cyc = x.cyc := by intro x f i; unfold Dev.clrBit; split <;> rfl
    have sc : ∀ (x : Dev) f i, (x.setBit f i).cyc = x.cyc := by intro x f i; unfold Dev.setBit; split <;> rfl
    unfold msixSend; split
    · exact ⟨.refl _ _, rfl, rfl⟩
    · split
      · exact ⟨(same_clrBit _ _ _ _ (by decide)).trans ⟨fun _ _ _ => rfl, rfl⟩, rfl, cc _ _ _⟩
      · exact ⟨same_setBit _ _ _ _ (by decide), by rw [sb], sc _ _ _⟩
  simp only [msixDue]
  split
  · exact ⟨.refl _ _, rfl, rfl⟩
  · generalize d.irq.msi.filter (fun x => decide (x.1 ≤ t)) = l
    have go : ∀ (l : List (Nat × Nat)) (x : Dev), Same (fun k => k == 0xf0a00*32) x (l.foldl (fun d x => msixSend x.2 d) x) ∧ (l.foldl (fun d x => msixSend x.2 d) x).irq.prios = x.irq.prios ∧ (l.foldl (fun d x => msixSend x.2 d) x).cyc = x.cyc := by
      intro l
      induction l with
      | nil => intro x; exact ⟨.refl _ _, rfl, rfl⟩
      | cons y r ih =>
        intro x
        have a := one y.2 x
        have b := ih (msixSend y.2 x)
        exact ⟨a.1.trans b.1, b.2.1.trans a.2.1, b.2.2.trans a.2.2⟩
    have := go l { d with irq := { d.irq with msi := d.irq.msi.filter fun x => !decide (x.1 ≤ t) } }
    exact ⟨Same.trans (b := { d with irq := { d.irq with msi := d.irq.msi.filter fun x => !decide (x.1 ≤ t) } }) ⟨fun _ _ _ => rfl, rfl⟩ this.1, this.2.1, this.2.2⟩

theorem cand_fused (d : Dev) (u : Fused) (t : Nat) : ({ d with fused := u } : Dev).candidate t = d.candidate t := rfl
theorem get_fused (d : Dev) (u : Fused) (f : Field) : ({ d with fused := u } : Dev).get f = d.get f := rfl

theorem cands_settle (d : Dev) : CandidatesShown (irqSettle d) := by
  intro t ht
  unfold irqSettle
  have h := send_due d.clock.now (irqAll d)
  rw [h.1.get _ (bfalse fun g => by simp only [Field.key, IRQ_T_STATUS_CAND, fld, beq_iff_eq] at g; omega)]
  rw [(cand_of_same _ _ _ h.1 h.2.1 (by rw [h.2.2]) (by intro x hx; rw [beq_iff_eq] at hx; rw [showKey_iff]; omega)).cand]
  exact cands_all 11 d t ht (by omega)

theorem cands_aftermath (b d : Dev) : CandidatesShown (aftermath b d) := by
  intro t ht
  unfold aftermath afterTail
  rw [get_fused, cand_fused]
  exact cands_settle _ t ht

end Sys2Proof.Machine
end

