-- ==== Sys2Proof/WellFormed.lean ====
section
/-!
DEFINITION. Sys2Proof/WellFormed.lean: what the type of a command leaves unsaid of one that can arrive: engines and ports that exist, bytes
and words of their width, instants within the 48-bit seconds of TAI (R7, R46).
-/
namespace Sys2Proof

/-- R37: the master exists. -/
def masterOk : Machine.Master → Bool
  | .ce n => decide (n < 8)
  | _ => true

/-- An instant in ns lies within the time counter's range (R46). -/
def instantOk (t : Nat) : Bool := decide (t < 2 ^ 48 * 1000000000)
/-- An instant in 2^-16 ns lies within the range of a stamp (R7). -/
def stampOk (t : Nat) : Bool := decide (t < 2 ^ 48 * 1000000000 * 65536)
/-- Every element is a byte. -/
def bytesOk (l : List Nat) : Bool := l.all fun b => decide (b < 256)
/-- R321: the fields of a crew frame's header have their widths. -/
def hdrOk (h : Hdr) : Bool :=
  decide (h.port < 4) && decide (h.dst < 65536) && decide (h.src < 65536) && decide (h.seq < 65536) && decide (h.fcnt < 2 ^ 64)
/-- R324: the fields of a TIMING payload. -/
def timingOk (x : TimingMsg) : Bool :=
  stampOk x.arrive && stampOk x.stamp && decide (x.serial < 2 ^ 64) && decide (x.prio < 256) && decide (x.hops < 256) &&
  decide (x.tbState < 8) && decide (x.bound < 2 ^ 32) && decide (x.strokeNo < 2 ^ 32)
/-- R322: the fields of a ROLL_REPLY. -/
def replyOk (x : ReplyMsg) : Bool := decide (x.serial < 2 ^ 64) && decide (x.spanMin ≤ x.spanMax) && decide (x.sdWords ≤ 16)
/-- R322: the fields of a ROLL_RESULT. -/
def resultOk (x : ResultMsg) : Bool :=
  instantOk x.at_ && decide (x.roster < 2 ^ 1024) && decide (x.sd < 2 ^ 1024) &&
  (match x.grant with | some i => decide (i < 1024) | none => true)
/-- R336, R337: stroke-data records: a crew ID and at most 16 words. -/
def recordsOk (l : List (Nat × List Nat)) : Bool :=
  l.all fun r => decide (r.1 < 1024) && decide (r.2.length ≤ 16) && r.2.all fun w => decide (w < 2 ^ 32)
/-- A PTP message's port, domain, sequence number, AUTHENTICATION TLV and bytes. -/
def ptpOk (h : PtpHdr) : Bool :=
  decide (h.port < 4) && decide (h.domain < 256) && decide (h.seq < 65536) &&
  (match h.auth with | some t => decide (t.spp < 256) && decide (t.keyId < 2 ^ 32) | none => true) && stampOk h.mii && bytesOk h.bytes
/-- The fields of an Announce. -/
def announceOk (x : AnnMsg) : Bool :=
  decide (x.id < 2 ^ 64) && decide (x.portNo < 65536) && decide (x.prio1 < 256) && decide (x.cls < 256) && decide (x.accuracy < 256) &&
  decide (x.variance < 65536) && decide (x.prio2 < 256) && decide (x.gm < 2 ^ 64) && decide (x.steps < 65536)
/-- R372: a service class. -/
def svcOk : KeelSvc → Bool
  | .other c => decide (c < 8)
  | _ => true
/-- R517: a boot directory and what it names. -/
def bootDirOk (x : BootDir) : Bool :=
  decide (x.dramCfg < 2 ^ 32) && decide (x.baseA < 2 ^ 32) && decide (x.baseB < 2 ^ 32) &&
  (match x.patch with | some p => bytesOk p.1 | none => true) &&
  (match x.imgA with | some p => bytesOk p.1 | none => true) &&
  (match x.imgB with | some p => bytesOk p.1 | none => true)
def dirOk : Option BootDir → Bool
  | some x => bootDirOk x
  | none => true
/-- R516: what a boot finds. -/
def bootOk (b : BootIn) : Bool := decide (b.strap < 4) && dirOk b.dir

/-- The command is one that can arrive. -/
def wellFormed : Instr → Bool
  | .strokeCatch => true
  | .finishWindow => true
  | .periodChange => true
  | .fabricGrant _ => true
  | .strokeNoLoRead m => masterOk m
  | .maxwaitClear => true
  | .timeSecLoRead m => masterOk m
  | .ffoLoRead m => masterOk m
  | .freqLoRead m _ => masterOk m
  | .filterUpdate => true
  | .ffoApply => true
  | .oscFault _ => true
  | .oscReturn _ => true
  | .carrierChange => true
  | .modelSave => true
  | .modelClear => true
  | .timeSetGo => true
  | .timeSet => true
  | .timeStep => true
  | .tbStateChange => true
  | .leapSecond => true
  | .mooredTick => true
  | .trkEdge _ stamp _ => stampOk stamp
  | .toothDecision _ _ => true
  | .syntheticTooth _ => true
  | .qualExpire _ => true
  | .holdExpire _ => true
  | .pullInDone _ => true
  | .ttDataHiWrite _ _ => true
  | .trkRestart _ => true
  | .trkRelease _ => true
  | .phaseTrigger _ _ => true
  | .revNoLoRead m _ => masterOk m
  | .cntIndex _ at_ => instantOk at_
  | .cntGate _ => true
  | .cntArm _ => true
  | .countLoRead m _ => masterOk m
  | .splitPop m _ => masterOk m
  | .coxConversion => true
  | .refillBurst => true
  | .refillReturn _ _ => true
  | .armedLoRead m => masterOk m
  | .perfClear => true
  | .actionNop _ => true
  | .setHigh _ => true
  | .setLow _ => true
  | .toggle _ => true
  | .pulse _ => true
  | .trainStart _ => true
  | .trainStop _ => true
  | .captureArm _ => true
  | .captureDisarm _ => true
  | .trigAdc _ => true
  | .trigDma _ => true
  | .signalCe _ => true
  | .raiseIrq _ => true
  | .gateOpen _ => true
  | .gateClose _ => true
  | .mark _ => true
  | .pulseReturn _ => true
  | .trainPulse _ => true
  | .hevGo _ => true
  | .flush _ => true
  | .fifoClear _ => true
  | .chCountClear _ => true
  | .captureEdge _ t _ => stampOk t
  | .measTimeout _ => true
  | .starve _ => true
  | .calibration _ => true
  | .kaPatternEvent _ => true
  | .kaEnd _ => true
  | .synCalibrationDone _ => true
  | .phaseLock _ => true
  | .lockLost _ => true
  | .synAligned _ => true
  | .recal _ => true
  | .guardPeriod _ => true
  | .calRound _ => true
  | .calOverdue _ => true
  | .txgOpen _ => true
  | .txgClose _ => true
  | .gateTimeout _ => true
  | .ceStart _ => true
  | .wheelAccessComplete _ => true
  | .interruptEntry _ => true
  | .waitWake _ => true
  | .halt _ => true
  | .resume _ => true
  | .ceStep _ => true
  | .xregWrite _ _ _ => true
  | .specWrite _ _ _ => true
  | .runmaxClear _ => true
  | .ceNop _ _ => true
  | .ceJmpr _ _ _ => true
  | .ceCallr _ _ _ _ => true
  | .ceRet _ _ _ => true
  | .ceRtt _ _ => true
  | .ceRti _ _ => true
  | .ceYield _ _ => true
  | .ceWait _ _ => true
  | .ceTrap _ _ => true
  | .ceSpill _ _ => true
  | .ceFill _ _ => true
  | .ceRep _ _ _ _ => true
  | .ceRepi _ _ _ _ => true
  | .ceMfs _ _ _ _ => true
  | .ceMts _ _ _ _ => true
  | .ceEi _ _ => true
  | .ceDi _ _ => true
  | .ceJmp _ _ _ => true
  | .ceCall _ _ _ _ => true
  | .ceAdd _ _ _ _ _ _ _ => true
  | .ceAdc _ _ _ _ _ _ _ => true
  | .ceSub _ _ _ _ _ _ _ => true
  | .ceSbc _ _ _ _ _ _ _ => true
  | .ceAnd _ _ _ _ _ _ _ => true
  | .ceOr _ _ _ _ _ _ _ => true
  | .ceXor _ _ _ _ _ _ _ => true
  | .ceAndn _ _ _ _ _ _ _ => true
  | .ceShl _ _ _ _ _ _ _ => true
  | .ceShr _ _ _ _ _ _ _ => true
  | .ceSar _ _ _ _ _ _ _ => true
  | .ceRol _ _ _ _ _ _ _ => true
  | .ceMin _ _ _ _ _ _ _ => true
  | .ceMax _ _ _ _ _ _ _ => true
  | .ceMinu _ _ _ _ _ _ _ => true
  | .ceMaxu _ _ _ _ _ _ _ => true
  | .ceCmp _ _ _ _ _ _ => true
  | .ceTst _ _ _ _ _ _ => true
  | .ceMov _ _ _ _ _ _ => true
  | .ceNeg _ _ _ _ _ _ => true
  | .ceNot _ _ _ _ _ _ => true
  | .ceAbs _ _ _ _ _ _ => true
  | .ceSext8 _ _ _ _ _ _ => true
  | .ceSwapb _ _ _ _ _ _ => true
  | .ceAdds _ _ _ _ _ _ _ => true
  | .ceSubs _ _ _ _ _ _ _ => true
  | .ceAddi _ _ _ _ _ _ _ => true
  | .ceAndi _ _ _ _ _ _ _ => true
  | .ceOri _ _ _ _ _ _ _ => true
  | .ceXori _ _ _ _ _ _ _ => true
  | .ceShli _ _ _ _ _ _ _ => true
  | .ceShri _ _ _ _ _ _ _ => true
  | .ceSari _ _ _ _ _ _ _ => true
  | .ceRoli _ _ _ _ _ _ _ => true
  | .ceCmpi _ _ _ _ _ _ => true
  | .ceMovi _ _ _ _ _ => true
  | .ceLd _ _ _ _ _ _ => true
  | .ceLdp _ _ _ _ _ _ => true
  | .ceSt _ _ _ _ _ _ => true
  | .ceStp _ _ _ _ _ _ => true
  | .ceLdPostinc _ _ _ _ _ => true
  | .ceLdpPostinc _ _ _ _ _ => true
  | .ceStPostinc _ _ _ _ _ => true
  | .ceStpPostinc _ _ _ _ _ => true
  | .ceLda _ _ _ _ _ => true
  | .ceSta _ _ _ _ _ => true
  | .ceLdpa _ _ _ _ _ => true
  | .ceStpa _ _ _ _ _ => true
  | .ceMovw _ _ _ _ _ _ => true
  | .ceScanw _ _ _ _ _ => true
  | .ceArm _ _ _ _ _ => true
  | .ceArmp _ _ _ _ => true
  | .ceGetsn _ _ _ => true
  | .ceGetct _ _ _ => true
  | .ceTclr _ _ => true
  | .ceBset _ _ _ _ _ => true
  | .ceBclr _ _ _ _ _ => true
  | .ceBtgl _ _ _ _ _ => true
  | .ceBtst _ _ _ _ => true
  | .ceBext _ _ _ _ _ _ => true
  | .ceBins _ _ _ _ _ _ => true
  | .ceClz _ _ _ _ => true
  | .cePopc _ _ _ _ => true
  | .cePar _ _ _ _ _ _ => true
  | .ceBrev _ _ _ _ => true
  | .ceBrev8 _ _ _ _ => true
  | .ceCrcb _ _ _ _ _ => true
  | .ceCrcw _ _ _ _ _ => true
  | .ceMul _ _ _ _ _ _ => true
  | .ceMulu _ _ _ _ _ _ => true
  | .ceMac _ _ _ _ _ _ => true
  | .ceMacs _ _ _ _ _ _ => true
  | .ceMsu _ _ _ _ _ _ => true
  | .ceMacu _ _ _ _ _ _ => true
  | .ceMulq _ _ _ _ _ _ => true
  | .peStart _ => true
  | .peBr _ _ _ _ _ _ => true
  | .peHold _ _ _ _ _ _ _ => true
  | .peSend _ _ _ _ _ _ => true
  | .peTake _ _ _ _ _ _ => true
  | .peLoad _ _ _ _ _ _ => true
  | .peStore _ _ _ _ _ _ => true
  | .pePut _ _ _ _ _ _ => true
  | .peLdc _ _ _ _ _ _ _ => true
  | .peSync _ _ _ _ _ => true
  | .peFlagSet _ _ _ _ _ => true
  | .peFlagClear _ _ _ _ _ => true
  | .peFlagSignal _ _ _ _ _ => true
  | .peFlagWait _ _ _ _ _ => true
  | .peXfer _ _ _ _ _ _ _ => true
  | .peUnstall _ _ => true
  | .idleFlush _ => true
  | .txqPush _ _ => true
  | .rxqPop m _ => masterOk m
  | .gflagsWrite _ _ => true
  | .peRestart _ => true
  | .peCountClear _ => true
  | .rigLoad => true
  | .rigLoadComplete _ => true
  | .rigAccept => true
  | .rigClear => true
  | .codeCopy => true
  | .txnBegin m => masterOk m
  | .commitNext m _ => masterOk m
  | .commitAtStroke m _ => masterOk m
  | .commitAtTime m _ => masterOk m
  | .rollback m _ => masterOk m
  | .commitCrew m _ => masterOk m
  | .timing h x => hdrOk h && timingOk x
  | .sdUp h recs => hdrOk h && recordsOk recs
  | .sdDown h slots stale => hdrOk h && recordsOk slots && decide (stale < 2 ^ 1024)
  | .rollPoll h epoch round => hdrOk h && instantOk epoch && decide (1 ≤ round) && decide (round ≤ 3)
  | .rollReply h x => hdrOk h && replyOk x
  | .rollResult h x => hdrOk h && resultOk x
  | .rollReq h => hdrOk h
  | .rollCallRound => true
  | .rollCallComplete => true
  | .ccBegin h => hdrOk h
  | .ccPrepare h at_ => hdrOk h && instantOk at_
  | .ccVote h _ => hdrOk h
  | .ccDecide h _ => hdrOk h
  | .ccCtrlBegin m => masterOk m
  | .ccDecision => true
  | .raGo => true
  | .raReq h _ _ _ _ => hdrOk h
  | .raResp h _ _ => hdrOk h
  | .raTimeout => true
  | .dbTxGo => true
  | .doorbell h _ _ => hdrOk h
  | .keyInit h nonce => hdrOk h && decide (nonce < 2 ^ 256)
  | .keyConf h => hdrOk h
  | .rekey => true
  | .rekeyTimer _ => true
  | .portBlockLock _ _ => true
  | .timingLoss _ => true
  | .electionEnd => true
  | .rollcall => true
  | .raiseLevel => true
  | .crewQualify => true
  | .leadSerLoRead m => masterOk m
  | .ethLinkChange _ _ _ => true
  | .ethRetrain _ => true
  | .ptpSyncRx h t1 _ _ => ptpOk h && stampOk t1
  | .ptpFollowUpRx h t1 _ => ptpOk h && stampOk t1
  | .ptpDelayReqRx h => ptpOk h
  | .ptpDelayRespRx h t4 _ => ptpOk h && stampOk t4
  | .ptpAnnounceRx h x => ptpOk h && announceOk x
  | .ptpSignalingRx h => ptpOk h
  | .pdelayRx h => ptpOk h
  | .esmcPduRx _ _ _ => true
  | .hostFrameRx _ bytes => bytesOk bytes
  | .syncLaunch _ => true
  | .delayReqLaunch _ mii => stampOk mii
  | .announceLaunch _ => true
  | .announceTimeout _ => true
  | .esmcInfoPdu _ => true
  | .esmcTimeout _ => true
  | .ptpMeasurementTooth _ => true
  | .parentLoRead m _ => masterOk m
  | .clkIdLoRead m => masterOk m
  | .watchdog svc _ frames => svcOk svc && decide (frames ≤ 8)
  | .patchLoad => true
  | .patchVerifyDone _ _ => true
  | .install => true
  | .patchAccept => true
  | .patchClear => true
  | .pramAddrWrite _ => true
  | .peakClear => true
  | .stackClr => true
  | .sourcePending _ => true
  | .ack m _ => masterOk m
  | .eoi _ => true
  | .pendClear _ _ => true
  | .dbRing m _ _ => masterOk m
  | .msixMessage => true
  | .vctrlWrite _ _ => true
  | .skwGo m _ => masterOk m
  | .skwCtlWrite m _ _ => masterOk m
  | .capLoRead m _ => masterOk m
  | .skwTimeLoRead m => masterOk m
  | .irqVecRead m => masterOk m
  | .irqDone m => masterOk m
  | .dmaStart _ => true
  | .dmaStop _ => true
  | .dmaCountClear _ => true
  | .descriptorFetch _ _ => true
  | .burst => true
  | .burstReadReturn _ _ _ => true
  | .descriptorComplete _ => true
  | .lateResponse _ => true
  | .chkInit _ => true
  | .chkGo _ => true
  | .scanDone _ _ => true
  | .eccWriteback _ => true
  | .scrub errs => errs.all fun e => decide (e.1 < 12) && decide (1 ≤ e.2) && decide (e.2 ≤ 2)
  | .dramTrain => true
  | .dramTrainingDone => true
  | .mr4Sample _ => true
  | .zqCalibration => true
  | .dramAccessComplete _ => true
  | .maxlatClear => true
  | .pciePostedWrite _ bytes => bytesOk bytes && !bytes.isEmpty && decide (bytes.length ≤ 256)
  | .pcieReadRequest _ bytes _ => decide (1 ≤ bytes) && decide (bytes ≤ 512)
  | .pcieCompletion => true
  | .perstLow => true
  | .hotReset => true
  | .functionLevelReset => true
  | .spiWrite _ _ _ => true
  | .spiRead _ _ late bad => decide (late < 2 ^ 256) && decide (bad < 2 ^ 256)
  | .spiCsRise => true
  | .i2cWrite _ _ _ => true
  | .i2cRead _ _ => true
  | .i2cTimeout => true
  | .qspiGo => true
  | .qspiDone bytes => bytesOk bytes
  | .uartDataWrite _ => true
  | .uartDataRead m => masterOk m
  | .uartRxByte _ => true
  | .provision => true
  | .attest => true
  | .cmdSetPolicy => true
  | .cmdClearTamper => true
  | .deploy _ => true
  | .service _ => true
  | .boathouse _ => true
  | .addKey _ => true
  | .revokeKey _ => true
  | .tokenSetPolicy _ => true
  | .setTamper _ => true
  | .tokenClearTamper _ => true
  | .keys _ plain => (match plain with | some b => bytesOk b | none => true)
  | .release _ => true
  | .scrap _ => true
  | .trustCmdComplete _ plain => (match plain with | some b => bytesOk b | none => true)
  | .tamperFire _ => true
  | .serialLoRead m => masterOk m
  | .rdDataRead m => masterOk m
  | .modeChange => true
  | .windDownEnd => true
  | .wake _ dir => dirOk dir
  | .wakeTimer => true
  | .gtio1Wake => true
  | .tempSample t => decide (t.length = 4)
  | .powerOnReset b => bootOk b
  | .supplyMonitorReset => true
  | .warmReset => true
  | .warm m => masterOk m
  | .warmResetComplete => true
  | .adcConversionEnd _ => true
  | .supplySample mv => decide (mv.length ≤ 16)
  | .sliceEnd _ _ => true
  | .passStart => true
  | .full => true
  | .fullRunDone failed => failed.all fun u => decide (u < 352)
  | .struct => true
  | .registerWrite m _ _ => masterOk m
  | .counterInputEdge _ stamp => stampOk stamp
  | .frameOfOtherType h => hdrOk h
  | .dramRefresh => true
  | .perstRise => true
  | .porstNLow => true
  | .pcieLinkStateChange _ _ _ _ => true
  | .pcieConfigWrite _ _ _ => true
  | .uartByteSent => true
  | .hostFrameSent _ => true
  | .tapInstructionUpdate _ => true

end Sys2Proof
end

