-- ==== Sys2Proof/Tests/Slice0.lean ====
section
/-!
SUPPORT. Sys2Proof/Tests/Slice0.lean: tests. A theorem `witness_X` shows states and operands that meet the hypotheses of the clauses of
obligation `X`, clause by clause; a theorem `test_x` checks a result of the spec on a small state, or a command that cannot arrive.
-/
namespace Sys2Proof.Tests
open Sys2Proof Sys2Proof.Machine
set_option Elab.async false

/-- The reset state with a changed device. -/
def st (f : Dev → Dev) : State := { State.reset with dev := f State.reset.dev }
/-- Register fields set. -/
def setAll (l : List (Field × Nat)) (d : Dev) : Dev := l.foldl (fun d x => d.set x.1 x.2) d
/-- The reset state with register fields set. -/
def rst (l : List (Field × Nat)) : State := st (setAll l)
/-- Device time after the first catch. -/
def t0 : Nat := 1000000000

/-- The reset state with its clock in phase `p`. -/
def inPhase (p : Phase) : State := st fun d => { d with clock := { d.clock with phase := p } }
/-- The reset state in mode 3 with register fields set. -/
def m3 (l : List (Field × Nat)) : State := rst ((PWR_MODE_CUR, 3) :: (PWR_MODE_TARGET, 3) :: l)

theorem witness_StepsRunCommandsOrOneClock :
    State.reset.pending = [] ∧ State.reset.dev.clock.phase ≠ .held ∧ (inPhase .held).dev.clock.phase = .held := by and_intros <;> decide

theorem witness_CommandsCompleteAndHeldOnesWait :
    (inPhase .held).dev.clock.phase = .held ∧
    (∀ b, Instr.eoi 0 ≠ .powerOnReset b) ∧ Instr.eoi 0 ≠ .supplyMonitorReset ∧ Instr.eoi 0 ≠ .porstNLow ∧
    (∀ v, Instr.eoi 0 ≠ .tapInstructionUpdate v) := by
  refine ⟨by decide, ?_, ?_, ?_, ?_⟩ <;> intros <;> simp

theorem witness_ReadsLatchTheirHighWords :
    State.reset.dev.hostsRun = true ∧ (rst [(PWR_MODE_CUR, 4)]).dev.hostsRun = true ∧ (rst [(PWR_MODE_CUR, 4)]).dev.mode = 4 := by and_intros <;> decide
theorem witness_SplitReadPopsTheHead :
    State.reset.dev.hostsRun = true ∧ State.reset.dev.on (CH_SPLIT_CFG_STREAM 255) = false ∧
    (rst [(CH_SPLIT_CFG_STREAM 255, 1)]).dev.on (CH_SPLIT_CFG_STREAM 255) = true := by and_intros <;> decide

/-- Source 70, an EDGE source with priority 15, is enabled for target `t` and pending; the mode is `mode`. -/
def raised (mode t : Nat) : State :=
  rst [(PWR_MODE_CUR, mode), (IRQ_SRC_CFG_TARGET 70, t), (IRQ_SRC_CFG_EN 70, 1), (IRQ_SRC_CFG_SENSE 70, 1), (IRQ_PEND_PEND 2, 64)]
/-- Source 5, the channel that the older window calls 5, is enabled there and pending in FORERUNNER. -/
def raisedOld : State := rst [(PWR_MODE_CUR, 4), (SKW_CH_CTL_IRQ_EN 5, 1), (IRQ_PEND_PEND 0, 32)]

theorem witness_ClaimReturnsTheCandidate :
    (raised 3 0).dev.hostsRun = true ∧ (raised 3 1).dev.hostsRun = true ∧ raisedOld.dev.hostsRun = true ∧
    (busFirst (raised 3 0).dev).candidate (0 : Fin 11) ≠ 1023 ∧
    (let b := busFirst (raised 3 1).dev
     b.candidate (1 : Fin 11) ≠ 1023 ∧ b.edgeSense (b.candidate 1) = true ∧ b.raisedNow (b.candidate 1) = false) ∧
    (busFirst (raised 3 0).dev).candidate (1 : Fin 11) = 1023 ∧ (busFirst State.reset.dev).candidate (0 : Fin 11) = 1023 ∧
    2 ≤ (2 : Fin 11).val ∧ 2 ≤ (10 : Fin 11).val ∧ (busFirst raisedOld.dev).mode = 4 ∧ (busFirst raisedOld.dev).candidate 0 ≠ 1023 ∧
    (busFirst (rst [(PWR_MODE_CUR, 4)]).dev).mode = 4 ∧ (busFirst (rst [(PWR_MODE_CUR, 4)]).dev).candidate 0 = 1023 := by
  and_intros <;> decide +kernel

/-- The stack of target `t` holds the priorities `l`. -/
def stacked (mode t : Nat) (l : List Nat) : State := st fun d => (d.set PWR_MODE_CUR mode).putStack t l

theorem witness_EndOfInterruptPopsTheStack :
    (stacked 3 10 []).dev.hostsRun = true ∧ (stacked 4 0 [0]).dev.hostsRun = true ∧ (busFirst (stacked 3 10 []).dev).irqStack (10 : Fin 11) = [] ∧
    (busFirst (stacked 3 10 [0, 4]).dev).irqStack (10 : Fin 11) = 0 :: [4] ∧
    (busFirst (stacked 4 0 [0]).dev).mode = 4 ∧ (busFirst (stacked 4 0 [0]).dev).irqStack 0 = 0 :: [] ∧
    (busFirst (stacked 4 0 []).dev).mode = 4 ∧ (busFirst (stacked 4 0 []).dev).irqStack 0 = [] ∧ (busFirst (stacked 3 0 [4]).dev).mode ≠ 4 := by
  and_intros <;> decide +kernel

/-- A change of the line of source `n` to `up` arrives at `t`. -/
def lineAt (t n : Nat) (up : Bool) : State := st fun d => { d with irq := { d.irq with chg := [⟨t, n, up⟩] } }
/-- A ring of doorbell `i` waits until `t`. -/
def ringing (t i : Nat) : State := st fun d => { d with irq := { d.irq with rings := [⟨t, i, 7, 0⟩] } }
/-- The engines may ring whose bits are 1 in `v`. -/
def bellsOf (v : Nat) : State := st fun d => { d with rig := { d.rig with bells := v } }

theorem witness_LinesRingsAndDoorbellsReachPending :
    State.reset.dev.clock.phase ≠ .held ∧ State.reset.dev.sourceAt (959 : Fin 1024) = none ∧
    (lineAt t0 959 true).dev.sourceAt (959 : Fin 1024) = some t0 ∧ (passTo t0 (lineAt t0 959 true).dev).clock.phase = .run ∧
    (ringing (t0 + 1) 62).dev.sourceAt (1022 : Fin 1024) = some (t0 + 1) ∧ (passTo (t0 + 1) (ringing (t0 + 1) 62).dev).clock.phase = .run ∧
    ((lineAt t0 959 true).dev.irq.chg.filter fun x => decide (x.at_ ≤ t0)) = [⟨t0, 959, true⟩] ∧
    ((lineAt t0 959 true).dev.irq.rings.filter fun x => decide (x.at_ ≤ t0)) = [] ∧ (959 : Nat) < 960 ∧
    ((ringing t0 62).dev.irq.chg.filter fun x => decide (x.at_ ≤ t0)) = [] ∧
    ((ringing t0 62).dev.irq.rings.filter fun x => decide (x.at_ ≤ t0)) = [⟨t0, 62, 7, 0⟩] ∧ (62 : Nat) ≤ 62 ∧
    (bellsOf 128).dev.hostsRun = true ∧ (7 : Nat) < 8 ∧ bit (busFirst (bellsOf 128).dev).rig.bells 7 = true ∧ (0 : Nat) < 8 ∧
    bit (busFirst (bellsOf 128).dev).rig.bells 0 = false := by
  and_intros <;> decide +kernel

/-- The message of vector `v` waits for now; the vector is masked when `masked`. -/
def message (v masked : Nat) : State := st fun d =>
  { setAll [(HOST_PCIE_STAT_MSIX_EN, 1), (HOST_PCIE_STAT_BME, 1), (HOST_PCIE_STAT_LINK_UP, 1), (HOST_MSIX_VCTRL_MASK v, masked),
      (HOST_MSIX_DATA_DATA v, 99), (HOST_MSIX_ADDR_HI_ADDR_HI v, 2)] d with irq := { d.irq with msi := [(t0, v)] } }
/-- The message of vector `v` is pending behind its mask. -/
def behindMask (v : Nat) : State := st fun d =>
  setAll [(HOST_PCIE_STAT_MSIX_EN, 1), (HOST_PCIE_STAT_BME, 1), (HOST_PCIE_STAT_LINK_UP, 1), (HOST_MSIX_VCTRL_MASK v, 1),
    (HOST_MSIX_PBA_PEND, 2 ^ v), (HOST_MSIX_DATA_DATA v, 99)] d

theorem witness_EdgeClearsAndMessages :
    State.reset.dev.hostsRun = true ∧
    (∀ masked : Fin 2, let b := passTo t0 (message 31 masked).dev
     (message 31 masked).dev.tclkRuns = true ∧ ((message 31 masked).dev.irq.msi.head?.map fun x => x.1) = some t0 ∧
     b.due (b.irq.msi.head?.map fun x => x.1) = true ∧ b.irq.msi = (t0, (31 : Fin 32).val) :: [] ∧ b.on HOST_PCIE_STAT_MSIX_EN = true ∧
     b.msixOpen (31 : Fin 32) = (masked == 0)) ∧
    (behindMask 31).dev.hostsRun = true ∧ (busFirst State.reset.dev).get HOST_MSIX_PBA_PEND = 0 ∧
    (let b := busFirst (behindMask 31).dev
     b.get HOST_MSIX_PBA_PEND = 2 ^ (31 : Fin 32).val ∧ b.on HOST_PCIE_STAT_MSIX_EN = true ∧ b.on HOST_PCIE_STAT_BME = true ∧
     b.on HOST_PCIE_STAT_FUNC_MASK = false) := by and_intros <;> decide +kernel

/-- The UART FIFOs hold `l`; the logbook is read at `o`. -/
def uart (l : List Nat) : State := st fun d => { d with host := { d.host with uartTx := l, uartRx := l } }
def logAt (o : Nat) : State := rst [(LOG_RD_ADDR_OFFSET, o)]

theorem witness_UartFifosAndLogbookReads :
    (uart (List.replicate 16 7)).dev.hostsRun = true ∧ 16 ≤ (busFirst (uart (List.replicate 16 7)).dev).host.uartTx.length ∧
    (busFirst (uart (List.replicate 15 7)).dev).host.uartTx.length < 16 ∧ 16 ≤ (uart (List.replicate 16 7)).dev.host.uartRx.length ∧
    (uart (List.replicate 15 7)).dev.host.uartRx.length < 16 ∧ (uart [3]).dev.host.uartRx = 3 :: [] ∧ (uart []).dev.host.uartRx = [] ∧
    (logAt 0x080000).dev.hostsRun = true ∧ 0x080000 ≤ (logAt 0x080000).dev.get LOG_RD_ADDR_OFFSET ∧
    0x080000 ≤ (logAt 0x3ffffc).dev.get LOG_RD_ADDR_OFFSET ∧
    (0x070000 ≤ (logAt 0x070000).dev.get LOG_RD_ADDR_OFFSET ∧ (logAt 0x070000).dev.get LOG_RD_ADDR_OFFSET < 0x080000) ∧
    0x070000 ≤ (logAt 0x07fffc).dev.get LOG_RD_ADDR_OFFSET ∧ (logAt 0x07fffc).dev.get LOG_RD_ADDR_OFFSET < 0x080000 := by and_intros <;> decide +kernel
/-- A step of `k` units waits for the catch. -/
def stepOf (k : Int) : State := st fun d => { d with tb := { d.tb with step := some k } }
/-- The state with device time in the last TCLK of its stroke. -/
def atEnd (s : State) : State := { s with dev := { s.dev with clock := { s.dev.clock with now := s.dev.clock.endAt - 1 } } }

theorem witness_CatchOpensTheNextStroke :
    State.reset.dev.tclkRuns = true ∧
    (∀ k : Fin 2, let s := atEnd (stepOf (if k = 0 then 100 else -100)); let b := toCatch s.dev
     s.dev.tclkRuns = true ∧ b.tclkRuns = true ∧ b.clock.endAt ≤ b.clock.now + 1 ∧ b.stepDue = some (if k = 0 then 100 else -100)) ∧
    (let b := toCatch (atEnd State.reset).dev; b.tclkRuns = true ∧ b.clock.endAt ≤ b.clock.now + 1 ∧ b.stepDue = none) := by
  and_intros <;> decide +kernel

/-- The role of the device in the crew is the lead. -/
def lead (f : Dev → Dev) : State := st fun d => f (d.set CREW_STATUS_ROLE 1)
/-- A staged write of `v` to the register at `a`. -/
def stagedTo (a v : Nat) (d : Dev) : Dev := { d with txn := { d.txn with unbound := [⟨a, v, 0xffffffff, false⟩] } }
/-- A PTP port in mode 3. -/
def ptpPort (n ps : Nat) (d : Dev) : Dev :=
  setAll [(PWR_MODE_CUR, 3), (PWR_MODE_TARGET, 3), (ETH_CTRL_ENABLE n, 1), (ETH_STATUS_LINK n, 1), (ETH_PTP_CFG_ROLE n, 2), (ETH_PTP_CFG_DOMAIN n, 24), (ETH_PORT_STATE_STATE n, ps)] d
/-- Oscillator `n` is enabled and in the state `o`. -/
def oscIs (n : Nat) (o : Osc) (d : Dev) : Dev := { (d.set (TB_OSC_CFG_ENABLE n) 1) with tb := { d.tb with oscs := aput n o d.tb.oscs } }

/-- The lead in the last TCLK of a second at whose catch a period, a mode, a filter output, an oscillator's return, a step of one second, a
timebase change, a leap second, a counter gate, a round and the completion of a roll call, a crew decision, the time-out of a remote access,
messages of Ethernet port 3, an idle flush and a measurement are due. -/
def allDue : State := st fun d =>
  let d := ptpPort 3 6 { d with clock := { d.clock with now := 60 * t0 - 1, openAt := 60 * t0 - 4000, endAt := 60 * t0, strokeNo := 14999999 } }
  let d := setAll [(CREW_STATUS_ROLE, 1), (CREW_CC_STATUS_STATE, 2), (TB_LEAP_CFG_PENDING, 1), (TB_LEAP_TAI_LO_SEC_LO, 1), (CNT_GATE_G 31, 1),
    (ETH_ESMC_CFG_ESMC_TX 3, 1), (ETH_PTP_CFG_TRK_EN 3, 1), (PE_IDLE_IDLE_STROKES 31, 1), (PE_STATUS_RSH_COUNT 31, 4)] d
  let d := ((oscIs 3 { faulty := true, inEnsemble := false, clearSince := some 5 } (stagedTo PWR_MODE_TARGET.addr 2 d)).putCnt 31 { gateFrom := some 5 }).putEth 3
    { nextRev := some (-5000000000) }
  { d with
    clock := { d.clock with nextPeriod := some 8000, modeWait := true }
    tb := { d.tb with out := some ⟨-5, 0, true, 7, 0, 0, 0⟩, change := some ⟨1, false, false, false, false, false⟩, step := some 1000000000 }
    crew := { d.crew with roll := some { epoch := 0, seq := 0, left := 1 }, result := some ⟨60 * t0, 0, 0, 0, none, false, 0, [], 0⟩, lead := { toD := 1 },
                          ra := some ⟨63, false, [], 0, 0⟩ } }

theorem witness_EventsOfTheCatch_due :
    (fun d : Dev => allDue.dev.tclkRuns && d.periodDue && d.modeDue && d.tb.out.isSome && d.oscReturns d.catchTime (3 : Fin 4) && d.stepDue.isSome &&
      d.tb.change.isSome && d.leapDue d.catchTime && d.cntGateDue (31 : Fin 32) && d.rollRoundDue && d.rollDue && d.decisionDue && d.raTimeoutDue &&
      d.syncDue (3 : Fin 4) && d.annDue (3 : Fin 4) && d.infoDue (3 : Fin 4) && d.idleDue (31 : Fin 32) && d.measAtCatch (3 : Fin 4))
      (toCatch allDue.dev) = true := by
  decide +kernel

/-- Whether `p` holds of the device before and after the catch that comes from `s`. -/
def catchShows (s : State) (p : Dev → Dev → Bool) : Bool := s.dev.tclkRuns && p (toCatch s.dev) (openNext (toCatch s.dev))

/-- A state in mode 3 at the end of a stroke. -/
def atEnd3 (l : List (Field × Nat)) (f : Dev → Dev) : State := atEnd { m3 l with dev := f (m3 l).dev }

set_option maxRecDepth 1000000 in
theorem witness_EventsOfTheCatch_units :
    catchShows (atEnd3 [(CH_STARVE_LIMIT 255, 1), (TXG_STATUS_STATE 7, 1), (TXG_CFG_TIMEOUT_MS 7, 1), (CE_CTRL_ENABLE 7, 1), (CE_CTRL_ENABLE 0, 1),
        (CE_STATUS_RUN 0, 6)] id) (fun b c =>
      !b.on (CH_STATUS_STARVED (255 : Fin 256)) && c.on (CH_STATUS_STARVED (255 : Fin 256)) &&
      b.get (TXG_STATUS_STATE (7 : Fin 8)) == 1 && c.get (TXG_STATUS_STATE (7 : Fin 8)) == 0 &&
      b.get (CE_STATUS_RUN (7 : Fin 8)) == 0 && c.get (CE_STATUS_RUN (7 : Fin 8)) == 1 &&
      b.get (CE_STATUS_RUN (0 : Fin 8)) == 6 && c.get (CE_STATUS_RUN (0 : Fin 8)) == 1) = true := by
  decide +kernel

set_option maxRecDepth 1000000 in
theorem witness_EventsOfTheCatch_engines :
    catchShows (atEnd3 [(PE_STATUS_RUN 0, 3), (CREW_PORT_STAT_STATE 3, 2), (CREW_STATUS_ROLE, 3), (TRK_CTRL_ENABLE 7, 1), (TRK_STATE_STATE 7, 4),
        (TRK_STATE_PULLING 7, 1)] fun d => { (d.putCport 3 { miss := 2 }).putTrk 7 { conv := some {}, meas := some {} } with
          txn := { unbound := [⟨(PE_CTRL_ENABLE 31).addr, 1, 0xffffffff, false⟩, ⟨(PE_CTRL_ENABLE 0).addr, 1, 0xffffffff, false⟩] } }) (fun b c =>
      b.get (PE_STATUS_RUN (31 : Fin 32)) == 0 && c.get (PE_STATUS_RUN (31 : Fin 32)) == 1 &&
      b.get (PE_STATUS_RUN (0 : Fin 32)) == 3 && c.get (PE_STATUS_RUN (0 : Fin 32)) == 1 &&
      b.on (TRK_STATE_PULLING (7 : Fin 8)) && !c.on (TRK_STATE_PULLING (7 : Fin 8)) &&
      decide (2 ≤ b.pstate (3 : Fin 4)) && c.pstate (3 : Fin 4) == 0 && b.get CREW_STATUS_ROLE == 3 && c.get CREW_STATUS_ROLE != 3) = true := by
  decide +kernel

/-- Devices in the catch cycle at which a period, a mode, a filter output, a timebase change, a leap second, counter gates, a starvation and
gate requests are due. -/
def dueGate (edges : Nat) (bad : Bool) : Dev := State.reset.dev.putCnt 31 { gateFrom := some 5, gateBad := bad, edges := edges }
def dueStarve : Dev := (m3 [(CH_STARVE_LIMIT 255, 1)]).dev
def dueTxg (qual : Bool) (at_ : Nat) : Dev :=
  (m3 [(TXG_STATUS_STATE 7, 1), (TXG_CFG_TIMEOUT_MS 7, 1), (TXG_CFG_Q_TB 7, if qual then 0 else 1), (TXG_CFG_Q_RIG 7, 0), (TXG_CFG_Q_TRUST 7, 0)]).dev.putGate 7 { reqAt := at_ }

theorem witness_TheCatchAppliesWhatIsDue :
    (let d := (st fun d => { d with clock := { d.clock with nextPeriod := some 8000 } }).dev
     d.clock.nextPeriod = some 8000 ∧ onSecond d.clock.now = true ∧ d.pwr.trip = false ∧ d.get PWR_MODE_TARGET = d.mode) ∧
    (let d := (rst [(PWR_MODE_TARGET, 3)]).dev
     d.clock.nextPeriod = none ∧ d.pwr.trip = false ∧ d.get PWR_MODE_TARGET = 3 ∧ 3 ≠ d.mode ∧ 1 ≤ 3 ∧ 3 ≤ 4 ∧ d.modePermitted 3 false = true ∧
     clampPeriod 3 d.period = d.period) ∧
    allDue.dev.tb.out = some ⟨-5, 0, true, 7, 0, 0, 0⟩ ∧ allDue.dev.tb.change = some ⟨1, false, false, false, false, false⟩ ∧
    1 ≤ 4 ∧ 1 ≠ allDue.dev.get TB_STATUS_STATE ∧ allDue.dev.leapDue allDue.dev.clock.now = true ∧
    (31 < 32 ∧ ((dueGate 0 true).cntAt 31).gateFrom.isSome = true ∧ ((dueGate 0 true).cntAt 31).gateBad = true) ∧
    (((dueGate 0 false).cntAt 31).gateFrom.isSome = true ∧ ((dueGate 0 false).cntAt 31).gateBad = false ∧ ((dueGate 0 false).cntAt 31).edges = 0) ∧
    (255 < 256 ∧ dueStarve.chIdle 255 = true ∧ dueStarve.get (CH_STARVE_LIMIT 255) ≠ 0 ∧ (dueStarve.chAt 255).starve + 1 = dueStarve.get (CH_STARVE_LIMIT 255)) ∧
    (7 < 8 ∧ (dueTxg true 0).get (TXG_STATUS_STATE 7) = 1 ∧ (dueTxg true 0).gateQual 7 = true ∧ (dueTxg false t0).gateQual 7 = false ∧
     (dueTxg false t0).clock.now < ((dueTxg false t0).gateAt 7).reqAt + (dueTxg false t0).get (TXG_CFG_TIMEOUT_MS 7) * 1000000 ∧
     (dueTxg false 0).gateQual 7 = false ∧
     ((dueTxg false 0).gateAt 7).reqAt + (dueTxg false 0).get (TXG_CFG_TIMEOUT_MS 7) * 1000000 ≤ (dueTxg false 0).clock.now) := by
  and_intros <;> decide +kernel

/-- MOORED, or the wind-down to it, one TCLK before a whole second. -/
def nearSecond (p : Phase) : State := st fun d => { d with clock := { d.clock with phase := p, now := 2 * t0 - 1 } }

/-- Keel performs service `k`, whose cost is used up. -/
def serving (k : KeelSvc) (f : Dev → Dev) : State := st fun d => { f d with keel := { (f d).keel with cur := some { svc := k } } }
def filtering : State := serving .filterUpdate fun d => { d with tb := { d.tb with upd := some ⟨t0, [], 0, false⟩ } }
def settingTime : State := serving .timeSet fun d => { d with tb := { d.tb with tset := some (5, 5) } }
def movingCarrier : State := serving .carrierChange fun d => { d with tb := { d.tb with carrierReq := some 1 } }
def savingModels : State := serving .modelSave fun d => oscIs 3 { model := some {} } d
/-- The service that ends at once. -/
def endsNow (s : State) (k : KeelSvc) : Bool :=
  s.dev.hostsRun && s.dev.keelAsked k && match passUntil (fun d => d.keelEnds k) 1000000 s.dev with | some b => !b.keel.install | none => false

theorem witness_TimeModelsAndFilterUpdates :
    endsNow filtering .filterUpdate = true ∧ endsNow settingTime .timeSet = true ∧ endsNow movingCarrier .carrierChange = true ∧
    endsNow savingModels .modelSave = true ∧
    filtering.dev.tb.upd = some ⟨t0, [], 0, false⟩ ∧ filtering.dev.keel.frames.length < 8 ∧ settingTime.dev.tb.tset.isSome = true ∧
    movingCarrier.dev.tb.carrierReq.isSome = true ∧ (3 < 4 ∧ (savingModels.dev.oscAt 3).model = some {}) ∧ (nearSecond .moored).dev.clock.phase = .moored ∧
    (let s := st (oscIs 3 {})
     s.dev.clock.phase ≠ .held ∧ s.dev.on (TB_OSC_CFG_ENABLE (3 : Fin 4)) = true ∧ s.dev.get TB_STATUS_CARRIER ≠ (3 : Fin 4).val) ∧
    (st (oscIs 0 {})).dev.get TB_STATUS_CARRIER = (0 : Fin 4).val ∧ State.reset.dev.on (TB_OSC_CFG_ENABLE (3 : Fin 4)) = false ∧
    State.reset.dev.hostsRun = true ∧ (busFirst State.reset.dev).get TB_STATUS_STATE = 0 ∧
    (busFirst (rst [(TB_STATUS_STATE, 2)]).dev).get TB_STATUS_STATE ≠ 0 := by
  and_intros <;> decide +kernel

/-- Cycle P − 64 has come; engine 7 runs. -/
def nearEnd : State := st fun d =>
  { (setAll [(PWR_MODE_CUR, 3), (PWR_MODE_TARGET, 3), (CE_STATUS_RUN 7, 1)] d) with clock := { d.clock with now := d.clock.endAt - 64 } }

theorem witness_WindowsAndSecondsOpen :
    nearEnd.dev.tclkRuns = true ∧ nearEnd.dev.clock.finishDone = false ∧
    (st fun d => { d with clock := { d.clock with finishDone := true } }).dev.clock.finishDone = true ∧
    (let b := passTo (nearEnd.dev.clock.endAt - 64) nearEnd.dev
     b.clock.phase = .run ∧ b.clock.finishDone = false ∧ 7 < 8 ∧ b.get (CE_STATUS_RUN 7) = 1 ∧ cePresent b.mode 7 = true ∧ (b.ceAt 7).yielded = false) ∧
    (nearSecond .moored).dev.clock.phase ≠ .held ∧ (nearSecond .moored).dev.clock.phase = .moored ∧ (nearSecond .windDown).dev.clock.phase = .windDown ∧
    State.reset.dev.tclkRuns = true ∧ (nearSecond .moored).dev.stepDue = none := by and_intros <;> decide +kernel

/-- Tracker `n` in state `v`: two teeth of a revolution of 1 s, tooth 0 real, expected at the first second of revolution 1. -/
def tracking (n v : Nat) (f : Trk → Trk) : State := st fun d =>
  (setAll [(PWR_MODE_CUR, 3), (PWR_MODE_TARGET, 3), (TRK_CTRL_ENABLE n, 1), (TRK_CFG_TEETH n, 2), (TRK_STATE_STATE n, v)] d).putTrk n
    (f { table := [(0, 2 ^ 48), (1, 500000000 * 65536)], expTooth := 0, expRev := 1 })
/-- A stamp at device time `t` ns. -/
def stampAt (t : Nat) : Nat := t * 65536
/-- How far an edge at device time `t` lies from the expected tooth of tracker `n`. -/
def edgeOff (n : Fin 8) (t : Nat) (b : Dev) : Nat := (b.trkStamp (stampAt t) - b.delayU n - b.measTime n (b.trkAt n).expRev (b.trkAt n).expTooth).natAbs
def withCand (width : Nat) : State := tracking 0 3 fun t => { t with cand := some ⟨stampAt (t0 - width), 0, 1⟩ }
/-- A candidate whose width has no accepted class. -/
def withBadCand : State := st fun _ => (withCand 900000000).dev.set (TRK_CFG_WDEC 0) 2

theorem witness_CandidatesAndTeeth :
    (∀ v : Fin 6, v.val = 2 ∨ v.val = 3 → let s := tracking 7 v id; let b := passTo (dueOf (stampAt t0)) s.dev
      s.dev.clock.phase ≠ .held ∧ b.tclkRuns = true ∧ b.clock.phase ≠ .held ∧ b.feeder (7 : Fin 8) = none ∧ true ≠ b.on (TRK_CFG_EDGE (7 : Fin 8)) ∧
      false = b.on (TRK_CFG_EDGE (7 : Fin 8)) ∧ (b.trkEff (7 : Fin 8) = v ∧ (b.trkAt (7 : Fin 8)).cand = none ∧ edgeOff 7 t0 b ≤ (b.windowU (7 : Fin 8)).natAbs)) ∧
    (let b := passTo (dueOf (stampAt 0)) (tracking 7 2 id).dev; (b.windowU (7 : Fin 8)).natAbs < edgeOff 7 0 b) ∧
    ((withCand 0).dev.trkEff (0 : Fin 8) = 3 ∧ ((withCand 0).dev.trkAt (0 : Fin 8)).cand ≠ none) ∧
    (tracking 0 0 id).dev.trkEff (0 : Fin 8) = 0 ∧ (tracking 0 5 id).dev.trkEff (0 : Fin 8) = 5 ∧
    (let s := withCand 1000; s.dev.decisionAt (0 : Fin 8) 5 = some (t0 - 976) ∧ s.dev.due (s.dev.decisionAt (0 : Fin 8) 5) = true ∧ s.dev.tclkRuns = true ∧
     (s.dev.trkAt (0 : Fin 8)).cand = some ⟨stampAt (t0 - 1000), 0, 1⟩ ∧ s.dev.candOk (0 : Fin 8) ⟨stampAt (t0 - 1000), 0, 1⟩ (s.dev.widthClass (0 : Fin 8) 5) = true) ∧
    (let s := withBadCand; s.dev.due (s.dev.decisionAt (0 : Fin 8) 5) = true ∧
     s.dev.candOk (0 : Fin 8) ⟨stampAt (t0 - 900000000), 0, 1⟩ (s.dev.widthClass (0 : Fin 8) 5) = false) ∧
    (State.reset.dev.trkAt (0 : Fin 8)).cand = none ∧
    (let s := tracking 0 3 fun t => { t with expRev := 0 }; (s.dev.windowEnd (0 : Fin 8)).isSome = true ∧ s.dev.due (s.dev.windowEnd (0 : Fin 8)) = true) := by
  and_intros <;> decide +kernel
theorem witness_TrackerControlsWaitForTheCatch :
    State.reset.dev.hostsRun = true ∧ bit (busFirst (st fun d => { d with rig := { d.rig with locks := 128 } }).dev).rig.locks (7 : Fin 8) = true ∧
    bit (busFirst State.reset.dev).rig.locks (0 : Fin 8) = false ∧ (busFirst State.reset.dev).get (TRK_STATE_STATE (0 : Fin 8)) = 0 ∧
    (busFirst (tracking 7 1 id).dev).get (TRK_STATE_STATE (7 : Fin 8)) ≠ 0 := by and_intros <;> decide +kernel

/-- Tracker 7 has a timer that runs out now. -/
def qualDue : State := tracking 7 2 fun t => { t with qualEnd := some t0 }
def holdDue : State := tracking 7 5 fun t => { t with holdEnd := some t0 }
/-- Phase trigger 3 of tracker 7 is due now; enabled with its output line when `en` is 1. -/
def trigDue (en : Nat) : State := st fun _ =>
  setAll [(TRK_TRIG_CFG_EN 7 3, en), (TRK_TRIG_CFG_XOUT 7 3, en)] (tracking 7 2 fun t => { t with trigAt := [(3, t0)] }).dev

theorem witness_TrackerTimersAndTriggers :
    qualDue.dev.clock.phase ≠ .held ∧ (qualDue.dev.trkAt (7 : Fin 8)).qualEnd = some t0 ∧
    (let b := passTo t0 qualDue.dev; b.due (b.trkAt (7 : Fin 8)).qualEnd = true ∧ b.tclkRuns = true ∧ b.trkEff (7 : Fin 8) = 2) ∧
    (holdDue.dev.trkAt (7 : Fin 8)).holdEnd = some t0 ∧
    (let b := passTo t0 holdDue.dev; b.due (b.trkAt (7 : Fin 8)).holdEnd = true ∧ b.tclkRuns = true ∧ b.get (TRK_STATE_STATE (7 : Fin 8)) = 5) ∧
    (∀ en : Fin 2, (trigDue en).dev.trigTime (7 : Fin 8) (3 : Fin 4) = some t0 ∧
      let b := passTo t0 (trigDue en).dev
      b.due (b.trigTime (7 : Fin 8) (3 : Fin 4)) = true ∧ b.trigTime (7 : Fin 8) (3 : Fin 4) = some t0 ∧
      b.on (TRK_TRIG_CFG_EN (7 : Fin 8) (3 : Fin 4)) = (en == 1) ∧ b.trkTiming (7 : Fin 8) = true ∧ b.mode ≠ 0 ∧
      b.on (TRK_TRIG_CFG_XOUT (7 : Fin 8) (3 : Fin 4)) = (en == 1)) := by and_intros <;> decide +kernel

/-- Counter 31 counts, with an index source that is no tracker. -/
def counting (im armed : Nat) : State :=
  m3 [(CNT_CTRL_ENABLE 31, 1), (CNT_CFG_IDX_MODE 31, im), (CNT_CFG_IDX_SRC 31, 9), (CNT_STATUS_ARMED 31, armed)]
/-- It has been set to 0 in this TCLK. -/
def countedNow : State := st fun _ => (counting 1 0).dev.putCnt 31 { idxAt := t0 + 1 }

theorem witness_CountersCountAndCapture :
    (counting 1 0).dev.tclkRuns = true ∧ (counting 1 0).dev.hostsRun = true ∧
    (passTo (dueOf (stampAt t0)) (counting 1 0).dev).cntRuns (31 : Fin 32) = true ∧ (passTo (dueOf (stampAt t0)) (m3 []).dev).cntRuns (0 : Fin 32) = false ∧
    (∀ im : Fin 2, let b := passTo t0 (counting (im + 1) im).dev
      b.cntRuns (31 : Fin 32) = true ∧ (b.cntAt (31 : Fin 32)).idxAt ≠ b.clock.now + 1 ∧ b.idxLive (31 : Fin 32) b.clock.now = true ∧
      b.get (CNT_CFG_IDX_MODE (31 : Fin 32)) = im + 1 ∧ b.on (CNT_STATUS_ARMED (31 : Fin 32)) = (im == 1)) ∧
    ((passTo t0 countedNow.dev).cntAt (31 : Fin 32)).idxAt = (passTo t0 countedNow.dev).clock.now + 1 := by and_intros <;> decide +kernel

/-- List `k` of an enabled Cox, RUNNING, in the state `l`, with 9 NOP entries in its first revolution. -/
def listed (k : Nat) (l : CoxList) : State := st fun d =>
  { (setAll [(PWR_MODE_CUR, 3), (PWR_MODE_TARGET, 3), (COX_CTRL_ENABLE, 1), (COX_LIST_CFG_ENABLE k, 1), (COX_LIST_STATUS_STATE k, 3)] d).putList k l with
    mem := Mem.write [] 0x80000010 9 4 }
/-- A list with an entry to convert, whose slot comes in this TCLK. -/
def slotNow : State := st fun _ => let d := (listed 7 { ring := [⟨0, 0, 0, 0⟩] }).dev; { d with clock := { d.clock with now := d.clock.openAt + 3 } }

theorem witness_CoxConvertsOneEntryPerSlot :
    State.reset.dev.tclkRuns = true ∧ State.reset.dev.on COX_CTRL_ENABLE = false ∧ State.reset.dev.hostsRun = true ∧
    (listed 7 {}).dev.convPick = none ∧
    (let s := st fun _ => let d := slotNow.dev; { d with clock := { d.clock with openAt := d.clock.endAt } };
      s.dev.clock.endAt ≤ s.dev.clock.openAt + s.dev.convInsert) ∧
    (∃ t, slotNow.dev.convAt = some t ∧ (passTo t slotNow.dev).due (passTo t slotNow.dev).convAt = true ∧ (passTo t slotNow.dev).clock.phase = .run) ∧
    7 < 8 ∧ (slotNow.dev.listAt 7).ring = ⟨0, 0, 0, 0⟩ :: [] := by
  refine ⟨by decide +kernel, by decide +kernel, by decide +kernel, by decide +kernel, by decide +kernel, ⟨t0 + 3, ?_⟩, ?_⟩ <;> decide +kernel

theorem witness_RefillReadsEightEntries :
    State.reset.dev.tclkRuns = true ∧ State.reset.dev.on COX_CTRL_ENABLE = false ∧ (listed 0 {}).dev.refillPick = none ∧
    (let s := listed 7 { refInit := true, refLeft := 9, size := 64 };
      s.dev.on COX_CTRL_ENABLE = true ∧ s.dev.refillPick = some 7 ∧ ((seekEntry 7 1024 s.dev).listAt 7).refLeft ≠ 0) ∧
    ((listed 7 {}).dev.listAt (7 : Fin 8)).bursts = [] ∧
    ((listed 7 { bursts := [[⟨0, 0, 0, 0⟩], []] }).dev.listAt (7 : Fin 8)).bursts = [⟨0, 0, 0, 0⟩] :: [[]] := by
  and_intros <;> decide +kernel

/-- An event at device time `t`. -/
def evAt (t code flags param : Nat) : ChEvent := ⟨stampAt t, code, flags, param, false, 0⟩
/-- In mode `mode`, the event with action `code` at the head of channel 255's queue fires now; `rest` follows, a change `f` is made. -/
def firing (mode code flags param : Nat) (rest : List ChEvent) (f : Dev → Dev) (g : Chan → Chan) : State := st fun d =>
  (f (setAll [(PWR_MODE_CUR, mode), (PWR_MODE_TARGET, mode)] d)).putCh 255 (g { queue := evAt t0 code flags param :: rest })
/-- In the device `s.dev` that event is due, and alone in its TCLK. -/
def aloneNow (s : State) (code flags param : Nat) (rest : List ChEvent) : Prop :=
  s.dev.tclkRuns = true ∧ s.dev.headDue (255 : Fin 256) code = some t0 ∧
  let b := passTo t0 s.dev
  b.due (b.headDue (255 : Fin 256) code) = true ∧ Alone b (255 : Fin 256) (evAt t0 code flags param) rest

theorem witness_OtherActionsHaveTheirEffect :
    (∀ code : Fin 16, aloneNow (firing 3 code 0 1 [] id id) code 0 1 []) ∧
    (∀ i : Fin 16, let s := firing 3 9 0 (2 ^ i.val) [] id id;
      aloneNow s 9 0 (2 ^ i.val) [] ∧ (evAt t0 9 0 (2 ^ i.val)).param = 2 ^ i.val ∧ (passTo t0 s.dev).mode ≠ 0 ∧ (passTo t0 s.dev).ainBusy i = false) ∧
    (passTo t0 (firing 3 10 0 1 [] id id).dev).on (DMA_CFG_EV_CH (1 % 16)) = false ∧
    (let s := firing 3 10 0 1 [] (setAll [(DMA_CFG_EV_CH 1, 1), (DMA_STATUS_STATE 1, 2)]) id;
      aloneNow s 10 0 1 [] ∧ (passTo t0 s.dev).on (DMA_CFG_EV_CH (1 % 16)) = true ∧ (passTo t0 s.dev).get (DMA_STATUS_STATE (1 % 16)) ≠ 0 ∧
      (passTo t0 s.dev).get (DMA_STATUS_EV_COUNT (1 % 16)) < 255) ∧
    (let s := firing 3 13 0 7 [] id id;
      aloneNow s 13 0 7 [] ∧ (passTo t0 s.dev).mode ≠ 0 ∧ (passTo t0 s.dev).mode ≠ 5 ∧ (passTo t0 s.dev).get (TXG_STATUS_STATE (7 % 8)) = 0) ∧
    aloneNow (firing 0 13 0 7 [] id id) 13 0 7 [] ∧ (passTo t0 (firing 0 13 0 7 [] id id).dev).mode = 0 ∧
    aloneNow (firing 5 13 0 7 [] id id) 13 0 7 [] ∧ (passTo t0 (firing 5 13 0 7 [] id id).dev).mode = 5 ∧
    (let d := (firing 3 8 0 1 [] id fun c => { c with armedAt := some 5 }).dev;
      255 < 256 ∧ d.on (CH_CAP_CFG_ALWAYS 255) = false ∧ (d.chAt 255).armedAt.isSome = true ∧ (d.chAt 255).disarmAt = none) := by
  unfold aloneNow Alone; and_intros <;> decide +kernel
/-- Channel 255 with a pulse, or a train, of which the next edge is due now. -/
def returning : State := st fun _ => (m3 []).dev.putCh 255 { ret := some (stampAt t0) }
def trainNow (up : Bool) : Train := if up then ⟨stampAt (t0 - 999), 1000 * 65536, 65536 * 999, 0, 1, true, stampAt t0⟩
  else ⟨stampAt (t0 - 1000), 1000 * 65536, 65536, 0, 1, false, stampAt (t0 - 999)⟩
def training (up : Bool) : State := st fun _ => (m3 []).dev.putCh 255 { train := some (trainNow up) }

theorem witness_LevelsPulsesAndTrains :
    (∀ code : Fin 7, 1 ≤ code.val → aloneNow (firing 3 code 2 1 [] id id) code 2 1 [] ∧ (passTo t0 (firing 3 code 2 1 [] id id).dev).chHeld (255 : Fin 256) = false) ∧
    bit (evAt t0 1 2 1).flags 1 = true ∧ bit (evAt t0 2 2 1).flags 1 = true ∧
    aloneNow (firing 5 1 0 0 [] id id) 1 0 0 [] ∧ (passTo t0 (firing 5 1 0 0 [] id id).dev).chHeld (255 : Fin 256) = true ∧
    (let s := firing 3 5 0 0 [evAt (t0 + 1) 2 0 0] id id; let b := passTo t0 s.dev
      aloneNow s 5 0 0 [evAt (t0 + 1) 2 0 0] ∧ (∀ x, x ∈ [evAt (t0 + 1) 2 0 0] → x.action ≠ 6) ∧
      b.get (CH_TRAIN_HIGH_HIGH (255 : Fin 256)) ≠ 0 ∧ 0 < b.trainPer (255 : Fin 256)) ∧
    (let s := returning; let b := passTo t0 s.dev
      s.dev.tclkRuns = true ∧ (s.dev.chAt (255 : Fin 256)).ret.map dueOf = some t0 ∧ b.due ((b.chAt (255 : Fin 256)).ret.map dueOf) = true ∧
      b.chHeld (255 : Fin 256) = false) ∧
    (∀ up : Bool, let s := training up; let b := passTo t0 s.dev
      (s.dev.trainNext (255 : Fin 256)).map dueOf = some t0 ∧ b.due ((b.trainNext (255 : Fin 256)).map dueOf) = true ∧ b.chHeld (255 : Fin 256) = false ∧
      (b.chAt (255 : Fin 256)).train = some (trainNow up) ∧ 0 < (trainNow up).high ∧ (trainNow up).high < (trainNow up).period ∧
      (trainNow up).up = up ∧ 1 ≤ (trainNow up).k) ∧
    (trainNow true).upEnd = (trainNow true).start + (((trainNow true).k : Int) - 1) * (trainNow true).period + (trainNow true).high ∧
    (passTo t0 (training false).dev).trainNext (255 : Fin 256) = some ((trainNow false).start + ((trainNow false).k : Int) * (trainNow false).period) := by
  unfold aloneNow Alone; and_intros <;> decide +kernel

/-- Channel `n`'s host event is at device time `t`, and `k` events wait in its queue. -/
def hosting (mode n t k : Nat) : State := st fun d =>
  (setAll [(PWR_MODE_CUR, mode), (CH_HEV_SEC_LO_SEC_LO n, t / t0), (CH_HEV_NS_NS n, t % t0), (CH_HEV_WORD_ACTION n, 1)] d).putCh n
    { queue := List.replicate k (evAt (2 * t0) 1 0 0) }
/-- The same before the first catch, at 20 TCLK. -/
def hostingFirst : State := st fun _ => let d := (hosting 3 255 (t0 + 20) 0).dev; { d with clock := { d.clock with phase := .waitFirst } }
/-- Channel `k` of the older window has action 1 for time `t`. -/
def older (k t : Nat) : State := rst [(PWR_MODE_CUR, 4), (SKW_CH_CTL_ACT k, 1), (SKW_CH_CMP_LO_T_LO k, t)]
/-- Channel 63 holds one split, in FORERUNNER. -/
def olderSplit : State := st fun d => (d.set PWR_MODE_CUR 4).putCh 63 { fifo := { items := [{ w0 := 5 }] } }

theorem witness_HostEventsAndTheOlderWindow :
    (let s := hosting 3 255 (t0 + 16) 15; let b := busFirst s.dev
      s.dev.hostsRun = true ∧ chPresent b.mode (255 : Fin 256) = true ∧
      ¬ (dueOf (b.hevTime (255 : Fin 256)) < b.clock.now + 16 ∨ (b.clock.phase = .waitFirst ∧ dueOf (b.hevTime (255 : Fin 256)) < b.clock.endAt)) ∧
      (b.chAt (255 : Fin 256)).queue.length + (if (b.chAt (255 : Fin 256)).firedAt = b.clock.now then (b.chAt (255 : Fin 256)).fired else 0) < 16) ∧
    (let b := busFirst (hosting 1 63 (t0 + 15) 0).dev; chPresent b.mode (63 : Fin 256) = true ∧ dueOf (b.hevTime (63 : Fin 256)) < b.clock.now + 16) ∧
    (let b := busFirst hostingFirst.dev; hostingFirst.dev.hostsRun = true ∧ chPresent b.mode (255 : Fin 256) = true ∧ b.clock.phase = .waitFirst ∧
      dueOf (b.hevTime (255 : Fin 256)) < b.clock.endAt) ∧
    (let b := busFirst (hosting 3 255 (t0 + 16) 16).dev; chPresent b.mode (255 : Fin 256) = true ∧
      ¬ (dueOf (b.hevTime (255 : Fin 256)) < b.clock.now + 16 ∨ (b.clock.phase = .waitFirst ∧ dueOf (b.hevTime (255 : Fin 256)) < b.clock.endAt)) ∧
      16 ≤ (b.chAt (255 : Fin 256)).queue.length) ∧
    chPresent (busFirst (hosting 1 255 (t0 + 16) 0).dev).mode (255 : Fin 256) = false ∧
    (let s := rst [(PWR_MODE_CUR, 4)]; let b := busFirst s.dev
      s.dev.hostsRun = true ∧ b.mode = 4 ∧ b.get (SKW_CH_CTL_ACT (63 : Fin 64)) = 0 ∧ s.dev.mode = 4 ∧ (s.dev.chAt (63 : Fin 64)).fifo.items = []) ∧
    (let b := busFirst (older 63 (t0 + 15)).dev; b.mode = 4 ∧ b.get (SKW_CH_CTL_ACT (63 : Fin 64)) ≠ 0 ∧
      b.get (SKW_CH_CMP_LO_T_LO (63 : Fin 64)) + 2 ^ 32 * b.get (SKW_CH_CMP_HI_T_HI (63 : Fin 64)) < b.clock.now + 16) ∧
    (busFirst (m3 []).dev).mode ≠ 4 ∧ bit (0x200 : BitVec 32).toNat 8 = false ∧
    (olderSplit.dev.mode = 4 ∧ (olderSplit.dev.chAt (63 : Fin 64)).fifo.items = { w0 := 5 } :: []) := by and_intros <;> decide +kernel

/-- Channel 255 counts edges while its gate is open. -/
def edging : State := st fun _ => (m3 [(CH_CAP_CFG_MEAS 255, 6)]).dev.putCh 255 { armedAt := some 0 }
/-- A first edge waits for its second, and has waited long enough. -/
def measuring (p : Chan) : State := st fun d => { d with clock := { d.clock with now := 5 * t0, openAt := 5 * t0, endAt := 5 * t0 + 4000 } }.putCh 255 p
/-- Channel 255 keeps alive from device time `a`, in its period that began at `p`. -/
def alive (a p : Nat) : State := st fun _ =>
  (m3 [(CH_STATUS_KA_RUN 255, 1), (CH_REP_EV_ACT 255 0, 1), (CH_REP_EV_OFFSET_NS 255 0, 7)]).dev.putCh 255 { kaFrom := a, kaPer := p }

theorem witness_ChannelControlsCapturesAndKeepAlive :
    (m3 []).dev.hostsRun = true ∧ (m3 []).dev.mode = 3 ∧ (rst [(PWR_MODE_CUR, 2)]).dev.mode = 2 ∧ (rst [(PWR_MODE_CUR, 5)]).dev.mode = 5 ∧
    (rst [(PWR_MODE_CUR, 1)]).dev.mode ≠ 2 ∧ (rst [(PWR_MODE_CUR, 1)]).dev.mode ≠ 3 ∧ (rst [(PWR_MODE_CUR, 1)]).dev.mode ≠ 5 ∧
    (let b := passTo (dueOf (stampAt t0)) edging.dev; let c := runTo (b.clock.now + 1) b
      edging.dev.tclkRuns = true ∧ chPresent c.mode (255 : Fin 256) = true ∧ c.get (CH_CAP_CFG_MEAS (255 : Fin 256)) = 6 ∧ (c.chAt (255 : Fin 256)).cap = [] ∧
      dueOf (c.edgeStamp (255 : Fin 256) (stampAt t0)) ≤ c.clock.now ∧ c.inGate (255 : Fin 256) (c.edgeStamp (255 : Fin 256) (stampAt t0)) = true ∧
      c.edgeCounts (255 : Fin 256) true = true) ∧
    (let s := measuring { pend := some ⟨0, true⟩ }; s.dev.tclkRuns = true ∧ s.dev.measEnd (255 : Fin 256) = some (dueOf measLimit) ∧
      (let b := passTo (dueOf measLimit) s.dev; b.due (b.measEnd (255 : Fin 256)) = true ∧ (b.chAt (255 : Fin 256)).pend.isSome = true)) ∧
    (let s := alive 0 0; s.dev.kaLimit (255 : Fin 256) = some 64000000 ∧ (let b := passTo 64000000 s.dev; b.due (b.kaLimit (255 : Fin 256)) = true)) ∧
    (let s := alive (t0 - 63999999) (t0 - 7); (s.dev.kaNext (255 : Fin 256)).map (fun e => e.1) = some t0 ∧
      (let b := passTo t0 s.dev; b.due ((b.kaNext (255 : Fin 256)).map fun e => e.1) = true ∧ b.kaNext (255 : Fin 256) = some (t0, 1) ∧
        (b.chAt (255 : Fin 256)).kaEnd = none ∧ t0 < (b.chAt (255 : Fin 256)).kaFrom + 64000000)) := by and_intros <;> decide +kernel

/-- Synthesiser 3 in state `v`. -/
def synIn (v : Nat) (y : Syn) : State := st fun _ => (m3 [(SYN_STATUS_STATE 3, v), (SYN_ALIGN_ALIGN_EN 3, 1), (SYN_GUARD_EN 3, 1), (SYN_GUARD_TRK 3, 6), (SYN_GUARD_LEN_NS 3, 5000), (TRK_STATE_STATE 6, 2)]).dev.putSyn 3 y
/-- Synthesiser 3 is ALIGNED and its round, its guard period and its limit come now. -/
def synDue (y : Syn) : State := st fun _ =>
  let d := (synIn 4 y).dev; { d with clock := { d.clock with now := 240 * t0, openAt := 240 * t0, endAt := 240 * t0 + 4000 } }

theorem witness_SynthesisersAndRequests :
    (∀ v : Fin 5, (synIn v {}).dev.tclkRuns = true ∧ (synIn v {}).dev.get (SYN_STATUS_STATE (3 : Fin 4)) = v) ∧
    (∃ t, (synIn 2 {}).dev.lockAt (3 : Fin 4) = some t ∧ (passTo t (synIn 2 {}).dev).due ((passTo t (synIn 2 {}).dev).lockAt (3 : Fin 4)) = true) ∧
    ((synIn 3 {}).dev.on (SYN_ALIGN_ALIGN_EN (3 : Fin 4)) = true ∧ (synIn 3 {}).dev.synWhole (3 : Fin 4) = true) ∧ (m3 []).dev.hostsRun = true ∧
    (∀ r, r ∈ [none, some 5] → let s := synDue { nextRound := some (240 * t0), roundAt := r }; let b := passTo (240 * t0) s.dev
      (s.dev.synAt (3 : Fin 4)).nextRound = some (240 * t0) ∧ b.due (b.synAt (3 : Fin 4)).nextRound = true ∧ 2 ≤ b.get (SYN_STATUS_STATE (3 : Fin 4)) ∧
      (b.synAt (3 : Fin 4)).roundAt = r) ∧
    (let s := synDue { guardAt := [240 * t0] }; let b := passTo (240 * t0) s.dev
      (s.dev.synAt (3 : Fin 4)).guardAt.head? = some (240 * t0) ∧ b.due (b.synAt (3 : Fin 4)).guardAt.head? = true ∧
      (b.synAt (3 : Fin 4)).guardAt.head? = some (240 * t0) ∧ b.guardLive (3 : Fin 4) = true ∧ b.get (SYN_STATUS_STATE (3 : Fin 4)) ≠ 0) ∧
    (let s := synDue { roundAt := some 0 }; let b := passTo (240 * t0) s.dev
      s.dev.calLimit (3 : Fin 4) = some (240 * t0) ∧ b.due (b.calLimit (3 : Fin 4)) = true ∧ ((synSlices (3 : Fin 4) b).synAt (3 : Fin 4)).roundAt.isSome = true) := by
  refine ⟨by decide +kernel, ⟨_, rfl, by decide +kernel⟩, ?_⟩
  and_intros <;> decide +kernel
/-- Control engine `n` of mode 3 is ready, with register fields set. -/
def ready (n : Nat) (l : List (Field × Nat)) : State := st fun _ => (m3 ((CE_STATUS_RUN n, 1) :: l)).dev.putCe n { issueAt := t0 }

/-- Engine 7 is ready with condition 0 and with condition 15, whose selector is Z here; engine 0 with condition 0. -/
theorem witness_engineReady :
    (let s := ready 7 [(CE_SPEC_VALUE 7 0, 1), (CE_SPEC_VALUE 7 31, 0)]; CeReady s (7 : Fin 8) ∧
      s.dev.cond (7 : Fin 8) (0 : BitVec 4).toNat s.dev.clock.now = true ∧ s.dev.cond (7 : Fin 8) (15 : BitVec 4).toNat s.dev.clock.now = true) ∧
    CeReady (ready 0 []) (0 : Fin 8) ∧ (ready 0 []).dev.cond (0 : Fin 8) (0 : BitVec 4).toNat (ready 0 []).dev.clock.now = true := by
  unfold CeReady InStroke; and_intros <;> decide +kernel

/-- The conditions of AluResultsAndFlags and ImmediatesAndComparisons are those of an engine that is ready. -/
theorem witness_AluResultsAndFlags : CeReady (ready 7 []) (7 : Fin 8) ∧ (ready 7 []).dev.cond (7 : Fin 8) (0 : BitVec 4).toNat (ready 7 []).dev.clock.now = true := by
  unfold CeReady InStroke; and_intros <;> decide +kernel
theorem witness_ImmediatesAndComparisons : CeReady (ready 0 []) (0 : Fin 8) ∧ (ready 0 []).dev.cond (0 : Fin 8) (0 : BitVec 4).toNat (ready 0 []).dev.clock.now = true := by
  unfold CeReady InStroke; and_intros <;> decide +kernel

theorem witness_BitOperationsAndProducts :
    2 ≤ (2 : BitVec 2).toNat ∧ 2 ≤ (3 : BitVec 2).toNat ∧ (0 : BitVec 2).toNat < 2 ∧ (1 : BitVec 2).toNat < 2 ∧ (30 : BitVec 5).toNat % 2 = 0 := by decide

/-- Every segment of engine 7 covers 16 words at `b`. -/
def seg (b : Nat) : State :=
  ready 7 ((List.range 8).flatMap fun k => [(CE_SEG_BASE_BASE 7 k, b), (CE_SEG_BASE_R 7 k, 1), (CE_SEG_BASE_W 7 k, 1), (CE_SEG_LIMIT_LIMIT 7 k, 16)])

/-- Each access of engine 7 in the first and the last word, or pair, of segment 7, in its own bank and over the time wheel. -/
theorem witness_LoadsAndStores :
    CeReady (seg 0xB80000) (7 : Fin 8) ∧ CeReady (seg 0xF80000) (7 : Fin 8) ∧ (seg 0xB80000).dev.memc.useAt ≠ (seg 0xB80000).dev.clock.now ∧
    (seg 0xB80000).dev.memc.bad = [] ∧
    (∀ pair store : Bool, ∀ off, off ∈ [0, if pair then 14 else 15] → let a : MemAcc := ⟨7, off, pair, store, false⟩
      (seg 0xB80000).dev.accTrap (7 : Fin 8) a = none ∧ wordPath (7 : Fin 8) ((seg 0xB80000).dev.accWord (7 : Fin 8) a) = .own ∧
      (seg 0xF80000).dev.accTrap (7 : Fin 8) a = none ∧ wordPath (7 : Fin 8) ((seg 0xF80000).dev.accWord (7 : Fin 8) a) = .wheel) ∧
    (30 : BitVec 5).toNat % 2 = 0 := by
  unfold CeReady InStroke; and_intros <;> decide +kernel

/-- Engine 7 is ready, and tracker 6, whose number the first register of channel 0's group gives, keeps time. -/
def armingPhase : State := st fun _ => let d := (ready 7 [(TRK_STATE_STATE 6, 2)]).dev; { d with rig := { d.rig with chTrk := [(0, 7)] } }

theorem witness_WordMovesAndTimedOperations :
    (∀ store : Bool, (seg 0xB80000).dev.accTrap (7 : Fin 8) ⟨7, 15, false, store, true⟩ = none) ∧
    (seg 0xB80000).dev.memc.useAt ≠ (seg 0xB80000).dev.clock.now ∧ (seg 0xB80000).dev.memc.bad = [] ∧ (28 : BitVec 5).toNat % 4 = 0 ∧
    CeReady armingPhase (7 : Fin 8) ∧ armingPhase.dev.chTracker ((armingPhase.dev.xr (7 : Fin 8) 28).toNat % 256) = some 6 ∧ armingPhase.dev.trkTiming 6 = true ∧
    (ready 7 []).dev.chTracker (((ready 7 []).dev.xr (7 : Fin 8) 28).toNat % 256) = none := by
  unfold CeReady InStroke; and_intros <;> decide +kernel

/-- Engine 7 is ready with window depth `k`. -/
def deep (k : Nat) : State := ready 7 [(CE_SPEC_VALUE 7 3, k)]

theorem witness_JumpsCallsAndTraps :
    (let s := ready 7 [(CE_SPEC_VALUE 7 0, 0), (CE_SPEC_VALUE 7 31, 0)];
      CeReady s (7 : Fin 8) ∧ s.dev.cond (7 : Fin 8) (15 : BitVec 4).toNat s.dev.clock.now = false) ∧
    (CeReady (deep 26) (7 : Fin 8) ∧ (2 : BitVec 2).toNat < 3 ∧ (deep 26).dev.depth (7 : Fin 8) + (2 : BitVec 2).toNat ≤ 28 ∧
      (2 : BitVec 2).toNat ≤ (deep 26).dev.depth (7 : Fin 8)) ∧
    ((deep 27).dev.flag (7 : Fin 8) 5 = false ∧ 28 < (deep 27).dev.depth (7 : Fin 8) + (2 : BitVec 2).toNat ∧ CeReady (deep 27) (7 : Fin 8)) ∧
    ((deep 1).dev.flag (7 : Fin 8) 5 = false ∧ (deep 1).dev.depth (7 : Fin 8) < (2 : BitVec 2).toNat ∧ CeReady (deep 1) (7 : Fin 8)) := by
  unfold CeReady InStroke; and_intros <;> decide +kernel

theorem witness_SpecialRegistersAndRepeats :
    (∀ j : Fin 32, j.val ∈ mtsPlain ∨ j.val ∈ mtsNone ∨ j.val = 4 ∨ 17 ≤ j.val ∨ j.val = 0) ∧ (1 : BitVec 5).toNat ∈ mtsPlain ∧
    (16 : BitVec 5).toNat ∈ mtsNone ∧ 17 ≤ (17 : BitVec 5).toNat ∧ (0x7fff : BitVec 15).toNat ≠ 0 ∧ (0 : BitVec 15).toNat = 0 ∧
    ((ready 7 [(CE_XREG_VALUE 7 0, 32768)]).dev.xr (7 : Fin 8) (0 : BitVec 5).toNat).toNat % 32768 = 0 := by decide

/-- Engine 7 with its stack segment in its own bank, SP 16, and the depth 1. -/
def stackReady (l : List (Field × Nat)) : State := ready 7 ([(CE_SEG_BASE_BASE 7 7, 0xB80000), (CE_SEG_LIMIT_LIMIT 7 7, 64), (CE_SPEC_VALUE 7 2, 16)] ++ l)
/-- Engine 7 with a write in its open stage. -/
def staging : State := st fun _ => (ready 7 []).dev.putCe 7 { issueAt := t0, stage := [⟨0, 0, 0, false⟩] }

/-- Engine 7 is ready and an interrupt is pending at its target. -/
def irqReady : State := st fun _ => (setAll [(PWR_MODE_TARGET, 3), (CE_STATUS_RUN 7, 1)] (raised 3 9).dev).putCe 7 { issueAt := t0 }

theorem witness_YieldWaitSpillAndFill :
    ((ready 7 []).dev.spec (7 : Fin 8) 4 = 0 ∧ (ready 7 []).dev.ceIrq (7 : Fin 8) = false) ∧ (ready 7 [(CE_SPEC_VALUE 7 4, 1)]).dev.spec (7 : Fin 8) 4 ≠ 0 ∧
    CeReady irqReady (7 : Fin 8) ∧ irqReady.dev.ceIrq (7 : Fin 8) = true ∧
    CeReady staging (7 : Fin 8) ∧ (staging.dev.ceAt (7 : Fin 8)).stage ≠ [] ∧
    (let s := stackReady [(CE_SPEC_VALUE 7 3, 1)]; CeReady s (7 : Fin 8) ∧ s.dev.memc.useAt ≠ s.dev.clock.now ∧ s.dev.memc.bad = [] ∧
      s.dev.seqTrap (7 : Fin 8) ⟨0, 0, 9, 0⟩ 0 1 = none ∧ s.dev.get (CE_STATUS_PC (7 : Fin 8)) = 0) ∧
    (let s := stackReady [(CE_SPEC_VALUE 7 3, 27)]; CeReady s (7 : Fin 8) ∧ s.dev.seqTrap (7 : Fin 8) ⟨0, 0, 10, 0⟩ 0 1 = none) := by
  unfold CeReady InStroke; and_intros <;> decide +kernel

/-- Engine 7 of mode 3 in state `run`, halted while in state `was`. -/
def haltedIn (run was : Nat) : State := st fun _ => (m3 [(CE_STATUS_RUN 7, run)]).dev.putCe 7 { issueAt := t0, haltRun := was }
/-- The device 16 TCLK after the catch. -/
def at16 (d : Dev) : Dev := { d with clock := { d.clock with now := t0 + 16 } }
/-- An interrupt has been pending for engine 7 for 4 engine cycles; its IE is 1. -/
def interrupting : State := st fun _ => at16 <|
  (setAll [(PWR_MODE_TARGET, 3), (CE_STATUS_RUN 7, 1), (CE_SPEC_VALUE 7 0, 16)] (raised 3 9).dev).putCe 7 { issueAt := t0 + 16, pendAt := some t0 }
/-- Engine 7 waits, and a signal has been set for 2 engine cycles. -/
def waking : State := st fun _ => at16 <| (m3 [(CE_STATUS_RUN 7, 3), (CE_SPEC_VALUE 7 4, 1)]).dev.putCe 7 { issueAt := t0, wakeFrom := some (t0 + 8) }
/-- Engine 7 takes one step. -/
def stepping : Dev := (m3 [(CE_STATUS_RUN 7, 1)]).dev.putCe 7 { issueAt := t0, step := true, haltRun := 1 }

theorem witness_EnginesUnderControl :
    (∀ v : Fin 8, let b := busFirst (haltedIn v 1).dev
      (haltedIn v 1).dev.hostsRun = true ∧ b.get (CE_STATUS_RUN (7 : Fin 8)) = v ∧ (b.ceAt (7 : Fin 8)).haltRun = 1 ∧
      b.ceDebug (7 : Fin 8) = (v == 0 || v == 4 || v == 5)) ∧
    ((busFirst (haltedIn 4 2).dev).get (CE_STATUS_RUN (7 : Fin 8)) = 4 ∧ ((busFirst (haltedIn 4 2).dev).ceAt (7 : Fin 8)).haltRun ≠ 1) ∧
    (13 : Fin 32).val ∈ mtsPlain ∧
    (let d := ceWatch (7 : Fin 8) interrupting.dev; let b := passTo (t0 + 16) d
      interrupting.dev.tclkRuns = true ∧ d.irqFetchAt (7 : Fin 8) = some (t0 + 16) ∧ b.due (b.irqFetchAt (7 : Fin 8)) = true ∧ b.tclkRuns = true ∧
      b.candidate (2 + (7 : Fin 8)) ≠ 1023) ∧
    (let d := ceWatch (7 : Fin 8) waking.dev; let b := passTo (t0 + 16) d
      d.wakeUpAt (7 : Fin 8) = some (t0 + 16) ∧ b.due (b.wakeUpAt (7 : Fin 8)) = true) ∧
    (7 < 8 ∧ stepping.get (CE_STATUS_RUN 7) = 1 ∧ (stepping.ceAt 7).step = true ∧ (stepping.ceAt 7).wheelAt = none ∧ bits (stepping.spec 7 13) 0 15 = 0) := by
  and_intros <;> decide +kernel

/-- An access of engine 7. -/
def wheelOp (store : Bool) (w : Nat) (pair : Bool) : WheelOp := ⟨t0 - 30, t0, t0 + 2, store, w, pair, 5, 0, 1⟩
/-- It stands in the lane of the engine. -/
def wheelNow (store : Bool) (w : Nat) (pair : Bool) : State := st fun _ => (m3 []).dev.putCe 7 { wheel := [wheelOp store w pair] }

theorem witness_WheelAccessesReachTheirTargets :
    (∀ store pair : Bool, ∀ w, w ∈ [0, 0xe80000] → let s := wheelNow store w pair
      s.dev.tclkRuns = true ∧ s.dev.memc.useAt ≠ s.dev.clock.now ∧ s.dev.memc.bad = [] ∧ s.dev.wheelEnd (7 : Fin 8) = some (t0 + 2) ∧
      (wheelOp store w pair).store = store ∧ (wheelOp store w pair).pair = pair ∧ s.dev.sdLocked (2 * w) = false) ∧ 7 < 8 ∧
    bankOf (2 * 0) = none ∧ bankOf (2 * 0xe80000) = some 10 ∧ ((m3 []).dev.ceAt (0 : Fin 8)).wheel = [] ∧ ((m3 []).dev.ceAt (0 : Fin 8)).lands = [] := by
  and_intros <;> decide +kernel
/-- Pin engine 31 of mode 3 is RUNNING and acts now, with register fields set. -/
def pin (l : List (Field × Nat)) (f : Pe → Pe) : State := st fun _ => (m3 ((PE_STATUS_RUN 31, 1) :: l)).dev.putPe 31 (f { base := (t0 : Int) * 256, actFrom := t0 })
/-- Levels at the pins: ball 3 is 1. -/
def pins3 : BitVec 160 := 8
/-- Its IN window begins at ball 3. -/
def pinIn : State := pin [(PE_PINS_IN_BASE 31, 3), (PE_PINS_IN_COUNT 31, 32), (PE_PINS2_JPIN 31, 3), (PE_GFLAGS_FLAGS 24, 128)] fun p => { p with catchSeen := true }
/-- Engine 31 wrote flag 7 of its group in this TCLK, before which the flag was clear. -/
def pinWrote : State := st fun _ => { (pin [(PE_GFLAGS_FLAGS 24, 128)] id).dev with gflagBy := [(31, 1 + 128 * t0 + 64)] }
/-- The stroke began 6 TCLK ago, and the anchor lies 5 TCLK after a stroke edge. -/
def pinPast : State := st fun _ => let d := (pin [] fun p => { p with tsh := 5 }).dev; { d with clock := { d.clock with openAt := t0 - 6 } }

theorem witness_PinEngineFlow :
    PeReady (pin [] id) (31 : Fin 32) 0 ∧ PeReady (pin [] fun p => { p with base := (t0 : Int) * 256 - 255 * 256 }) (31 : Fin 32) 255 ∧
    (14 : BitVec 4).toNat ≠ 15 ∧ (1 : BitVec 6) ≠ 0 ∧
    holdSees (pin [] id) (31 : Fin 32) pins3 true 5 0 = none ∧ holdSees (pin [] id) (31 : Fin 32) pins3 true 1 1 = none ∧
    holdSees (pin [] id) (31 : Fin 32) pins3 true 3 8 = none ∧ holdSees (pin [] id) (31 : Fin 32) pins3 false 4 0 = none ∧
    (PeReady pinIn (31 : Fin 32) 0 ∧ holdSees pinIn (31 : Fin 32) pins3 true 1 0 = some true ∧ holdSees pinIn (31 : Fin 32) pins3 true 0 0 = some true ∧
      holdSees pinIn (31 : Fin 32) pins3 true 0 31 = some !true ∧ holdSees pinIn (31 : Fin 32) pins3 true 3 7 = some true ∧
      holdSees pinIn (31 : Fin 32) pins3 true 4 0 = some true ∧ holdSees pinIn (31 : Fin 32) pins3 true 2 31 = some !true) ∧
    (PeReady pinPast (31 : Fin 32) 0 ∧
      pinPast.dev.clock.openAt + (pinPast.dev.peAt (31 : Fin 32)).tsh % pinPast.dev.period < pinPast.dev.clock.now) ∧
    (pin [] id).dev.clock.now ≤ (pin [] id).dev.clock.openAt + ((pin [] id).dev.peAt (31 : Fin 32)).tsh % (pin [] id).dev.period ∧
    aget 0 ((31 : Fin 32).val / 8 * 8 + (7 : BitVec 3).toNat) (pin [] id).dev.gflagBy = 0 ∧
    (let r := aget 0 ((31 : Fin 32).val / 8 * 8 + (7 : BitVec 3).toNat) pinWrote.dev.gflagBy;
      PeReady pinWrote (31 : Fin 32) 0 ∧ r ≠ 0 ∧ (r - 1) / 128 = t0 ∧ (31 : Fin 32).val + 1 ≤ (r - 1) / 2 % 64) ∧
    pinIn.dev.flagSeen (31 : Fin 32) (7 : BitVec 3).toNat pinIn.dev.clock.now = true ∧
    (pin [] id).dev.flagSeen (31 : Fin 32) (0 : BitVec 3).toNat (pin [] id).dev.clock.now = false ∧ (7 : BitVec 3) ≠ 0 := by
  unfold PeReady InStroke; and_intros <;> decide +kernel

/-- Pin engine 31 with every bit of TSH sent, and its RX queue as it is given. -/
def pinSpent (rx : List RxWord) : State := pin [(PE_SHIFTCTL_WLEN_TX 31, 8), (PE_STATUS_TSH_COUNT 31, 8), (PE_STATUS_RSH_COUNT 31, 3)] fun p => { p with tx := [7], rx := rx, rsh := 2 ^ 32 - 1 }

theorem witness_PinEngineData :
    PeReady (pinSpent []) (31 : Fin 32) 0 ∧ BallsFree (pin [] id) ∧ (1 ≤ (32 : BitVec 6).toNat ∧ (32 : BitVec 6).toNat ≤ 32) ∧ (1 : BitVec 6).toNat = 1 ∧ (2 : BitVec 2).toNat ≤ 2 ∧
    ((pin [] id).dev.on (PE_SHIFTCTL_TX_AUTO (31 : Fin 32)) = false ∧ (pin [] id).dev.on (PE_SHIFTCTL_RX_AUTO (31 : Fin 32)) = false) ∧
    (let s := pin [(PE_SHIFTCTL_TX_AUTO 31, 1), (PE_SHIFTCTL_WLEN_TX 31, 32), (PE_STATUS_TSH_COUNT 31, 31)] id;
      ¬ s.dev.get (PE_SHIFTCTL_WLEN_TX (31 : Fin 32)) ≤ s.dev.get (PE_STATUS_TSH_COUNT (31 : Fin 32))) ∧
    ((0 : BitVec 6).toNat = 0 ∧ 32 < (33 : BitVec 6).toNat ∧ 32 < (63 : BitVec 6).toNat) ∧
    ((pinSpent []).dev.peAt (31 : Fin 32)).rsh < 2 ^ 32 ∧
    (pinSpent []).dev.get (PE_SHIFTCTL_WLEN_TX (31 : Fin 32)) ≤ (pinSpent []).dev.get (PE_STATUS_TSH_COUNT (31 : Fin 32)) ∧
    ((pinSpent []).dev.peAt (31 : Fin 32)).tx = 7 :: [] ∧ ((pin [] id).dev.peAt (31 : Fin 32)).tx = [] ∧
    ((pinSpent (List.replicate 3 ⟨1, 1, false⟩)).dev.peAt (31 : Fin 32)).rx.length < (pinSpent []).dev.rxDepth (31 : Fin 32) ∧
    (pinSpent []).dev.rxDepth (31 : Fin 32) ≤ ((pinSpent (List.replicate 4 ⟨1, 1, false⟩)).dev.peAt (31 : Fin 32)).rx.length ∧
    (pin [] id).dev.rxDepth (31 : Fin 32) ≠ 0 ∧
    (pin [] id).dev.get (PE_STATUS_RSH_COUNT (31 : Fin 32)) < (pin [] id).dev.get (PE_SHIFTCTL_WLEN_RX (31 : Fin 32)) := by
  unfold BallsFree PeReady InStroke; refine ⟨by decide +kernel, ?_, ?_⟩
  · intro b; exact ⟨by show (0 : Nat) ≠ _; decide, by show (0 : Nat) ≠ _; decide⟩
  · and_intros <;> decide +kernel

/-- Pin engine 31 stalled at LOAD with WAIT. -/
def stalledAtLoad (tx : List Nat) : State :=
  st fun _ => (m3 [(PE_STATUS_RUN 31, 2)]).dev.putPe 31 { base := (t0 : Int) * 256, actFrom := t0, stall := some (4 * 4096 + 512), tx := tx }
/-- Pin engine 31 with words in its TX queue. -/
def pinTx (l : List Nat) : State := pin [] fun p => { p with tx := l, rx := [⟨9, 8, false⟩] }

theorem witness_PinQueuesAndControls :
    (m3 []).dev.hostsRun = true ∧ pePresent (peFirst (31 : Fin 32) (busFirst (m3 []).dev)).mode (31 : Fin 32) = true ∧
    pePresent (peFirst (31 : Fin 32) (busFirst (rst [(PWR_MODE_CUR, 0)]).dev)).mode (31 : Fin 32) = false ∧
    (let q := peFirst (31 : Fin 32) (busFirst (pinTx [1, 2, 3]).dev); (q.peAt (31 : Fin 32)).tx.length < q.txDepth (31 : Fin 32)) ∧
    (let q := peFirst (31 : Fin 32) (busFirst (pinTx [1, 2, 3, 4]).dev); q.txDepth (31 : Fin 32) ≤ (q.peAt (31 : Fin 32)).tx.length) ∧
    (let s := stalledAtLoad [9]; InStroke s ∧ pePresent s.dev.mode (31 : Fin 32) = true ∧ s.dev.get (PE_STATUS_RUN (31 : Fin 32)) = 2 ∧
      (s.dev.peAt (31 : Fin 32)).stall = some (4 * 4096 + 512) ∧ (s.dev.peAt (31 : Fin 32)).actFrom ≤ s.dev.clock.now ∧
      (s.dev.peAt (31 : Fin 32)).triedAt ≤ s.dev.clock.now ∧ peSlot s.dev.mode s.dev.clock.now = s.dev.clock.now ∧ (s.dev.peAt (31 : Fin 32)).tx = 9 :: []) ∧
    ((stalledAtLoad []).dev.peAt (31 : Fin 32)).tx = [] := by unfold InStroke; and_intros <;> decide +kernel

/-- A write of `n` bytes by the SPI at `a` waits in the fabric, or in the DRAM controller. -/
def inFabric (a n : Nat) : State := st fun d => { d with fab := { d.fab with reqs := [⟨4, 0, t0, ⟨.spi, true, a, 7, n, 0, 0⟩⟩] } }
def inDram (a n : Nat) : State := st fun d => { d with memc := { d.memc with dram := [⟨t0, ⟨.spi, true, a, 7, n, 0, 0⟩⟩] } }

theorem witness_RegisterWritesAndGrants :
    State.reset.dev.hostsRun = true ∧ (0x41006 : BitVec 32).toNat % 4 ≠ 0 ∧
    ((0x2000 : BitVec 32).toNat % 4 = 0 ∧ (busFirst State.reset.dev).isReg (0x2000 : BitVec 32).toNat = false) ∧
    (∀ n, Master.pcie ≠ .ce n) ∧ (busFirst State.reset.dev).bound .pcie = none ∧
    State.reset.dev.fab.reqs = [] ∧ State.reset.dev.memc.dram = [] := by
  refine ⟨by decide, by decide, by decide +kernel, by intro n; simp, ?_⟩; and_intros <;> decide +kernel

theorem witness_RegisterWritesAndGrants_grant :
    ∀ a, a ∈ [0x1000000, 0x1eefffc, 0x80000000, 0x80000000 + 1792 * 0x100000 - 4] → let s := inFabric a 4; let b := passTo t0 s.dev
      let w := if b.fabNext.any fun r => r.acc.afterWheel then wheelTicks b else b; let r : FabReq := ⟨4, 0, t0, ⟨.spi, true, a, 7, 4, 0, 0⟩⟩
      s.dev.tclkRuns = true ∧ s.dev.grantAt = some t0 ∧ b.due b.grantAt = true ∧ w.fabNext = some r ∧ w.hostsRun = true ∧
      w.fab.freeAt ≤ w.clock.now ∧ w.fab.wait = [] ∧ r.acc.carries = false ∧
      (if a < 0x80000000 then (bankOf a).isSome = true ∧ a % 4 = 0 ∧ w.bankClosed .spi ((bankOf a).getD 0) true = false ∧ w.sdLocked a = false ∧
        w.memc.useAt ≠ w.clock.now else w.dramMapped a = true) := by decide +kernel

theorem witness_RegisterWritesAndGrants_dram :
    let s := inDram 0x80000000 64; s.dev.hostsRun = true ∧ s.dev.memc.dram = ⟨t0, ⟨.spi, true, 0x80000000, 7, 64, 0, 0⟩⟩ :: [] ∧ s.dev.fab.wait = [] ∧
      0x80000000 ≤ 0x80000000 ∧ s.dev.dramMapped 0x80000000 = true ∧
      s.dev.inSlot 0x80000000 = false ∧ s.dev.inSlot (0x80000000 + 64 - 1) = false := by decide +kernel

/-- Corrected words of banks 11 and 0 wait, and bank `k` is in use in this TCLK. -/
def wbWaits (k : Option Nat) : State := st fun d =>
  { d with memc := { d.memc with wb := [0x1f00000, 0x1000000], useAt := if k.isSome then t0 else 0, uses := (k.map fun k => (⟨bankBase k, 0, false, 0, 0⟩ : BankUse)).toList } }

theorem witness_MemoryHoldsWhatIsWritten :
    Memory.wf [⟨5, 1⟩] = true ∧ (wbWaits none).dev.wbOf 11 = 0x1f00000 :: [] ∧ (wbWaits none).dev.bankInUse 11 = false ∧
    (wbWaits (some 11)).dev.wbOf 11 = 0x1f00000 :: [] ∧ (wbWaits (some 11)).dev.bankInUse 11 = true ∧
    State.reset.dev.tclkRuns = true ∧ (rst [(MEM_CTRL_SCRUB_EN, 0)]).dev.on MEM_CTRL_SCRUB_EN = false ∧
    (let s := rst [(MEM_CTRL_SCRUB_EN, 1)]; let b := passTo t0 s.dev; s.dev.scrubNext = some t0 ∧ b.due b.scrubNext = true ∧ b.memc.bad = []) ∧
    State.reset.dev.wbOf (0 : Fin 12) = [] ∧ (wbWaits none).dev.wbOf (11 : Fin 12) ≠ [] ∧
    (passUntil (fun e => decide ((e.wbOf (11 : Fin 12)).length < ((wbWaits none).dev.wbOf (11 : Fin 12)).length)) 512 (wbWaits none).dev).isSome = true ∧
    State.reset.dev.on SYS_RST_STATUS_WARM_BUSY = false ∧ (busFirst (rst [(PWR_MODE_CUR, 5)]).dev).mode = 5 ∧ (busFirst State.reset.dev).mode ≠ 5 ∧
    (st fun d => { d with memc := { d.memc with training := true } }).dev.memc.training = true ∧ State.reset.dev.on MEM_DRAM_STAT_TRAINED = true := by
  and_intros <;> decide +kernel
/-- Slot 1 is loading from DRAM, and Keel is at the end of the service. -/
def loading (f : Dev → Dev) : State :=
  serving .rigLoad fun d => f (setAll [(RIG_STATUS_STATE_B, 1), (MEM_DRAM_CAP_CAP_MIB, 2048)] { d with rig := { d.rig with load := some (1, 0x90000000, 376) } })
def isErr (r : Except Nat Image) (c : Nat) : Bool := match r with | .error k => k == c | .ok _ => false
def isOk (r : Except Nat Image) : Bool := match r with | .error _ => false | .ok _ => true
/-- A rig image at 0x90000000 with one section, the operating mode, under one signature. -/
def image : Mem :=
  let a := 0x90000000
  let m : Mem := [(0, 0x534B5247, 4), (4, 1, 2), (6, 256, 2), (8, 0x2560, 2), (12, 5, 2), (14, 1, 2), (16, 7, 4), (20, 376, 4), (24, 9, 4),
    (256, 0xD, 2), (260, 8, 4), (264, 1, 1), (278, 96, 2)].foldl (fun m w => m.write (a + w.1) w.2.1 w.2.2) []
  (m.write (a + 252) (crc32c (m.bytes a 252)) 4).write (a + 272) (crc32c (m.bytes (a + 256) 16)) 4
def goodImage : State := loading fun d => { d with mem := image }
/-- Engine 7's code is to be copied. -/
def copying : State := serving .codeCopy fun d => { d with rig := { d.rig with copyQ := [7], blocked := 128 } }

theorem witness_RigImagesLoadAndClear :
    (let b := busFirst State.reset.dev; State.reset.dev.hostsRun = true ∧ b.get RIG_STATUS_STATE_A ≠ 1 ∧ b.get RIG_STATUS_STATE_B ≠ 1 ∧
      b.activeSlot = none ∧ b.get (slotState b.inactiveSlot) ≠ 2 ∧ b.get (slotState b.inactiveSlot) ≠ 3) ∧
    (busFirst (loading id).dev).get RIG_STATUS_STATE_B = 1 ∧ (busFirst (rst [(RIG_STATUS_STATE_A, 1)]).dev).get RIG_STATUS_STATE_A = 1 ∧
    (let b := busFirst (rst [(RIG_STATUS_STATE_B, 4)]).dev; b.activeSlot = some 1 ∧ ((b.slotImage 1).getD {}).arbSeq < 2 ^ 32) ∧
    (∀ v : Fin 4, 2 ≤ v.val → let b := busFirst (rst [(RIG_STATUS_STATE_B, v)]).dev; b.get (slotState b.inactiveSlot) = v) ∧
    State.reset.dev.keelAsked .rigLoad = false ∧ State.reset.dev.clock.phase ≠ .held ∧
    endsNow (loading id) .rigLoad = true ∧ (loading id).dev.rig.load = some ((1 : Fin 2).val, 0x90000000, 376) ∧
    (let d := (loading fun d => d.set MEM_DRAM_CAP_CAP_MIB 3).dev; 0x80000000 + d.get MEM_DRAM_CAP_CAP_MIB * 0x100000 < d.get (slotBase (1 : Fin 2)) + 0x400000) ∧
    (let d := (loading id).dev; ¬ 0x80000000 + d.get MEM_DRAM_CAP_CAP_MIB * 0x100000 < d.get (slotBase (1 : Fin 2)) + 0x400000 ∧
      d.dramMapped 0x90000000 = true ∧ d.dramMapped (0x90000000 + 255) = true ∧ d.dramMapped (0x90000000 + 376 - 1) = true ∧
      d.mem.read 0x90000000 4 ≠ 0x534b5247 ∧ isErr (d.rigCheck (1 : Fin 2) 0x90000000 376 true) 1 = true) ∧
    (endsNow goodImage .rigLoad = true ∧ isOk (goodImage.dev.rigCheck (1 : Fin 2) 0x90000000 376 true) = true ∧
      isErr (goodImage.dev.rigCheck (1 : Fin 2) 0x90000000 376 false) 7 = true) ∧
    (let d := (loading fun d => d.set MEM_DRAM_STAT_TRAINED 0).dev; d.dramMapped 0x90000000 = false ∧ bankOf 0x90000000 = none ∧ d.keel.frames.length < 8) ∧
    endsNow copying .codeCopy = true ∧ copying.dev.rig.copyQ = 7 :: [] := by
  and_intros <;> decide +kernel

/-- Context `c` is OPEN, owned by PCIe and bound to it, with the operands `l` of a commit. -/
def opened (c : Nat) (l : List (Field × Nat)) : State := st fun d =>
  bindCtx Master.pcie.num (some c) { (setAll ((TXN_CTX_STATUS_STATE c, 1) :: l) d) with
    txn := { d.txn with ctxs := [(c, { serial := 5, owner := Master.pcie.num })] } }
/-- Contexts 0 to `n` − 1 are OPEN. -/
def manyOpen (n : Nat) (l : List (Field × Nat)) : State := rst (((List.range n).map fun c => (TXN_CTX_STATUS_STATE c, 1)) ++ l)
/-- The lead has opened a crew transaction in context 7. -/
def crewOpen : State := st fun _ =>
  let d := (opened 7 [(TXN_CTX_AT_LO_AT_LO 7, 3), (CREW_STATUS_ROLE, 1), (CREW_CC_STATUS_STATE, 1)]).dev
  { d with crew := { d.crew with cc := some { serial := 5, gen := 0, ctx := some 7 } } }

theorem witness_TransactionsBeginAndCommit :
    State.reset.dev.hostsRun = true ∧ Master.pcie.hasCtx = true ∧
    (let b := busFirst (manyOpen 8 []).dev; b.bound .pcie = none ∧ ∀ c, c < 8 → b.get (TXN_CTX_STATUS_STATE c) ≠ 0) ∧
    (let b := busFirst (manyOpen 7 []).dev; b.get (TXN_CTX_STATUS_STATE (7 : Fin 8)) = 0 ∧ ∀ j, j < 7 → b.get (TXN_CTX_STATUS_STATE j) ≠ 0) ∧
    (busFirst State.reset.dev).get (TXN_CTX_STATUS_STATE (0 : Fin 8)) = 0 ∧ (busFirst (opened 7 []).dev).bound .pcie = some 7 ∧
    (let b := busFirst (opened 7 [(TXN_CTX_AT_LO_AT_LO 7, 250001)]).dev; let h : BitVec 16 := 47; h.toNat % 8 = 7 ∧ b.handle 7 = h.toNat ∧
      b.get (TXN_CTX_STATUS_STATE 7) = 1 ∧ (b.ctxAt 7).owner = Master.pcie.num ∧ b.on (TXN_CTX_STATUS_OVF 7) = false ∧
      b.inFinish = false ∧ b.clock.strokeNo + 0 < b.ctxStroke 7 ∧ b.clock.openAt < b.ctxTime 7) ∧
    (let b := busFirst (opened 7 [(TXN_CTX_AT_LO_AT_LO 7, 1)]).dev; b.ctxStroke 7 ≤ b.clock.strokeNo + 0 ∧ b.ctxTime 7 ≤ b.clock.openAt) ∧
    (busFirst State.reset.dev).get (TXN_CTX_STATUS_STATE ((0 : BitVec 16).toNat % 8)) = 0 ∧
    (let b := busFirst crewOpen.dev; b.handle 7 = 47 ∧ b.get CREW_STATUS_ROLE = 1 ∧ b.get CREW_CC_STATUS_STATE = 1 ∧ (b.crew.cc.bind fun x => x.ctx) = some 7 ∧
      b.clock.endAt + (0 + b.get CREW_CFG_CC_PREP) * b.period + 2 * b.period < b.ctxTime 7) := by and_intros <;> decide +kernel
/-- A device of mode 3 whose crew port `k` is in state `v`. -/
def crewAt (k v : Nat) (l : List (Field × Nat)) : State := m3 ([(CREW_CTRL_ENABLE, 1), (CREW_PORT_CFG_EN k, 1), (CREW_PORT_STAT_STATE k, v)] ++ l)
/-- Port 3 of it is UP. -/
def upAt (l : List (Field × Nat)) (f : Crew → Crew) : State :=
  st fun _ => let d := (crewAt 3 2 l).dev; { d with crew := f d.crew }
def port3 (p : CrewPort) (c : Crew) : Crew := { c with ports := awrite {} 3 p c.ports }
/-- A broadcast frame on port 3 with SEQ `q`. -/
def hdr3 (q : Nat) : Hdr := ⟨3, 16384, 7, q, 5, true⟩
/-- Of a lead, and of a member, with crew fields. -/
def leadAt (l : List (Field × Nat)) (f : Crew → Crew) : State := upAt ((CREW_STATUS_ROLE, 1) :: l) f

theorem witness_CrewFramesAndKeys_frames :
    (∀ v, v ∈ [1, 2, 3] → Hears (crewAt 3 v []) (hdr3 0) [1, 2, 3]) ∧ Hears (crewAt 3 2 []) (hdr3 0) [2] ∧
    t0 * 65536 / 65536 ≤ (crewAt 3 2 []).dev.clock.now ∧ (crewAt 3 2 []).dev.get CREW_STATUS_ROLE ≠ 2 ∧
    (leadAt [] id).dev.isLead = true ∧ (leadAt [] id).dev.crew.sdDown = none ∧ (crewAt 3 2 []).dev.isLead = false ∧
    (hdr3 0).port = (crewAt 3 2 [(CREW_STATUS_UP_PORT, 3)]).dev.get CREW_STATUS_UP_PORT := by
  unfold Hears; and_intros <;> decide +kernel

def keyInit (conf : Bool) : State := upAt [(TRUST_KEYINFO_CREW_KEY, 1)] (port3 { agreeing := true, peerConf := conf })
def keyConf (v : Nat) : State := st fun _ => (upAt [] (port3 { agreeing := true, peerNonce := some 9, ownConf := true })).dev.set (CREW_PORT_STAT_STATE 3) v

theorem witness_CrewFramesAndKeys_keys :
    (∀ c : Bool, Hears (keyInit c) (hdr3 0) [1, 2, 3] ∧ (keyInit c).dev.on TRUST_KEYINFO_CREW_KEY = true ∧ ((keyInit c).dev.cport (hdr3 0).port).agreeing = true ∧
      ((keyInit c).dev.cport (hdr3 0).port).peerConf = c) ∧
    (Hears (keyConf 1) (hdr3 0) [1, 2, 3] ∧ ((keyConf 1).dev.cport (hdr3 0).port).agreeing = true ∧
      ((keyConf 1).dev.cport (hdr3 0).port).peerNonce.isSome = true ∧ ((keyConf 1).dev.cport (hdr3 0).port).ownConf = true ∧ (keyConf 1).dev.pstate (hdr3 0).port = 1) ∧
    Mine (crewAt 3 2 []) (hdr3 4096) ∧ Fresh (crewAt 3 2 []) (16 + (hdr3 0).src % 1024) (hdr3 0) ∧
    Fresh (upAt [] fun c => { c with seen := awrite 0 (seenKey 23 0) 1 c.seen }) (16 + (hdr3 4096).src % 1024) (hdr3 4096) ∧
    bit ((crewAt 3 2 [(CREW_DB_ALLOW_LO_ALLOW, 2 ^ 31)]).dev.get CREW_DB_ALLOW_LO_ALLOW) (31 : BitVec 6).toNat = true ∧
    bit ((crewAt 3 2 [(CREW_DB_ALLOW_HI_ALLOW, 2 ^ 30)]).dev.get CREW_DB_ALLOW_HI_ALLOW) ((62 : BitVec 6).toNat - 32) = true ∧ (62 : BitVec 6).toNat ≤ 62 ∧
    bit ((crewAt 3 2 [(CREW_DB_ALLOW_HI_ALLOW, 0)]).dev.get CREW_DB_ALLOW_HI_ALLOW) ((63 : BitVec 6).toNat - 32) = false := by
  unfold Mine Hears Fresh; and_intros <;> decide +kernel

/-- Port 3's key is 24 h old; the crew reference qualifies now. -/
def oldKey : State := st fun _ => let d := (upAt [] (port3 { keyed := true })).dev;
  { d with clock := { d.clock with now := 86400000000000, openAt := 86400000000000, endAt := 86400000004000 } }
def qualNow (l : List (Field × Nat)) : State := upAt l fun c =>
  { port3 { adv := some ⟨0, 0, 0, 0, false, false, 2, 0, 0, 0, 0⟩ } c with qualEnd := some t0, up := some 3 }
def qualGood : State := qualNow [(CREW_STATUS_ROLE, 2), (CREW_STATUS_UP_PORT, 3), (CREW_STATUS_ADMITTED, 1)]

theorem witness_CrewFramesAndKeys_drops :
    (let s := upAt [] (port3 { fcnt := 6 }); s.dev.tclkRuns = true ∧ s.dev.portUsable (hdr3 0).port = true ∧ s.dev.pstate (hdr3 0).port ∈ [1, 2, 3] ∧
      (hdr3 0).tagOk = true ∧ (hdr3 0).fcnt < (s.dev.cport (hdr3 0).port).fcnt) ∧
    (let s := upAt [] (port3 { tagRun := 14 }); let h : Hdr := { hdr3 0 with tagOk := false }; s.dev.tclkRuns = true ∧ h.port < 4 ∧
      s.dev.portUsable h.port = true ∧ s.dev.pstate h.port ∈ [1, 2, 3] ∧ h.tagOk = false ∧ (s.dev.cport h.port).tagRun < 15) ∧
    ((crewAt 3 0 []).dev.hostsRun = true ∧ (crewAt 3 0 []).dev.portUsable (3 : Fin 4) = true ∧ (crewAt 3 0 []).dev.pstate (3 : Fin 4) = 0 ∧
      (crewAt 3 3 []).dev.pstate (3 : Fin 4) ≠ 0) ∧ State.reset.dev.portUsable (3 : Fin 4) = false ∧
    (oldKey.dev.rekeyAt (3 : Fin 4) = some 86400000000000 ∧ (let b := passTo 86400000000000 oldKey.dev; b.due (b.rekeyAt (3 : Fin 4)) = true)) ∧
    (qualGood.dev.crew.qualEnd = some t0 ∧ (let b := passTo t0 qualGood.dev; b.due b.crew.qualEnd = true ∧ b.crewRefOk = true)) ∧
    (let b := passTo t0 (qualNow []).dev; b.due b.crew.qualEnd = true ∧ b.crewRefOk = false) ∧
    State.reset.dev.crew.qualEnd = none ∧ (State.reset.dev.cport (3 : Fin 4)).keyed = false ∧
    (let b := busFirst (leadAt [(CREW_DB_TX_DEST, 1023), (CREW_ROSTER_PRESENT 1023, 1)] id).dev;
      b.get CREW_STATUS_ROLE = 1 ∧ b.isLead = true ∧ b.on CREW_DB_TX_BCAST = false ∧ b.inRoster (b.get CREW_DB_TX_DEST) = true) ∧
    (let b := busFirst (leadAt [] id).dev; b.on CREW_DB_TX_BCAST = false ∧ b.get CREW_DB_TX_DEST ≠ bcast ∧ b.inRoster (b.get CREW_DB_TX_DEST) = false) ∧
    (let b := busFirst (crewAt 3 2 [(CREW_STATUS_ROLE, 2)]).dev; b.get CREW_STATUS_ROLE = 2 ∧ b.isLead = false) ∧
    (busFirst State.reset.dev).get CREW_STATUS_ROLE = 0 := by
  and_intros <;> decide +kernel

/-- Message number 5 of class 1 has been seen with generation 2. -/
def seen1 (c : Crew) : Crew := { c with seen := awrite 0 (seenKey 1 5) 3 c.seen, up := some 3 }
def rolling : Roll := { epoch := 0, seq := 5, replies := [⟨1, 100, 0, 0, 0, 0, 0, false⟩] }

theorem witness_CrewRollCallsAndTransactions_roll :
    (let s := upAt [(CREW_STATUS_UP_PORT, 3)] seen1; Mine s (hdr3 (5 + 4096 * 3)) ∧ Fresh s 1 (hdr3 (5 + 4096 * 3)) ∧
      s.dev.isUp (hdr3 0).port = true ∧ (s.dev.cport (hdr3 0).port).upAt ≤ 0) ∧
    (let s := leadAt [] id; Hears s (hdr3 0) [2] ∧ s.dev.isLead = true ∧ s.dev.crew.roll = none ∧ Fresh s 2 (hdr3 65535) ∧ s.dev.crew.rollReq = none) ∧
    (let s := leadAt [] fun w => { w with roll := some rolling };
      Hears s (hdr3 5) [2] ∧ s.dev.isLead = true ∧ s.dev.crew.roll = some rolling ∧ rolling.seq = (hdr3 5).seq ∧ ∀ m, m ∈ rolling.replies → m.serial ≠ 101) ∧
    (let s := upAt [] seen1; Mine s (hdr3 (5 + 4096 * 2)) ∧ s.dev.isLead = false ∧ s.dev.crewSame 1 (hdr3 (5 + 4096 * 2)).seq = true) ∧
    (let s := upAt ((CREW_STATUS_ADMITTED, 1) :: (List.range 7).map fun c => (TXN_CTX_STATUS_STATE c, 1)) id; Mine s (hdr3 65535) ∧ s.dev.isLead = false ∧
      s.dev.on CREW_STATUS_ADMITTED = true ∧ Fresh s 3 (hdr3 65535) ∧ s.dev.crew.cc = none ∧ s.dev.bound .crew = none ∧ s.dev.txn.serial ≠ 0 ∧
      s.dev.get (TXN_CTX_STATUS_STATE (7 : Fin 8)) = 0 ∧ ∀ j, j < (7 : Fin 8).val → s.dev.get (TXN_CTX_STATUS_STATE j) ≠ 0) := by
  unfold Mine Hears Fresh; and_intros <;> decide +kernel

/-- The crew transaction 5 of generation 2 is open with context 7. -/
def ccOf (f : CrewCc → CrewCc) (c : Crew) : Crew := { c with cc := some (f { serial := 5, gen := 2, ctx := some 7 }) }
def hdrCc : Hdr := hdr3 (5 + 4096 * 2)

theorem witness_CrewRollCallsAndTransactions_transaction :
    (let s := upAt [(TXN_CTX_STATUS_STATE 7, 1)] (ccOf id); Mine s hdrCc ∧ s.dev.isLead = false ∧
      s.dev.crew.cc = some { serial := 5, gen := 2, ctx := some 7 } ∧ 5 = hdrCc.seq % 4096 ∧ 2 = hdrCc.seq / 4096 % 16 ∧
      s.dev.get (TXN_CTX_STATUS_STATE (7 : Fin 8)) = 1 ∧ s.dev.on (TXN_CTX_STATUS_OVF (7 : Fin 8)) = false ∧ s.dev.clock.now < t0 + 1) ∧
    ((upAt [] (ccOf fun x => { x with ctx := none })).dev.crew.cc.bind fun x => x.ctx) = none ∧
    (let s := upAt [] (ccOf fun x => { x with voted := true }); (s.dev.crew.cc.map fun x => x.voted) = some true ∧ s.dev.inFinish = false) ∧
    (let s := leadAt [(CREW_CC_STATUS_STATE, 2)] (ccOf id); Hears s hdrCc [2] ∧ s.dev.isLead = true ∧ s.dev.get CREW_CC_STATUS_STATE = 2 ∧
      s.dev.crew.cc = some { serial := 5, gen := 2, ctx := some 7 }) := by
  unfold Mine Hears; and_intros <;> decide +kernel

def raOp : RaOp := ⟨0, false, [7], 5, 2⟩

theorem witness_CrewRollCallsAndTransactions_remote :
    (let s := upAt [] id; Mine s (hdr3 65535) ∧ s.dev.isLead = false ∧ Fresh s 4 (hdr3 65535) ∧ s.dev.fab.reqs = [] ∧ s.dev.fab.wait = [] ∧
      s.dev.memc.dram = [] ∧ s.dev.on SYS_RST_STATUS_WARM_BUSY = false) ∧ (0 : BitVec 16).toNat = 0 ∧
    raClosed ((0x80004 : BitVec 32).toNat - (0x80004 : BitVec 32).toNat % 4) = true ∧
    raClosed ((0x41004 : BitVec 32).toNat - (0x41004 : BitVec 32).toNat % 4) = false ∧
    (let s := leadAt [] fun c => { c with ra := some raOp };
      Mine s hdrCc ∧ s.dev.crew.ra = some raOp ∧ raOp.seq = hdrCc.seq % 4096 ∧ raOp.gen = hdrCc.seq / 4096 % 16 ∧ raOp.waitFor = [hdrCc.src % 1024] ∧
      raOp.denied = false ∧ s.dev.on CREW_RA_CTRL_WRITE = false ∧ s.dev.on CREW_RA_DEST_BCAST = false) := by
  unfold Mine Hears Fresh; and_intros <;> decide +kernel

def leadFree : State := manyOpen 7 [(CREW_STATUS_ROLE, 1)]
def raising : State := manyOpen 7 [(CREW_STATUS_ROLE, 1), (CREW_LEVEL_TARGET, 65535), (CREW_LEVEL_AT_LO_SEC_LO, 3)]
def reaching (v : Nat) : State := rst [(CREW_STATUS_ROLE, 1), (CREW_RA_DEST_ID, 1023), (CREW_ROSTER_PRESENT 1023, v)]

theorem witness_CrewRollCallsAndTransactions_commands :
    State.reset.dev.hostsRun = true ∧ (busFirst State.reset.dev).isLead = false ∧
    (let b := busFirst leadFree.dev; b.isLead = true ∧ b.crew.rollReq = none ∧
      b.get CREW_LEVEL_TARGET ≤ b.get CREW_LEVEL_CUR ∧ b.get CREW_CC_STATUS_STATE = 0 ∧ b.txn.serial ≠ 0 ∧
      b.get (TXN_CTX_STATUS_STATE (7 : Fin 8)) = 0 ∧ (∀ j, j < (7 : Fin 8).val → b.get (TXN_CTX_STATUS_STATE j) ≠ 0) ∧
      b.bound .keel = none ∧ b.bound .pcie = none ∧ b.on CREW_RA_CTRL_BUSY = false) ∧
    (let b := busFirst raising.dev; b.get CREW_LEVEL_CUR < b.get CREW_LEVEL_TARGET ∧
      b.clock.now + 2000000000 ≤ (b.get CREW_LEVEL_AT_LO_SEC_LO + 2 ^ 32 * b.get CREW_LEVEL_AT_HI_SEC_HI) * 1000000000) ∧
    Master.spi ≠ .pcie ∧ Master.spi ≠ .keel ∧ (busFirst (rst [(CREW_RA_CTRL_BUSY, 1)]).dev).on CREW_RA_CTRL_BUSY = true ∧
    (∀ v : Fin 2, let b := busFirst (reaching v).dev; b.isLead = true ∧ b.on CREW_RA_CTRL_BUSY = false ∧ b.on CREW_RA_DEST_BCAST = false ∧
      b.on CREW_RA_DEST_IN_CC = false ∧ b.inRoster (b.get CREW_RA_DEST_ID) = (v == 1)) := by and_intros <;> decide +kernel
/-- Port 2 of a PTP mode with a link and profile fields `l`, in port state `v`; no ESMC PDU is awaited. -/
def ptpAt (v : Nat) (l : List (Field × Nat)) (f : Eth → Eth) : State := st fun d =>
  let d := setAll ((ETH_STATUS_ESMC_FAILED 2, 1) :: l) (ptpPort 2 v d)
  d.putEth 2 (f (d.ethAt 2))
/-- The same 10 s after the port has last heard anything. -/
def ptpLater (v : Nat) (l : List (Field × Nat)) (f : Eth → Eth) : State := st fun _ =>
  let d := (ptpAt v l f).dev
  { d with clock := { d.clock with now := 10 * t0, openAt := 10 * t0, endAt := 10 * t0 + 4000 } }
/-- In LISTENING, with the announce receipt timeout of 375 ms over now. -/
def listening (l : List (Field × Nat)) : State := ptpLater 4 l fun p => { p with heardAt := 10 * t0 - 375000000 }
/-- A message with sequenceId 7 of generation 5 that crossed the MII 10 ns ago. -/
def ptp7 : PtpHdr := ⟨2, 24, 0x5007, none, (t0 - 10) * 65536 + 5, []⟩
/-- An Announce of clock 77 with class `g`. -/
def annOf (g : Nat) : AnnMsg := ⟨77, 1, 100, g, 0x21, 100, 100, 0x1234567890, 2, 37, true, false, false⟩
/-- A slave with records of generation `g`. -/
def recorded (g : Nat) : State := ptpAt 8 [] fun p => { p with syncs := [(7, ⟨g, 9, 65536⟩)], delayReqs := [(7, ⟨g, 4⟩)], ms := some 12345 }
def pathKnown : State := ptpAt 8 [] fun p => { p with delays := [100, 300] }

theorem witness_PtpAndEthernetPorts_messages :
    (∀ v, v ∈ [8, 9] → PtpHears (ptpAt v [] id) ptp7 ∧ (ptpAt v [] id).dev.isSlave 2 = true) ∧
    (ptpAt 8 [] id).dev.on (ETH_PTP_CFG_TRK_EN 2) = false ∧ (ptpAt 8 [] id).dev.pathDelay 2 = none ∧
    pathKnown.dev.pathDelay 2 = some 200 ∧
    (∀ g, g ∈ [4, 5] → let p := (recorded g).dev.ethAt 2; (p.syncs.find? fun e => e.1 == 0x5007 % 4096) = some (0x5007 % 4096, ⟨g, 9, 65536⟩) ∧
      (p.delayReqs.find? fun e => e.1 == 0x5007 % 4096) = some (0x5007 % 4096, ⟨g, 4⟩) ∧ p.ms = some 12345 ∧ p.delays = []) ∧
    5 = 0x5007 / 4096 % 16 ∧ 4 ≠ 0x5007 / 4096 % 16 ∧
    PtpHears (ptpAt 6 [(ETH_PTP_CFG_PROFILE 2, 2)] id) ptp7 ∧ (ptpAt 6 [] id).dev.ptpState 2 = 6 ∧ (ptpAt 8 [] id).dev.ptpState 2 ≠ 6 ∧
    (ptpAt 6 [(ETH_PTP_CFG_PROFILE 2, 2)] id).dev.get (ETH_PTP_CFG_PROFILE 2) = 2 := by
  unfold PtpHears; and_intros <;> decide +kernel

theorem witness_PtpAndEthernetPorts_announce :
    (let s := listening [(TB_STATUS_STATE, 2)]; PtpHears s ptp7 ∧ OnlyPort s.dev 2 ∧
      s.dev.distrusted 2 77 = false ∧ s.dev.clockClass true ≤ 127 ∧ s.dev.on ETH_CLK_CFG_SLAVE_ONLY = false) ∧
    (let s := listening []; PtpHears s ptp7 ∧ 127 < s.dev.clockClass true ∧ s.dev.get (ETH_PTP_CFG_ROLE 2) = 2 ∧
      lexLess (s.dev.annKey 2 (annOf 6)) s.dev.ownKey = true) ∧
    (let b := (listening []).dev; b.tclkRuns = true ∧ b.annLimit (2 : Fin 4) = some (10 * t0) ∧ passTo (10 * t0) b = b ∧ b.due (b.annLimit (2 : Fin 4)) = true ∧
      OnlyPort b (2 : Fin 4) ∧ (b.ethAt (2 : Fin 4)).heardAt + b.annTmo (2 : Fin 4) ≤ b.clock.now) ∧
    State.reset.dev.annLimit (2 : Fin 4) = none := by
  unfold PtpHears OnlyPort; and_intros <;> decide +kernel

/-- Port 2 sends ESMC PDUs; it has heard none for 5 s. -/
def esmcLost : State := ptpLater 6 [(ETH_STATUS_ESMC_FAILED 2, 0), (ETH_ESMC_CFG_ESMC_TX 2, 1), (TB_STATUS_STATE, 2)] fun p => { p with esmcFrom := 5 * t0 }
def esmcLoop : State := ptpLater 6 [(ETH_STATUS_ESMC_FAILED 2, 0), (ETH_ESMC_CFG_ESMC_TX 2, 1), (TB_REF_SEL_CNTF0_EN, 1), (CNT_CFG_SRC 0, 10)] fun p => { p with esmcFrom := 5 * t0 }
def hostPort (t : Nat) : State := ptpAt 8 [(ETH_HOST_CFG_RX_EN 2, 1)] fun p => { p with tokens := t, tokenAt := t0, tx := [[1, 2], [3]] }

theorem witness_PtpAndEthernetPorts_ports :
    ((ptpAt 8 [(ETH_STATUS_LINK 2, 0)] id).dev.ethRuns (2 : Fin 4) = true ∧ (ptpAt 8 [(ETH_STATUS_LINK 2, 0)] id).dev.on (ETH_STATUS_LINK (2 : Fin 4)) = false) ∧
    (let d := (ptpAt 8 [] id).dev; d.tclkRuns = true ∧ d.hostsRun = true ∧ d.ethRuns (2 : Fin 4) = true ∧ d.on (ETH_STATUS_LINK (2 : Fin 4)) = true ∧
      t0 * 65536 / 65536 ≤ d.clock.now ∧ d.ptpOn (2 : Fin 4) = true ∧ d.isSlave (2 : Fin 4) = true ∧ ptpMode d.mode = true) ∧
    State.reset.dev.esmcLimit (2 : Fin 4) = none ∧
    (∀ s, s ∈ [esmcLost, esmcLoop] → s.dev.esmcLimit (2 : Fin 4) = some (10 * t0) ∧ passTo (10 * t0) s.dev = s.dev ∧ s.dev.due (s.dev.esmcLimit (2 : Fin 4)) = true ∧
      s.dev.on (ETH_ESMC_CFG_ESMC_TX (2 : Fin 4)) = true ∧ s.dev.on (ETH_ESMC_CFG_OVR_EN (2 : Fin 4)) = false ∧ s.dev.ethRuns (2 : Fin 4) = true) ∧
    esmcLoop.dev.synceRef (2 : Fin 4) = true ∧
    (let b := esmcLost.dev; b.synceRef (2 : Fin 4) = false ∧ b.synceQual = none ∧ b.isTgm = true ∧ b.get TB_STATUS_STATE = 2) ∧
    (∀ t, t ∈ [512000, 511999] → let d := (hostPort t).dev; d.ethRuns (2 : Fin 4) = true ∧ d.on (ETH_STATUS_LINK (2 : Fin 4)) = true ∧
      d.on (ETH_HOST_CFG_RX_EN (2 : Fin 4)) = true ∧ (d.ethAt (2 : Fin 4)).tx = [1, 2] :: [[3]] ∧
      min 131072000 ((d.ethAt (2 : Fin 4)).tokens + (d.clock.now - (d.ethAt (2 : Fin 4)).tokenAt) * d.get (ETH_HOST_CFG_RATE_MBPS (2 : Fin 4))) = t) ∧
    (List.replicate 64 7).length * 8000 = 512000 ∧ ((ptpAt 8 [] id).dev.ethAt (2 : Fin 4)).tx = [] := by and_intros <;> decide +kernel
/-- A patch of one match and one microword, and an image of one DRAM section, each with its signature entry of 96 bytes; the CRCs were computed
from the polynomial of R264 outside Lean. -/
def patchBytes : List Nat :=
  leBytes 0x534B5054 4 ++ leBytes 1 2 ++ leBytes 64 2 ++ leBytes 0x2560 2 ++ [4, 0] ++ leBytes 9 4 ++ leBytes 77 4 ++ leBytes 1 2 ++ leBytes 2 2 ++
  leBytes 1 2 ++ leBytes 0 2 ++ [1, 0, 0] ++ List.replicate 29 0 ++ leBytes 0x12b14bcd 4 ++ leBytes 0x80000005 4 ++ leBytes 0x2003 4 ++
  leBytes 0x9cdeab1 4 ++ leBytes 0 2 ++ leBytes 96 2 ++ List.replicate 96 0
def imageBytes : List Nat :=
  leBytes 0x534B5247 4 ++ leBytes 1 2 ++ leBytes 256 2 ++ leBytes 0x2560 2 ++ [0x21, 0] ++ leBytes 0 2 ++ leBytes 1 2 ++ leBytes 5 4 ++ leBytes 380 4 ++
  leBytes 6 4 ++ List.replicate 224 0 ++ leBytes 0x59d04211 4 ++
  (leBytes 0xE 2 ++ leBytes 0 2 ++ leBytes 12 4 ++ [2, 0] ++ leBytes 1 2 ++ leBytes 0x80001000 4 ++ leBytes 0xCAFE 4 ++ leBytes 0x6a290af2 4) ++
  leBytes 0 2 ++ leBytes 96 2 ++ List.replicate 96 0
/-- Reset with the bytes `l` at `a` in memory and a changed device. -/
def holding (a : Nat) (l : List Nat) (f : Dev → Dev) : State := st fun d => f { d with mem := d.mem.puts a l }
def patchIs (r : Except Nat Patch) (p : Patch) : Bool := match r with | .ok q => q == p | .error _ => false
def patchErr (r : Except Nat Patch) (c : Nat) : Bool := match r with | .error k => k == c | .ok _ => false
def patch0 : Patch := ⟨9, 77, 1, 2, [0x80000005], [0x2003], []⟩
/-- The patch, being verified by Keel. -/
def patching : State := serving .patchLoad fun d => { d with mem := d.mem.puts 0x80002000 patchBytes, keel := { d.keel with load := some (0x80002000, 176) } }
/-- In BOATHOUSE of a FIELD device the patch is staged. -/
def stagedPatch (l : List (Field × Nat)) (f : Keel → Keel) : State := st fun d =>
  { setAll ([(PWR_MODE_CUR, 5), (PWR_MODE_TARGET, 5), (TRUST_STATUS_LC, 3), (KEEL_STATUS_STAGE, 2)] ++ l) d with keel := f { d.keel with staged := some patch0 } }
def keelIs (l : List (Field × Nat)) (k : Keel) : Dev := { setAll l State.reset.dev with keel := k }

theorem witness_RigImagesLoadAndClear_image :
    (match (holding 0x90000000 imageBytes fun d => d.set MEM_DRAM_CAP_CAP_MIB 2048).dev.rigCheck (1 : Fin 2) 0x90000000 380 true with
      | .ok im => im.imgVer == 6 && im.arbSeq == 5 && im.dram == [(0x80001000, 0xCAFE)]
      | .error _ => false) = true := by decide +kernel

theorem witness_KeelPatchesWatchdogAndCounters :
    (∀ v : Fin 4, (busFirst (rst [(KEEL_STATUS_STAGE, v)]).dev).get KEEL_STATUS_STAGE = v) ∧ State.reset.dev.hostsRun = true ∧
    (let b := busFirst (stagedPatch [] id).dev; b.mode = 5 ∧ b.lc = 3 ∧ b.keel.staged = some patch0 ∧ b.keel.cur = none ∧ b.keel.installing = none) ∧
    (busFirst (stagedPatch [] fun k => { k with cur := some { svc := .trust } }).dev).keel.cur ≠ none ∧ (busFirst State.reset.dev).mode ≠ 5 ∧
    State.reset.dev.keelAsked .patchLoad = false ∧ State.reset.dev.clock.phase ≠ .held ∧
    endsNow patching .patchLoad = true ∧ patching.dev.keel.load = some (0x80002000, 176) ∧
    (let d := patching.dev; d.dramMapped 0x80002000 = true ∧ d.dramMapped (0x80002000 + 63) = true ∧ d.dramMapped (0x80002000 + 176 - 1) = true) ∧
    patchIs (patching.dev.patchCheck 0x80002000 176 true false) patch0 = true ∧ patchErr (patching.dev.patchCheck 0x80002000 176 false false) 7 = true ∧
    (stagedPatch [] fun k => { k with installing := some patch0 }).dev.keel.installing = some patch0 ∧ patch0.hits ≠ [] ∧
    (rst [(KEEL_MATCH_EN 3, 1)]).dev.on (KEEL_MATCH_EN 3) = true ∧ (rst [(KEEL_MATCH_EN 3, 1)]).dev.keel.frames.length < 8 ∧
    State.reset.dev.tclkRuns = true ∧ State.reset.dev.keel.frames.length < 8 ∧ State.reset.dev.keel.install = false := by
  and_intros <;> decide +kernel

/-- A signature verification in progress, and a carrier change that waits. -/
def twoServices : Dev := keelIs [] { cur := some { svc := .patchLoad }, queue := [{ svc := .carrierChange }] }
def resuming : Dev := keelIs [] { frames := [{ svc := .carrierChange }], queue := [{ svc := .patchLoad }] }
/-- Match registers 3 and 9 hold ROM address 0x1234; patch word 7 names nano address 2304. -/
def matching : Dev := keelIs ((List.flatten <| [3, 9].map fun i => [(KEEL_MATCH_EN i, 1), (KEEL_MATCH_ROM_ADDR i, 0x1234), (KEEL_MATCH_TARGET i, i + 4)]))
  { pram := [(7, 2304)], cur := some { svc := .patchLoad, upc := 0x1234 } }

theorem witness_KeelClassesPreemptAndMatch :
    svcClass KeelSvc.carrierChange < svcClass KeelSvc.patchLoad ∧ twoServices.keel.queue = { svc := .carrierChange } :: [] ∧
    twoServices.keel.cur = some { svc := .patchLoad } ∧ (twoServices.keel.queue.all fun r => svcClass r.svc ≤ svcClass .trust && r.at_ < t0) = true ∧
    resuming.keel.cur = none ∧ resuming.keel.frames = { svc := .carrierChange } :: [] ∧ svcClass KeelSvc.carrierChange ≤ svcClass KeelSvc.patchLoad ∧
    matching.on (KEEL_MATCH_EN 3) = true ∧ matching.get (KEEL_MATCH_ROM_ADDR 3) = 0x1234 ∧
    (∀ j, j < 3 → ¬ (matching.on (KEEL_MATCH_EN j) = true ∧ matching.get (KEEL_MATCH_ROM_ADDR j) = 0x1234)) ∧
    (∀ j, j < 64 → ¬ (matching.on (KEEL_MATCH_EN j) = true ∧ matching.get (KEEL_MATCH_ROM_ADDR j) = 0xffff)) ∧
    matching.keelIllegal 0x1234 = true ∧ matching.keel.frames.length < 8 ∧ matching.keel.install = false := by and_intros <;> decide +kernel

/-- Slot 1 of the self-test runs slice `k` of unit `u`. -/
def testing (u k : Nat) : State := st fun d => { d with bist := { d.bist with slot1 := { unit := u, slice := k, started := true } } }
/-- Every supply reads its nominal value. -/
def supplied : List (Field × Nat) := (List.range 16).map fun k => (MON_SUP_VALUE_MV k, if k < 8 then supNominal k else 1800)
def passDue : State := st fun d => { setAll [(BIST_CTRL_EN, 1), (TRUST_STATUS_LC, 2), (PWR_MODE_CUR, 1), (PWR_MODE_TARGET, 1)] d with bist := { d.bist with nextPass := t0 } }
def fullRunning : State := st fun d => { d with bist := { d.bist with full := true } }
def boathouse (l : List (Field × Nat)) : State := rst ((PWR_MODE_CUR, 5) :: (PWR_MODE_TARGET, 5) :: l ++ supplied)

theorem witness_SelfTestSlicesAndRuns :
    (∀ x, x ∈ [(326, 0), (304, 3), (304, 1023)] → let s := testing x.1 x.2; (s.dev.slotAt (1 : Fin 2)).started = true ∧ (s.dev.slotAt (1 : Fin 2)).unit < 327 ∧
      s.dev.bist.pass = false ∧ s.dev.tclkRuns = true) ∧ (State.reset.dev.slotAt (0 : Fin 2)).started = false ∧
    (passDue.dev.passAt = some t0 ∧ (let b := passTo t0 passDue.dev; b.due b.passAt = true)) ∧ State.reset.dev.passAt = none ∧
    fullRunning.dev.bist.full = true ∧ (State.reset.dev.bist.full = false ∧ State.reset.dev.bist.reapply = false) ∧
    (let b := busFirst (boathouse []).dev; b.mode = 5 ∧ b.precond = true ∧ b.bist.full = false ∧ b.bist.reapply = false) ∧
    (busFirst State.reset.dev).mode ≠ 5 ∧ (busFirst State.reset.dev).lc = 0 ∧ (∀ v, v ∈ [4, 5] → (busFirst (rst [(TRUST_STATUS_LC, v)]).dev).lc = v) := by
  and_intros <;> decide +kernel

/-- Channel 15 of the DMA engine in state `v`, its descriptor at 0x1D00040 in bank 10. -/
def chan (v : Nat) (l : List (Field × Nat)) (f : Dma → Dma) : State := st fun d =>
  let d := setAll ([(PWR_MODE_CUR, 3), (PWR_MODE_TARGET, 3), (DMA_STATUS_STATE 15, v), (DMA_CUR_ADDR 15, 0x1D00040), (MEM_DRAM_CAP_CAP_MIB, 2048)] ++ l) d
  d.putDma 15 (f (d.dmaAt 15))
/-- The words of a descriptor of `n` bytes within DRAM, with control word `ctrl`, in memory. -/
def described (v ctrl : Nat) (l : List (Field × Nat)) : State :=
  st fun _ => { (chan v l id).dev with mem := (chan v l id).dev.mem.puts 0x1D00040 ((leBytes 0x80000100 4) ++ leBytes 0x80000203 4 ++ leBytes 10 4 ++ leBytes ctrl 4) }
def desc10 (next : Nat) : DmaDesc := ⟨0x80000100, 0x80000203, 10, 0, next⟩
/-- A burst of the first `k` bytes of the descriptor, `left` of its requests open. -/
def bursting (k left : Nat) : State := chan 3 [] fun q => { q with desc := some (desc10 0), burst := some { n := k, parts := [], left := left } }
/-- The channel asks for a burst of 10 bytes of bank 10. -/
def bankDesc : DmaDesc := ⟨0x1D00100, 0x80000203, 10, 0, 0⟩
def winner : State := st fun _ => dmaEval (chan 3 [] fun q => { q with desc := some bankDesc }).dev
/-- It has been started, the winner's burst has been issued, its last write has been made, and check unit 3 has been sent to scan. -/
def fetching : State := st fun _ => dmaStart 15 ((described 0 0 []).dev.set (DMA_DESC_ADDR 15) 0x1D00040)
def reading : State := st fun _ => burst winner.dev
def ending : State := st fun _ => dmaPerform 0 (dmaReqOf 15 (.data 0) true 0x80000203 10 5) (bursting 10 1).dev
def scanning : State := st fun d => chkGo 3 (setAll [(PWR_MODE_CUR, 3), (PWR_MODE_TARGET, 3), (MEM_DRAM_CAP_CAP_MIB, 2048), (CHK_SCAN_ADDR_ADDR 3, 0x1D00101), (CHK_SCAN_LEN_LEN 3, 8)] d)
def brings (n : Nat) (p : Dev → Bool) (s : State) : Bool := (passUntil p n s.dev).isSome

theorem witness_DmaChannelsStartStopAndAdvance :
    (∀ v : Fin 5, (busFirst (chan v [] id).dev).get (DMA_STATUS_STATE (15 : Fin 16)) = v) ∧ (busFirst (chan 0 [] id).dev).mode ≠ 0 ∧
    (busFirst (chan 0 [(PWR_MODE_CUR, 0), (PWR_MODE_TARGET, 0)] id).dev).mode = 0 ∧ (chan 0 [] id).dev.hostsRun = true ∧
    ((busFirst (bursting 10 0).dev).dmaAt (15 : Fin 16)).burst.isSome = true ∧
    (let q := (busFirst winner.dev).dmaAt (15 : Fin 16); q.burst = none ∧ q.desc.isSome = true ∧ q.units = []) ∧
    (chan 0 [] id).dev.dmaWinner = none ∧
    (let s := winner; s.dev.hostsRun = true ∧ s.dev.dmaWinner = some (15 : Fin 16).val ∧ (s.dev.dmaAt (15 : Fin 16)).desc = some bankDesc ∧ bankDesc.xfer = 0 ∧
      s.dev.takesEvent (15 : Fin 16) bankDesc (s.dev.dmaAt (15 : Fin 16)) = false) ∧
    fetching.dev.get (DMA_STATUS_STATE (15 : Fin 16)) = 1 ∧ brings 512 (fun d => d.get (DMA_STATUS_STATE (15 : Fin 16)) != 1) fetching = true ∧
    reading.dev.burstRead (15 : Fin 16) = false ∧ brings 512 (fun d => d.burstRead (15 : Fin 16)) reading = true ∧
    ending.dev.get (DMA_STATUS_STATE (15 : Fin 16)) = 4 ∧ brings 512 (fun d => d.get (DMA_STATUS_STATE (15 : Fin 16)) != 4) ending = true ∧
    scanning.dev.scanAt (3 : Fin 4) = ⟨0x1D00101, 8, none⟩ ∧ scanning.dev.chk = awrite {} (3 : Fin 4).val ⟨0x1D00101, 8, none⟩ scanning.dev.chk ∧
    brings (512 + (2 * 8 + 4096)) (fun d => (d.scanAt (3 : Fin 4)).left == 0) scanning = true ∧
    (chan 0 [] id).dev.burstRead (15 : Fin 16) = true ∧ ((chan 0 [] fun q => { q with stale := [0, 1] }).dev.dmaAt (15 : Fin 16)).stale = 0 :: [1] ∧
    (chan 0 [(DMA_STATUS_GEN 15, 15)] id).dev.get (DMA_STATUS_GEN (15 : Fin 16)) ≠ 0 ∧ (State.reset.dev.scanAt (3 : Fin 4)).left = 0 := by
  and_intros <;> decide +kernel

theorem witness_DmaRequestsActAtTheirTargets :
    (let d := (described 1 0 []).dev; d.get (DMA_STATUS_STATE (15 : Fin 16)) = 1 ∧ BanksFree d ∧ 0x1D00040 % 2 = 0 ∧
      d.descCheck (15 : Fin 16) (descIn d 0x1D00040) = 0 ∧ (descIn d 0x1D00040).chkOp = 0) ∧
    (let d := (described 1 16 [(CHK_STATUS_BUSY 0, 1)]).dev; let x := descIn d 0x1D00040; d.descCheck (15 : Fin 16) x = 0 ∧ x.chkOp ≠ 0 ∧
      d.on (CHK_STATUS_BUSY x.unit) = true ∧ x.unit ∉ (d.dmaAt (15 : Fin 16)).units) ∧
    (let d := (described 1 (3 * 4096) []).dev; d.descCheck (15 : Fin 16) (descIn d 0x1D00040) ≠ 0) ∧
    (∀ k, k ∈ [0, 1, 2] → let d := (bursting 10 k).dev; let q := d.dmaAt (15 : Fin 16); q.desc = some (desc10 0) ∧
      q.burst = some { n := 10, parts := [], left := k } ∧ (desc10 0).xfer = 0 ∧ (desc10 0).srcMode = 0 ∧ (desc10 0).dstMode = 0 ∧
      InDram d ((desc10 0).src + 0) 10 ∧ InDram d ((desc10 0).dst + 0) 10 ∧ d.memc.bad = [] ∧ (desc10 0).chkOp = 0 ∧ q.stop = false ∧
      d.get (DMA_DONE_BYTES_BYTES (15 : Fin 16)) + 10 = (desc10 0).len) ∧
    (let d := (bursting 6 1).dev; d.get (DMA_DONE_BYTES_BYTES (15 : Fin 16)) + 6 < (desc10 0).len) ∧
    (let w := 0x1D00040 * 2 ^ 64; bits w 64 32 % 2 = 0 ∧ BanksFree State.reset.dev ∧ bits w 60 3 < 3) ∧
    (∀ n, n ∈ [0, 0x1D00080] → let d := (chan 4 [(DMA_DONE_BYTES_BYTES 15, 10)] fun q => { q with desc := some (desc10 n) }).dev; d.get (DMA_STATUS_STATE (15 : Fin 16)) = 4 ∧
      (d.dmaAt (15 : Fin 16)).desc = some (desc10 n) ∧ (d.dmaAt (15 : Fin 16)).units = [] ∧ d.memc.bad = []) := by
  unfold BanksFree InDram; and_intros <;> decide +kernel

def scanOf (a len : Nat) : State := m3 [(CHK_SCAN_ADDR_ADDR 3, a), (CHK_SCAN_LEN_LEN 3, len), (MEM_DRAM_CAP_CAP_MIB, 2048)]

theorem witness_CheckUnitsInitAndScan :
    State.reset.dev.hostsRun = true ∧ (busFirst (rst [(CHK_STATUS_BUSY 3, 1)]).dev).on (CHK_STATUS_BUSY (3 : Fin 4)) = true ∧
    (∀ k : Fin 4, (busFirst (rst [(CHK_CFG_CODE 3, k)]).dev).get (CHK_CFG_CODE (3 : Fin 4)) = k) ∧
    (busFirst State.reset.dev).on (CHK_STATUS_BUSY (3 : Fin 4)) = false ∧
    (∀ n, n ∈ [0, 8] → let b := busFirst (scanOf 0x80000000 n).dev; b.mode ≠ 0 ∧ b.get (CHK_SCAN_LEN_LEN (3 : Fin 4)) = n ∧
      b.endOk false 0 (b.get (CHK_SCAN_ADDR_ADDR (3 : Fin 4))) (b.get (CHK_SCAN_LEN_LEN (3 : Fin 4))) = true) ∧
    (let b := busFirst (scanOf 0xfffffffc 8).dev; b.endOk false 0 (b.get (CHK_SCAN_ADDR_ADDR (3 : Fin 4))) (b.get (CHK_SCAN_LEN_LEN (3 : Fin 4))) = false) ∧
    (busFirst (rst [(PWR_MODE_CUR, 0), (PWR_MODE_TARGET, 0)]).dev).mode = 0 ∧
    (let d := ((scanOf 0 0).dev.set (CHK_STATUS_BUSY 3) 1).putScan 3 ⟨0x80000000, 8, none⟩;
      d.scanAt (3 : Fin 4) = ⟨0x80000000, 8, none⟩ ∧ (∀ x, x ∈ List.range' 0x80000000 8 → d.dramMapped x = true) ∧
      (∀ c, c < 16 → d.get (DMA_STATUS_STATE c) ≠ 2) ∧ d.memc.bad = []) := by and_intros <;> decide +kernel

/-- The PCIe link is up. -/
def linked (f : Dev → Dev) : State := st fun d => f (d.set HOST_PCIE_STAT_LINK_UP 1)
def perstIs (b : Bool) (l : List (Field × Nat)) : State := st fun d => let d := setAll l d; { d with pwr := { d.pwr with perstLow := b } }
def dramOn : State := rst [(MEM_DRAM_CAP_CAP_MIB, 2048), (HOST_I2C_CFG_PEC_EN, 1)]

theorem witness_HostInterfacesAndPcieLink :
    State.reset.dev.hostsRun = true ∧ (rst [(HOST_PCIE_STAT_LINK_UP, 0)]).dev.on HOST_PCIE_STAT_LINK_UP = false ∧
    (linked id).dev.on HOST_PCIE_STAT_LINK_UP = true ∧ FabricIdle (linked id) ∧ (0xfffffffc : BitVec 32).toNat % 4 = 0 ∧ [1, 2, 3, 4].length = 4 ∧
    (linked fun d => { d with host := { d.host with cpl := [⟨7, 5, 4, false⟩] } }).dev.host.cpl = ⟨7, 5, 4, false⟩ :: [] ∧
    (linked id).dev.on HOST_I2C_CFG_PEC_EN = false ∧
    (let d := dramOn.dev; d.on HOST_I2C_CFG_PEC_EN = true ∧ (some (BitVec.ofNat 8 (d.pecWrite 0x41004 5)) |>.map fun x : BitVec 8 => x.toNat) = some (d.pecWrite 0x41004 5) ∧
      ((some 0 : Option (BitVec 8)).map fun x => x.toNat) ≠ some (d.pecWrite 0x41004 5) ∧ d.memc.bad = [] ∧ d.dramMapped 0x80000000 = true) ∧
    (busFirst (rst [(HOST_QSPI_STAT_BUSY, 1)]).dev).on HOST_QSPI_STAT_BUSY = true ∧ (busFirst State.reset.dev).on HOST_QSPI_STAT_BUSY = false ∧
    (let s := rst [(HOST_QSPI_STAT_BUSY, 1), (HOST_QSPI_CMD_LEN, 256)]; s.dev.on HOST_QSPI_STAT_BUSY = true ∧ s.dev.on HOST_QSPI_CMD_DIR = false ∧
      s.dev.get HOST_QSPI_CMD_LEN ≤ 256) ∧ (rst [(HOST_QSPI_CMD_DIR, 1)]).dev.on HOST_QSPI_CMD_DIR = true ∧
    State.reset.dev.clock.phase ≠ .held ∧ State.reset.dev.tclkRuns = true ∧
    ((opened 7 []).dev.bound .pcie = some (7 : Fin 8).val ∧ (opened 7 []).dev.get (TXN_CTX_STATUS_STATE (7 : Fin 8)) = 1) ∧
    (let s := m3 []; s.dev.pwr.perstLow = false ∧ s.dev.mode ≠ 0 ∧ s.dev.on HOST_PCIE_STAT_LINK_UP = false) ∧
    (perstIs true []).dev.pwr.perstLow = true ∧ (rst [(HOST_MSIX_VCTRL_MASK 31, 0)]).dev.on (HOST_MSIX_VCTRL_MASK 31) = false := by
  unfold FabricIdle; and_intros <;> decide +kernel
/-- A token for operation `op` with the body `b` lies in bank 10 as the argument; its signature entry is 96 bytes of 0. -/
def tokened (lc op : Nat) (b : List Nat) (l : List (Field × Nat)) : State :=
  let bytes := leBytes 0x534B544B 4 ++ leBytes op 2 ++ [0, 0] ++ leBytes State.reset.dev.fused.serial 8 ++ leBytes 9 4 ++ leBytes 0 6 ++
    leBytes b.length 2 ++ b ++ List.replicate (padded b.length - b.length) 0 ++ leBytes 0 2 ++ leBytes 96 2 ++ List.replicate 96 0
  holding 0x1D00000 bytes (setAll ([(TRUST_STATUS_LC, lc), (TRUST_KEYSLOT_STATE 0, 1), (TRUST_KEYSLOT_ALGS 0, 1), (TRUST_ARG_LEN_LEN, bytes.length)] ++ l))
/-- The same for a body of 4 bytes `k` and an owner record of 2,052 bytes, written piece by piece: memory lists no byte of 0. -/
def addingKey (k : Nat) : State := st fun d =>
  let d := setAll [(TRUST_STATUS_LC, 1), (TRUST_KEYSLOT_STATE 0, 1), (TRUST_KEYSLOT_ALGS 0, 1), (TRUST_ARG_LEN_LEN, 2184)] d
  { d with mem := ((d.mem.puts 0x1D00000 (leBytes 0x534B544B 4 ++ leBytes 4 2 ++ [0, 0] ++ leBytes d.fused.serial 8 ++ leBytes 9 4 ++ leBytes 0 6 ++
      leBytes 2056 2 ++ [k])).puts 0x1D00020 [3]).puts 0x1D00826 [96] }
def revoking (k : Nat) : State := tokened 1 5 [k, 0, 0, 0] []
def settingKeys : State := tokened 1 9 (List.replicate 108 0 ++ leBytes 36 4 ++ List.replicate 52 0) []
/-- The trust core performs command `o`. -/
def commanded (o : Nat) (l : List (Field × Nat)) : State := st fun d => { setAll ((TRUST_STATUS_BUSY, 1) :: l) d with trust := { d.trust with cmd := some (o, 5, 5) } }

theorem witness_TokensActOnceChecked_short :
    (∀ x, x ∈ [(1, 1), (2, 2), (2, 3), (1, 8), (1, 10), (1, 11)] → let s := tokened x.1 x.2 [] []; TokenPasses s x.2 true ∧ bodyLen (busFirst s.dev) = 0) ∧
    (∀ k, k ∈ [0, 3] → let b := busFirst (revoking k).dev; TokenPasses (revoking k) 5 true ∧ bodyLen b = 4 ∧ b.mem.read (bodyAt b) 4 = k ∧
      b.otherActive k = (k == 3)) ∧
    (let s := tokened 1 6 [15, 0, 0, 0] []; TokenPasses s 6 true ∧ bodyLen (busFirst s.dev) = 4) ∧
    (let s := tokened 1 7 (List.replicate 24 255) []; TokenPasses s 7 true ∧ bodyLen (busFirst s.dev) = 24) ∧
    (let b := busFirst settingKeys.dev; TokenPasses settingKeys 9 true ∧ bodyLen b = 164 ∧ b.mem.read (bodyAt b + 108) 4 = 36) ∧
    (([1, 0, 0, 0] ++ List.replicate 32 9).length = 36 ∧ ([1, 0, 0, 0] ++ List.replicate 32 9).take 4 = [1, 0, 0, 0]) := by
  unfold TokenPasses TrustIdle; and_intros <;> decide +kernel

theorem witness_TokensActOnceChecked_record :
    let s := addingKey 3; let b := busFirst s.dev
    (TokenPasses s 4 true ∧ bodyLen b = 2056 ∧ b.mem.read (bodyAt b) 4 = (3 : Fin 4).val) ∧
    recordOk (b.mem.bytes (bodyAt b + 4) 2052) = true ∧ b.get (TRUST_KEYSLOT_STATE (3 : Fin 4)) ≠ 1 := by
  unfold TokenPasses TrustIdle; and_intros <;> decide +kernel

theorem witness_TokensActOnceChecked_refused :
    (let s := tokened 5 1 [] []; let b := busFirst s.dev; TrustIdle s ∧ b.mem.read (argAt b + 4) 2 = 1 ∧ (b.tokenCheck (argAt b) (argLen b) true).isSome = true) ∧
    (let s := commanded 3 []; s.dev.hostsRun = true ∧ (busFirst s.dev).trust.cmd = some (3, 5, 5) ∧ 3 ≠ 2 ∧ (busFirst s.dev).on TRUST_STATUS_BUSY = true) := by
  unfold TrustIdle; and_intros <;> decide +kernel

def provisioning : State := st fun d => { setAll [(TRUST_ARG_LEN_LEN, 2052)] d with mem := d.mem.puts 0x1D00000 [3] }
def argOf (len lc : Nat) : State := holding 0x1D00000 [15, 1, 2] (setAll [(TRUST_ARG_LEN_LEN, len), (TRUST_STATUS_LC, lc), (TRUST_TAMP_STAT_LATCH, 63)])
def tampered (r : Nat) : State := m3 [(TRUST_TAMP_CFG_EN 5, 1), (TRUST_TAMP_CFG_RESPONSE 5, r), (TRUST_KEYINFO_CREW_KEY, 1)]

theorem witness_TrustCommandsAndTamper :
    (let b := busFirst provisioning.dev; TrustIdle provisioning ∧ b.lc = 0 ∧ inBank10 (argAt b) 2052 = true ∧ argLen b = 2052 ∧
      recordOk (b.mem.bytes (argAt b) 2052) = true) ∧
    (let b := busFirst (argOf 32 0).dev; TrustIdle (argOf 32 0) ∧ b.lc ≠ 5 ∧ inBank10 (argAt b) 3576 = true ∧ argLen b = 32) ∧
    (let b := busFirst (argOf 4 1).dev; TrustIdle (argOf 4 1) ∧ b.lc = 1 ∧ b.lc ≤ 1 ∧ inBank10 (argAt b) 4 = true ∧ argLen b = 4) ∧
    (let b := busFirst (argOf 32 5).dev; TrustIdle (argOf 32 5) ∧ b.lc ≠ 0 ∧ b.lc ≠ 1 ∧ 1 < b.lc ∧ b.lc = 5 ∧
      inBank10 (argAt b) (argLen b) = true ∧ inBank10 (argAt b) (argLen b + 3544) = true) ∧
    (let s := commanded 5 []; s.dev.hostsRun = true ∧ (busFirst s.dev).trust.cmd = some (5, 5, 5) ∧ (busFirst s.dev).lc ≤ 1) ∧
    State.reset.dev.clock.phase ≠ .held ∧ State.reset.dev.on (TRUST_TAMP_CFG_EN (5 : Fin 6)) = false ∧
    (∀ r : Fin 3, (tampered r).dev.on (TRUST_TAMP_CFG_EN (5 : Fin 6)) = true ∧ (tampered r).dev.get (TRUST_TAMP_CFG_RESPONSE (5 : Fin 6)) = r) := by
  unfold TrustIdle; and_intros <;> decide +kernel

theorem witness_ResetsAndTheTap :
    State.reset.dev.hostsRun = true ∧ State.reset.dev.clock.phase ≠ .held ∧ Master.pcie.hostIdx.isSome = true ∧ Master.hostIdx (.ce 3) = none ∧
    (rst [(SYS_RST_STATUS_WARM_BUSY, 1)]).dev.on SYS_RST_STATUS_WARM_BUSY = true ∧ (inPhase .moored).dev.tclkRuns = false ∧
    State.reset.dev.on SYS_RST_STATUS_WARM_BUSY = false := by and_intros <;> decide +kernel
/-- In phase `p` with register fields `l`. -/
def phased (p : Phase) (l : List (Field × Nat)) : State := st fun d => let d := setAll l d; { d with clock := { d.clock with phase := p } }
def perstWake : State := st fun _ => let d := (phased .moored [(PWR_WAKE_CFG_PERST_EN, 1)]).dev; { d with pwr := { d.pwr with perstAt := some t0 } }
def early : State := st fun _ => let d := (phased .moored []).dev; { d with pwr := { d.pwr with early := some (1, 77) } }
def timerWake : State := phased .moored [(PWR_WAKE_CFG_TIMER_EN, 1), (PWR_WAKE_AT_LO_SEC_LO, 1)]
def pinWake (p : Phase) : State := phased p [(PWR_WAKE_CFG_GTIO1_EN, 1), (PWR_WAKE_CFG_PERST_EN, 0)]
def converting : State := st fun _ => let d := (m3 []).dev; { d with mon := { d.mon with conv := some ⟨15, t0 - 1000, true, 4294967300⟩ } }

theorem witness_MooredWakesAndMonitors :
    (phased .windDown []).dev.clock.phase = .windDown ∧ (phased .moored []).dev.clock.phase = .moored ∧ State.reset.dev.clock.phase = .run ∧
    ((rst [(MEM_CTRL_MOORED_SR, 1)]).dev.on MEM_CTRL_MOORED_SR = true ∧ (rst [(MEM_CTRL_MOORED_SR, 0)]).dev.on MEM_CTRL_MOORED_SR = false) ∧
    (oscIs 3 { model := some {} } State.reset.dev |>.oscAt 3).model = some {} ∧
    (State.reset.dev.pwr.early = none ∧ State.reset.dev.wakeNow = none) ∧
    (perstWake.dev.pwr.hotHold = false ∧ perstWake.dev.pwr.early = none ∧ perstWake.dev.wakeNow = some (3, 0)) ∧ early.dev.pwr.early = some (1, 77) ∧
    (let d := timerWake.dev; d.on PWR_WAKE_CFG_TIMER_EN = true ∧ (d.get PWR_WAKE_AT_LO_SEC_LO + 2 ^ 32 * d.get PWR_WAKE_AT_HI_SEC_HI) * 1000000000 ≤ d.clock.now ∧
      d.pwr.early = none ∧ ∀ n, n ∈ d.pendList → mooredSrc n = false) ∧
    (∀ p, p ∈ [Phase.run, .moored] → let d := (pinWake p).dev; d.clock.phase = p ∧ d.on PWR_WAKE_CFG_GTIO1_EN = true ∧ d.pwr.early = none ∧
      d.on PWR_WAKE_CFG_TIMER_EN = false ∧ d.on PWR_WAKE_CFG_PERST_EN = false ∧ ∀ n, n ∈ d.pendList → mooredSrc n = false) ∧
    (rst [(PWR_WAKE_CFG_GTIO1_EN, 0)]).dev.on PWR_WAKE_CFG_GTIO1_EN = false ∧
    (∀ t, t ∈ [(-32768 : Int), -2048, 110 * 16, 115 * 16, 117 * 16, 122 * 16, 2080, 32767] → -32768 ≤ t ∧ t < 32768) ∧
    (List.replicate 16 9000)[15]? = some 9000 ∧ State.reset.dev.supMeasured 15 = true ∧ State.reset.dev.adcEndAt = none ∧
    (converting.dev.tclkRuns = true ∧ converting.dev.adcEndAt = some t0 ∧ (let b := passTo t0 converting.dev; b.due b.adcEndAt = true ∧ b.mode ≠ 0 ∧
      b.mon.conv = some ⟨15, t0 - 1000, true, 4294967300⟩)) := by
  and_intros <;> decide +kernel

theorem witness_IdentIgnoresWrites : State.reset.dev.hostsRun = true := by decide

/-- A step from reset answers a next state; that the invariant holds at reset is a statement of its own. -/
theorem witness_InvariantKeptByEveryStep : ∃ t, step { State.reset with pending := [.eoi 0] } = .next t := ⟨_, rfl⟩
/-! ### Terms that cannot arrive -/

def badHdr : Hdr := ⟨4, 0, 0, 0, 0, true⟩
def goodTiming : TimingMsg := ⟨0, 0, 0, 0, 0, false, false, 0, 0, 0, 0, 0, 0⟩
def goodDir : BootDir := ⟨false, 0, 0, 0, none, none, none⟩
def goodBoot : BootIn := ⟨0, false, some goodDir, true, true, true, true, true, 0⟩

theorem test_refuses_masters : wellFormed (.txnBegin (.ce 8)) = false ∧ wellFormed (.txnBegin (.ce 7)) = true := by decide
theorem test_refuses_instants :
    wellFormed (.cntIndex 0 (2 ^ 48 * 1000000000)) = false ∧ wellFormed (.cntIndex 0 (2 ^ 48 * 1000000000 - 1)) = true ∧
    wellFormed (.trkEdge 0 (2 ^ 48 * 1000000000 * 65536) ⟨false, 0⟩) = false ∧ wellFormed (.trkEdge 0 (2 ^ 48 * 1000000000 * 65536 - 1) ⟨false, 0⟩) = true := by decide
theorem test_refuses_bytes :
    wellFormed (.qspiDone [256]) = false ∧ wellFormed (.hostFrameRx 0 [256]) = false ∧ wellFormed (.keys true (some [256])) = false ∧
    wellFormed (.trustCmdComplete true (some [256])) = false ∧ wellFormed (.qspiDone [0, 255]) = true := by decide
theorem test_refuses_frames :
    wellFormed (.frameOfOtherType badHdr) = false ∧ wellFormed (.frameOfOtherType { badHdr with port := 3, dst := 65536 }) = false ∧
    wellFormed (.frameOfOtherType { badHdr with port := 3, src := 65536 }) = false ∧
    wellFormed (.frameOfOtherType { badHdr with port := 3, seq := 65536 }) = false ∧
    wellFormed (.frameOfOtherType { badHdr with port := 3, fcnt := 2 ^ 64 }) = false ∧
    wellFormed (.frameOfOtherType { badHdr with port := 3 }) = true := by decide
theorem test_refuses_timing :
    wellFormed (.timing (hdr3 0) goodTiming) = true ∧ wellFormed (.timing (hdr3 0) { goodTiming with arrive := 2 ^ 48 * 1000000000 * 65536 }) = false ∧
    wellFormed (.timing (hdr3 0) { goodTiming with stamp := 2 ^ 48 * 1000000000 * 65536 }) = false ∧
    wellFormed (.timing (hdr3 0) { goodTiming with serial := 2 ^ 64 }) = false ∧ wellFormed (.timing (hdr3 0) { goodTiming with prio := 256 }) = false ∧
    wellFormed (.timing (hdr3 0) { goodTiming with hops := 256 }) = false ∧ wellFormed (.timing (hdr3 0) { goodTiming with tbState := 8 }) = false ∧
    wellFormed (.timing (hdr3 0) { goodTiming with bound := 2 ^ 32 }) = false ∧
    wellFormed (.timing (hdr3 0) { goodTiming with strokeNo := 2 ^ 32 }) = false := by decide
theorem test_refuses_roll_calls :
    wellFormed (.rollReply (hdr3 0) ⟨0, 0, 1, 2, 16, 0, 0⟩) = true ∧ wellFormed (.rollReply (hdr3 0) ⟨2 ^ 64, 0, 1, 2, 16, 0, 0⟩) = false ∧
    wellFormed (.rollReply (hdr3 0) ⟨0, 0, 3, 2, 16, 0, 0⟩) = false ∧ wellFormed (.rollReply (hdr3 0) ⟨0, 0, 1, 2, 17, 0, 0⟩) = false ∧
    wellFormed (.rollResult (hdr3 0) ⟨0, 0, 0, 0, some 1023⟩) = true ∧ wellFormed (.rollResult (hdr3 0) ⟨0, 0, 0, 0, some 1024⟩) = false ∧
    wellFormed (.rollResult (hdr3 0) ⟨0, 0, 2 ^ 1024, 0, none⟩) = false ∧ wellFormed (.rollResult (hdr3 0) ⟨0, 0, 0, 2 ^ 1024, none⟩) = false ∧
    wellFormed (.rollResult (hdr3 0) ⟨2 ^ 48 * 1000000000, 0, 0, 0, none⟩) = false ∧
    wellFormed (.rollPoll (hdr3 0) 0 0) = false ∧ wellFormed (.rollPoll (hdr3 0) 0 4) = false ∧ wellFormed (.rollPoll (hdr3 0) 0 3) = true := by decide +kernel
theorem test_refuses_stroke_data :
    wellFormed (.sdUp (hdr3 0) [(1024, [])]) = false ∧ wellFormed (.sdUp (hdr3 0) [(0, List.replicate 17 0)]) = false ∧
    wellFormed (.sdUp (hdr3 0) [(0, [2 ^ 32])]) = false ∧ wellFormed (.sdDown (hdr3 0) [] (2 ^ 1024)) = false ∧
    wellFormed (.sdUp (hdr3 0) [(1023, [2 ^ 32 - 1])]) = true ∧ wellFormed (.keyInit (hdr3 0) (2 ^ 256)) = false := by decide +kernel
theorem test_refuses_ptp :
    wellFormed (.ptpDelayReqRx ptp7) = true ∧ wellFormed (.ptpDelayReqRx { ptp7 with port := 4 }) = false ∧
    wellFormed (.ptpDelayReqRx { ptp7 with domain := 256 }) = false ∧ wellFormed (.ptpDelayReqRx { ptp7 with seq := 65536 }) = false ∧
    wellFormed (.ptpDelayReqRx { ptp7 with auth := some ⟨256, 0, true, true⟩ }) = false ∧ wellFormed (.ptpDelayReqRx { ptp7 with auth := some ⟨255, 2 ^ 32, true, true⟩ }) = false ∧
    wellFormed (.delayReqLaunch 0 (2 ^ 48 * 1000000000 * 65536)) = false ∧ wellFormed (.ptpDelayReqRx { ptp7 with mii := 2 ^ 48 * 1000000000 * 65536 }) = false ∧
    wellFormed (.ptpDelayReqRx { ptp7 with bytes := [256] }) = false ∧ wellFormed (.ptpAnnounceRx ptp7 (annOf 255)) = true ∧
    wellFormed (.ptpAnnounceRx ptp7 (annOf 256)) = false := by decide
theorem test_refuses_announces :
    ([{ annOf 6 with id := 2 ^ 64 }, { annOf 6 with portNo := 65536 }, { annOf 6 with prio1 := 256 }, { annOf 6 with accuracy := 256 },
      { annOf 6 with variance := 65536 }, { annOf 6 with prio2 := 256 }, { annOf 6 with gm := 2 ^ 64 },
      { annOf 6 with steps := 65536 }].all fun a => !wellFormed (.ptpAnnounceRx ptp7 a)) = true := by decide +kernel
theorem test_refuses_services_and_errors :
    wellFormed (.watchdog (.other 8) 0 0) = false ∧ wellFormed (.watchdog (.other 7) 0 9) = false ∧ wellFormed (.watchdog (.other 7) 0 8) = true ∧
    wellFormed (.scrub [(12, 1)]) = false ∧ wellFormed (.scrub [(11, 3)]) = false ∧ wellFormed (.scrub [(11, 2)]) = true ∧
    wellFormed (.fullRunDone [352]) = false ∧ wellFormed (.fullRunDone [351]) = true := by decide
theorem test_refuses_host_accesses :
    wellFormed (.pciePostedWrite 0 []) = false ∧ wellFormed (.pciePostedWrite 0 (List.replicate 257 0)) = false ∧
    wellFormed (.pciePostedWrite 0 (List.replicate 256 0)) = true ∧ wellFormed (.pcieReadRequest 0 0 0) = false ∧
    wellFormed (.pcieReadRequest 0 513 0) = false ∧ wellFormed (.pcieReadRequest 0 512 0) = true ∧ wellFormed (.spiRead 0 0 (2 ^ 256) 0) = false := by
  decide +kernel
theorem test_refuses_boots_and_samples :
    wellFormed (.powerOnReset goodBoot) = true ∧ wellFormed (.powerOnReset { goodBoot with strap := 4 }) = false ∧
    wellFormed (.powerOnReset { goodBoot with dir := some { goodDir with baseA := 2 ^ 32 } }) = false ∧
    wellFormed (.powerOnReset { goodBoot with dir := some { goodDir with imgB := some ([256], true) } }) = false ∧
    wellFormed (.powerOnReset { goodBoot with dir := some { goodDir with baseB := 2 ^ 32 } }) = false ∧
    wellFormed (.powerOnReset { goodBoot with dir := some { goodDir with imgA := some ([256], true) } }) = false ∧
    wellFormed (.wake 0 (some { goodDir with dramCfg := 2 ^ 32 })) = false ∧ wellFormed (.wake 0 none) = true ∧
    wellFormed (.tempSample [none]) = false ∧ wellFormed (.tempSample [none, none, none, none]) = true ∧
    wellFormed (.supplySample (List.replicate 17 0)) = false ∧ wellFormed (.supplySample (List.replicate 16 0)) = true := by decide

/-! ### No word spells a command -/

theorem test_no_word_spells_a_command :
    decodeTableWord 0 0 = none ∧ decodeTableWord 32 0xffffffff = none ∧ State.reset.withFetchWord 32 5 = State.reset := ⟨rfl, rfl, rfl⟩

/-! ### Results that the spec works out -/

def digits : List Nat := [0x31, 0x32, 0x33, 0x34, 0x35, 0x36, 0x37, 0x38, 0x39]
/-- Check values of "123456789", and the running value of code 2 (R264). -/
theorem test_crc_check_values :
    (List.range 4).map (fun c => crcRun c (crcInit c) digits ^^^ crcFinal c) = [0xCBF43926, 0xE3069283, 0x906E, 0xF4] ∧
    crcRun 2 0xFFFF digits = 0x6F91 := by decide +kernel
/-- The example of R15: stroke periods of 7,000, 9,000 and 500 ns are stored as 6,400, 8,000 and 1,000. -/
theorem test_stroke_period_clamps :
    [7000, 9000, 500].map (fun v => (State.reset.dev.setClamped SYS_STROKE_CFG_PERIOD_NS v).get SYS_STROKE_CFG_PERIOD_NS) = [6400, 8000, 1000] := by
  decide +kernel
/-- The example of R339: at P = 4,000 the first 55 members of one hop and full slots are admitted to stroke data, the 56th is not. -/
theorem test_stroke_data_admission :
    (admitSd 4000 ((List.range 57).map fun i => ⟨i, i, 1, 1, 16, 300, 1, false⟩)).map (fun m => m.sd) = List.replicate 55 true ++ [false, false] := by
  decide +kernel

/-- The encodings that R241 works out: MOVI x6, 0xFFFF, not last, and ADD x3, x4, x5 with flags, last of the bundle, both in ALU0 and always. -/
def coded : Dev := { State.reset.dev with mem := ((State.reset.dev.mem.write (imemAddr 2 0) 0x10E6FFFF 4).write (imemAddr 2 1) 0x9000642C 4) }
theorem test_syllable_words :
    (coded.bundle 2 8 0).map (fun s => (s.unit, s.c, s.op)) = [(1, 0, 0x39), (1, 0, 0)] ∧
    ((coded.syllable 2 1).1.d, (coded.syllable 2 1).1.a, (coded.syllable 2 1).1.b, (coded.syllable 2 1).1.f) = (3, 4, 5, 1) := by decide +kernel

/-- Sources 12, EDGE, and 963 are enabled for target 0 with PRIO 5 and pending, as in the example of R399. -/
def contended : State := rst [(IRQ_SRC_CFG_TARGET 12, 0), (IRQ_SRC_CFG_EN 12, 1), (IRQ_SRC_CFG_SENSE 12, 1), (IRQ_SRC_CFG_PRIO 12, 5),
  (IRQ_SRC_CFG_TARGET 963, 0), (IRQ_SRC_CFG_EN 963, 1), (IRQ_SRC_CFG_PRIO 963, 5), (IRQ_PEND_PEND 0, 4096), (IRQ_PEND_PEND 30, 8)]
theorem test_equal_priorities_go_by_number :
    contended.dev.candidate 0 = 12 ∧ (irqAck .pcie 0 contended.dev).lastRead .pcie = 12 + 1024 * 5 ∧
    (irqAck .pcie 0 contended.dev).candidate 0 = 1023 ∧ (irqEoi 0 (irqAck .pcie 0 contended.dev)).candidate 0 = 963 := by decide +kernel


end Sys2Proof.Tests
end

section
/-!
SUPPORT. Commands in the frame of `Completes` and `Does`, fields after an update, and commands that pass time.
-/
namespace Sys2Proof.Machine

/-! ### Completion -/

theorem completes_live {i : Instr} {s : State} {f : Dev → Dev} (hi : exec i s = s.run (live f)) (h : s.dev.tclkRuns = true) :
    Completes i s (f s.dev) := hi.trans (run_live s f h)

theorem completes_onBus {i : Instr} {s : State} {f : Dev → Dev} (hi : exec i s = s.run (onBus f)) (h : s.dev.hostsRun = true) :
    Completes i s (f (busFirst s.dev)) := hi.trans (run_onBus s f h)

/-- A command that completes does what its effect and the consequences of that show. -/
theorem Completes.does {i : Instr} {s : State} {d : Dev} {P : Dev → Prop} (h : Completes i s d) (hp : P (aftermath s.dev d)) : Does i s P :=
  ⟨_, h, rfl, hp⟩

theorem completes_give {i : Instr} {s : State} {m : Master} {f : Dev → Nat × Dev} (hi : exec i s = s.run (give m f))
    (h : s.dev.hostsRun = true) : Completes i s ((f s.dev).2.ret m ((f s.dev).1 % 2 ^ 32)) := hi.trans (run_give s m f h)

/-- A command has one effect, up to its consequences in the same TCLK. -/
theorem Completes.aftermath_eq {i : Instr} {s : State} {d e : Dev} (hd : Completes i s d) (he : Completes i s e) :
    aftermath s.dev d = aftermath s.dev e := by
  have h := hd.symm.trans he
  rw [Host.Outcome.next.injEq, State.mk.injEq] at h
  exact h.2

@[simp] theorem fresh_aftermath (b d : Dev) : (aftermath b d).fresh = d.fresh :=
  part_aftermath b d (fun x => x.fresh) (fun _ => rfl) fun _ _ => rfl

@[simp] theorem clock_aftermath (b d : Dev) : (aftermath b d).clock = d.clock := part_aftermath b d Dev.clock (fun _ => rfl) fun _ _ => rfl

/-! ### Fields after an update -/

theorem Dev.on_set_same (d : Dev) (f : Field) (v : Nat) : (d.set f v).on f = (v % 2 ^ f.w == 1) := by
  unfold Dev.on; rw [Dev.get_set_same]

theorem Dev.on_set_ne (d : Dev) (f g : Field) (v : Nat) (h : g.key ≠ f.key) : (d.set f v).on g = d.on g := by
  unfold Dev.on; rw [Dev.get_set_ne d f g v h]

@[simp] theorem Dev.get_cause (d : Dev) (f g : Field) : (d.cause f).get g = (d.set f 1).get g := rfl
@[simp] theorem Dev.on_cause (d : Dev) (f g : Field) : (d.cause f).on g = (d.set f 1).on g := rfl

theorem keeps_set (d : Dev) (f : Field) (v : Nat) : Keeps [f.key] d (d.set f v) := fun g hg =>
  Dev.get_set_ne d f g v fun e => hg (by simp [e])

theorem keeps_cause (d : Dev) (f : Field) : Keeps [f.key] d (d.cause f) := keeps_set d f 1

theorem Keeps.trans {k l : List Nat} {a b c : Dev} (h : Keeps k a b) (g : Keeps l b c) : Keeps (k ++ l) a c := fun f hf => by
  rw [List.mem_append, not_or] at hf
  exact (g f hf.2).trans (h f hf.1)

/-! ### Commands that pass time -/

/-- An event whose instant the state fixes takes place with the effect `f` when it is due there. -/
theorem takesPlace_onInstant {i : Instr} {s : State} {inst : Dev → Option Nat} {f : Dev → Dev}
    (hi : exec i s = s.run (live (onInstant inst f))) (h : s.dev.tclkRuns = true) {P : Dev → Dev → Prop}
    (hp : ∀ b, b.due (inst b) = true → P b (f b)) : TakesPlace i s inst P := by
  intro t ht hdue
  have he : onInstant inst f s.dev = f (passTo t s.dev) := by
    simp only [onInstant, ht, hdue, if_true]
  exact ⟨_, he ▸ completes_live hi h, hp _ hdue⟩

theorem completes_onInstant_none {i : Instr} {s : State} {inst : Dev → Option Nat} {f : Dev → Dev}
    (hi : exec i s = s.run (live (onInstant inst f))) (h : s.dev.tclkRuns = true) (hn : inst s.dev = none) : Completes i s s.dev := by
  have hc := completes_live hi h
  simp only [onInstant, hn] at hc
  exact hc

/-- The device that `passUntil` answers has the property. -/
theorem passUntil_holds {p : Dev → Bool} {fuel : Nat} {d e : Dev} (h : passUntil p fuel d = some e) : p e = true := by
  induction fuel generalizing d with
  | zero =>
    unfold passUntil at h
    split at h
    case isTrue hp => cases h; exact hp
    case isFalse => cases h
  | succ fuel ih =>
    unfold passUntil at h
    split at h
    case isTrue hp => cases h; exact hp
    case isFalse => exact ih h

end Sys2Proof.Machine
end

section
/-!
O60: a write to SYS.IDENT has no effect (R5).
-/
namespace Sys2Proof.Machine

theorem fieldsAt_ident : fieldsAt 0 = [SYS_IDENT_PART, SYS_IDENT_REV_MAJOR, SYS_IDENT_REV_MINOR, SYS_IDENT_VARIANT] := by
  rfl

theorem isReg_ident (d : Dev) : d.isReg 0 = true := by simp [Dev.isReg, fieldsAt_ident]

/-- The fields of SYS.IDENT are read-only: a write leaves them, and stages nothing. -/
theorem plainWrite_ident (m : Master) (v : Nat) (d : Dev) : plainWrite m 0 v d = d := by
  simp [plainWrite, immWrite, rwtMask, fieldsAt_ident, SYS_IDENT_PART, SYS_IDENT_REV_MAJOR, SYS_IDENT_REV_MINOR, SYS_IDENT_VARIANT, fld]

/-- No master is refused a write to SYS.IDENT (R220, R477), and no unit takes it. -/
theorem regWrite_ident (m : Master) (v : Nat) (d : Dev) : regWrite m 0 v d = d := by
  have hden : writeDenied m 0 = false := by cases m <;> simp [writeDenied]
  simp [regWrite, isReg_ident, hden, unitWrite, unitAction, plainWrite_ident]

/-- Settles O60: each field of SYS.IDENT is read-only and no unit acts on the write. -/
theorem identIgnoresWrites : Obligations.IdentIgnoresWrites := by
  unfold Obligations.IdentIgnoresWrites
  intro s m v h b
  have hw : Completes (.registerWrite m 0 v) s b := by
    have he : regWriteCmd m (0 : BitVec 32).toNat v.toNat b = b := by simp [regWriteCmd, isReg_ident, regWrite_ident]
    have hc := completes_onBus (i := .registerWrite m 0 v) rfl h
    rwa [he] at hc
  exact ⟨hw, hw.does ⟨get_aftermath _ _ _ (by decide), get_aftermath _ _ _ (by decide), get_aftermath _ _ _ (by decide),
    get_aftermath _ _ _ (by decide)⟩⟩

end Sys2Proof.Machine
end

section
/-!
O6: the read of COUNT_LO of a counter whose input is too fast has an effect beside the latch (R114).
-/
namespace Sys2Proof.Machine

@[simp] theorem Dev.cntOver_latchTo (d : Dev) (m : Master) (a v n : Nat) : (d.latchTo m a v).cntOver n = d.cntOver n := rfl

@[simp] theorem Dev.fresh_tick1 (d : Dev) : d.tick1.fresh = d.fresh + 1 := rfl

/-- The count of an input above 800 MHz is a free value, and the read takes it (R114, log entry 14). -/
theorem fresh_countLoRead_of_cntOver (m : Master) (n : Nat) (d : Dev) (h : d.cntOver n = true) :
    (countLoRead m n d).2.fresh = d.fresh + 1 := by
  simp [countLoRead, h]

/-- The device just after reset, with edges less than 1.25 ns apart at the input of counter 0. -/
def fastCounter : State := { State.reset with dev := { State.reset.dev with cnt := [(0, { fast := true })] } }

theorem fastCounter_hostsRun : fastCounter.dev.hostsRun = true := by decide

theorem fastCounter_cntOver : fastCounter.dev.cntOver 0 = true := rfl

/-- Refutes O6: COUNT_LO_READ of a counter whose input is above 800 MHz returns a free value (R114) and takes it, which is another effect
than the latch. -/
theorem not_readsLatchTheirHighWords : ¬ Obligations.ReadsLatchTheirHighWords := by
  unfold Obligations.ReadsLatchTheirHighWords
  intro h
  obtain ⟨-, hreads⟩ := h
  obtain ⟨-, hcount, -⟩ := hreads fastCounter .pcie fastCounter_hostsRun
  obtain ⟨hclaimed, -⟩ := hcount 0
  have hdone : Completes (.countLoRead .pcie 0) fastCounter _ := completes_give rfl fastCounter_hostsRun
  have hfresh := congrArg Dev.fresh (hclaimed.aftermath_eq hdone)
  rw [fresh_aftermath, fresh_aftermath, Dev.ret_fresh, Dev.ret_fresh] at hfresh
  have htaken : (countLoRead .pcie 0 fastCounter.dev).2.fresh = fastCounter.dev.fresh + 1 :=
    fresh_countLoRead_of_cntOver .pcie 0 fastCounter.dev fastCounter_cntOver
  have hkept : fastCounter.dev.fresh = (countLoRead .pcie 0 fastCounter.dev).2.fresh := hfresh
  omega

end Sys2Proof.Machine
end

section
/-!
O43: memory, the scrubber, write-backs, and the training and derating of DRAM (R6, R438 to R442).
-/
namespace Sys2Proof.Machine

/-! ### The scrubber -/

theorem scrubNext_off {d : Dev} (h : d.on MEM_CTRL_SCRUB_EN = false) : d.scrubNext = none := by simp [Dev.scrubNext, h]

theorem scrubEn_of_due {d : Dev} (h : d.due d.scrubNext = true) : d.on MEM_CTRL_SCRUB_EN = true := by
  cases he : d.on MEM_CTRL_SCRUB_EN with
  | true => rfl
  | false => rw [scrubNext_off he] at h; cases h

/-- R439: the scrubber moves to the next word and comes again INTERVAL later. -/
def scrubOn (i : Nat) (d : Dev) : Dev :=
  { d with memc := { d.memc with scrub := (i + 1) % 2 ^ 21, scrubAt := d.clock.now + d.get MEM_SCRUB_INTERVAL } }

/-- With no word that holds an error, the scrubber meets those that it is told of. -/
theorem scrub_clean (errs : List (Nat × Nat)) (d : Dev) (hen : d.on MEM_CTRL_SCRUB_EN = true) (hbad : d.memc.bad = []) :
    scrub errs d = scrubOn d.memc.scrub
      (errs.foldl (fun x e => if e.1 < 12 then sramErr e.2 (scrubWord e.1 d.memc.scrub) x else x) d) := by
  have hold : (List.range 12).foldl (fun (x : Dev) k =>
      if x.memc.bad.contains (scrubWord k d.memc.scrub) then sramErr 2 (scrubWord k d.memc.scrub) x else x) d = d := by
    generalize List.range 12 = l
    induction l with
    | nil => rfl
    | cons k r ih => simpa [hbad] using ih
  simp only [scrub, hen, hold, scrubOn]
  rfl

theorem scrub_correctable (k : Fin 12) (d : Dev) (hen : d.on MEM_CTRL_SCRUB_EN = true) (hbad : d.memc.bad = []) :
    scrub [(k, 1)] d = scrubOn d.memc.scrub (sramErr 1 (scrubWord k d.memc.scrub) d) := by
  rw [scrub_clean _ _ hen hbad]
  simp [k.isLt]

/-- R438: a correctable error is counted, sets its cause, and the corrected word waits for its write-back. -/
theorem sramErr_correctable (a : Nat) (d : Dev) :
    sramErr 1 a d = (({ d with memc := { d.memc with wb := d.memc.wb ++ [a] } } : Dev).inc MEM_SRAM_ECC_CE_CNT).cause MEM_IRQ_STAT_SRAM_CE := rfl

theorem on_sramErr_correctable (a : Nat) (d : Dev) : (sramErr 1 a d).on MEM_IRQ_STAT_SRAM_CE = true := by
  rw [sramErr_correctable, Dev.on_cause, Dev.on_set_same]; rfl

theorem ceCnt_sramErr_correctable (a : Nat) (d : Dev) :
    (sramErr 1 a d).get MEM_SRAM_ECC_CE_CNT = (d.inc MEM_SRAM_ECC_CE_CNT).get MEM_SRAM_ECC_CE_CNT := by
  rw [sramErr_correctable, Dev.get_cause, Dev.get_set_ne _ _ _ _ (by decide)]
  simp only [Dev.inc, Dev.get_set_same]
  rfl

/-! ### Write-backs -/

theorem eccWriteback_idle {k a : Nat} {r : List Nat} {d : Dev} (hw : d.wbOf k = a :: r) (hu : d.bankInUse k = false) :
    eccWriteback k d = { d with memc := { d.memc with wb := d.memc.wb.erase a } } := by
  simp [eccWriteback, hu, hw]

theorem eccWriteback_busy {k : Nat} {d : Dev} (hu : d.bankInUse k = true) : eccWriteback k d = d := by simp [eccWriteback, hu]

theorem writebackCmd_none {k : Nat} {d : Dev} (h : d.wbOf k = []) : writebackCmd k d = d := by simp [writebackCmd, h]

theorem writebackCmd_some {k : Nat} {d e : Dev} (h : d.wbOf k ≠ [])
    (hp : passUntil (fun e => decide ((e.wbOf k).length < (d.wbOf k).length)) 512 d = some e) : writebackCmd k d = e := by
  have hne : (d.wbOf k).isEmpty = false := by simpa using h
  simp only [writebackCmd, hne, awaiting, id, Nat.add_zero, hp]
  rfl

/-! ### DRAM training and derating -/

theorem dramTrain_boathouse {d : Dev} (h : d.mode = 5) : (dramTrain d).memc.training = true ∧
    (dramTrain d).on MEM_DRAM_STAT_TRAINED = false ∧ Keeps [MEM_DRAM_STAT_TRAINED.key] d (dramTrain d) := by
  rw [dramTrain, if_pos h]
  exact ⟨rfl, Dev.on_set_same _ _ _, keeps_set { d with memc := _ } _ _⟩

theorem dramTrain_elsewhere {d : Dev} (h : d.mode ≠ 5) : dramTrain d = d := if_neg h

theorem dramTrained_training {d : Dev} (h : d.memc.training = true) : (dramTrained d).memc.training = false ∧
    (dramTrained d).on MEM_DRAM_STAT_TRAINED = true ∧
    (dramTrained d).get MEM_DRAM_CAP_CAP_MIB = d.cfgCapMib % 2 ^ MEM_DRAM_CAP_CAP_MIB.w ∧
    Keeps [MEM_DRAM_STAT_TRAINED.key, MEM_DRAM_CAP_CAP_MIB.key] d (dramTrained d) := by
  rw [dramTrained, if_pos h]
  refine ⟨rfl, ?_, Dev.get_set_same _ _ _, (keeps_set { d with memc := _ } _ _).trans (keeps_set _ _ _)⟩
  rw [Dev.on_set_ne _ _ _ _ (by decide), Dev.on_set_same]; rfl

theorem mr4Sample_above {d : Dev} (h : d.on MEM_DRAM_STAT_TRAINED = true) : (mr4Sample true d).on MEM_DRAM_STAT_DERATE = true ∧
    (mr4Sample true d).on MEM_IRQ_STAT_DERATE = true ∧
    Keeps [MEM_DRAM_STAT_DERATE.key, MEM_IRQ_STAT_DERATE.key] d (mr4Sample true d) := by
  rw [mr4Sample, if_pos h, if_pos rfl]
  refine ⟨?_, ?_, (keeps_set _ _ _).trans (keeps_cause _ _)⟩
  · rw [Dev.on_cause, Dev.on_set_ne _ _ _ _ (by decide), Dev.on_set_same]; rfl
  · rw [Dev.on_cause, Dev.on_set_same]; rfl

theorem mr4Sample_below {d : Dev} (h : d.on MEM_DRAM_STAT_TRAINED = true) : mr4Sample false d = d.set MEM_DRAM_STAT_DERATE 0 := by
  rw [mr4Sample, if_pos h]; rfl

/-! ### What each command of the memory controller does -/

/-- R6: memory is little-endian. -/
theorem Mem.read_two (m : Mem) (b : Nat) : m.read b 2 = m.read b 1 + 256 * m.read (b + 1) 1 := by simp [Mem.read]

theorem hosts_of_tclk {d : Dev} (h : d.tclkRuns = true) (hw : d.on SYS_RST_STATUS_WARM_BUSY = false) : d.hostsRun = true := by
  simp [Dev.hostsRun, h, hw]

section
variable {s : State}

theorem scrub_clean_takesPlace (h : s.dev.tclkRuns = true) : TakesPlace (.scrub []) s Dev.scrubNext fun b e =>
    b.memc.bad = [] → e = scrubOn b.memc.scrub b :=
  takesPlace_onInstant rfl h fun b hdue hbad => scrub_clean [] b (scrubEn_of_due hdue) hbad

theorem scrub_correctable_takesPlace (h : s.dev.tclkRuns = true) (k : Fin 12) :
    TakesPlace (.scrub [(k, 1)]) s Dev.scrubNext fun b e => b.memc.bad = [] → e.on MEM_IRQ_STAT_SRAM_CE = true ∧
      e.get MEM_SRAM_ECC_CE_CNT = (b.inc MEM_SRAM_ECC_CE_CNT).get MEM_SRAM_ECC_CE_CNT ∧ e.mem = b.mem ∧
      e.memc.wb = b.memc.wb ++ [bankBase k + 2 * b.memc.scrub % bankSize k] :=
  takesPlace_onInstant rfl h fun b hdue hbad => by
    rw [scrub_correctable k b (scrubEn_of_due hdue) hbad]
    exact ⟨on_sramErr_correctable _ _, ceCnt_sramErr_correctable _ _, rfl, rfl⟩

theorem eccWriteback_none_completes (h : s.dev.tclkRuns = true) (k : Fin 12) (hw : s.dev.wbOf k = []) :
    Completes (.eccWriteback k) s s.dev := by
  have hc : Completes (.eccWriteback k) s _ := completes_live rfl h
  rwa [writebackCmd_none hw] at hc

theorem eccWriteback_yields (h : s.dev.tclkRuns = true) (k : Fin 12) {e : Dev} (hw : s.dev.wbOf k ≠ [])
    (hp : passUntil (fun e => decide ((e.wbOf k).length < (s.dev.wbOf k).length)) 512 s.dev = some e) :
    Yields (.eccWriteback k) s fun x => x = e ∧ (x.wbOf k).length < (s.dev.wbOf k).length := by
  have hc : Completes (.eccWriteback k) s _ := completes_live rfl h
  rw [writebackCmd_some hw hp] at hc
  exact ⟨e, hc, rfl, of_decide_eq_true (passUntil_holds hp)⟩

end

/-- Settles O43, clause by clause from the laws of memory and of the memory controller. -/
theorem memoryHoldsWhatIsWritten : Obligations.MemoryHoldsWhatIsWritten := by
  unfold Obligations.MemoryHoldsWhatIsWritten
  refine ⟨fun m a v n => ⟨m.read_write_same a v n, m.byte_write_outside a v n, m.wf_write a v n, m.read_two⟩,
    fun d k a r hw => ⟨eccWriteback_idle hw, eccWriteback_busy⟩, fun s h => ?_⟩
  refine ⟨fun hoff errs => completes_onInstant_none rfl h (scrubNext_off hoff), scrub_clean_takesPlace h, scrub_correctable_takesPlace h,
    fun k => ⟨eccWriteback_none_completes h k, fun e hw hp => eccWriteback_yields h k hw hp⟩, fun hwarm => ?_, fun ht => ?_, fun ht => ?_,
    completes_live (f := fun d => d) rfl h, completes_live (f := fun d => d) rfl h⟩
  · have hc : Completes .dramTrain s (dramTrain (busFirst s.dev)) := completes_onBus rfl (hosts_of_tclk h hwarm)
    intro b
    exact ⟨fun h5 => ⟨dramTrain b, hc, dramTrain_boathouse h5⟩, fun h5 => dramTrain_elsewhere h5 ▸ hc⟩
  · exact ⟨_, completes_live rfl h, dramTrained_training ht⟩
  · refine ⟨⟨_, completes_live rfl h, mr4Sample_above ht⟩, ?_⟩
    have hc : Completes (.mr4Sample false) s _ := completes_live rfl h
    rwa [mr4Sample_below ht] at hc

end Sys2Proof.Machine
end

section
/-!
O13: the catch opens the next stroke (R9, R20, R22, R30).
-/
namespace Sys2Proof.Machine

/-! ### What carries the stroke -/

/-- The stroke in progress: when it opened, its number, when it ends, and the period in effect (R9, R20). -/
def Dev.stroke (d : Dev) : Nat × Nat × Nat × Nat := (d.clock.openAt, d.clock.strokeNo, d.clock.endAt, d.period)

/-- The fields of the control engines and of what lies above them are not the stroke period. -/
theorem Dev.stroke_set (d : Dev) (f : Field) (v : Nat) (h : 0x50000 ≤ f.addr) : (d.set f v).stroke = d.stroke := by
  have hp : (d.set f v).period = d.period :=
    Dev.get_set_ne d f _ v (by simp only [Field.key, SYS_STROKE_CFG_PERIOD_NS, fld]; omega)
  simp only [Dev.stroke, hp, Dev.set_clock]

theorem Dev.stroke_setB (d : Dev) (f : Field) (b : Bool) (h : 0x50000 ≤ f.addr) : (d.setB f b).stroke = d.stroke := d.stroke_set f _ h
theorem Dev.stroke_inc (d : Dev) (f : Field) (h : 0x50000 ≤ f.addr) : (d.inc f).stroke = d.stroke := d.stroke_set f _ h
theorem Dev.stroke_cause (d : Dev) (f : Field) (h : 0x50000 ≤ f.addr) : (d.cause f).stroke = d.stroke := d.stroke_set f _ h
@[simp] theorem Dev.stroke_putCe (d : Dev) (n : Nat) (c : Ce) : (d.putCe n c).stroke = d.stroke := rfl

theorem stroke_foldl {α : Type} (f : Dev → α → Dev) (hf : ∀ d x, (f d x).stroke = d.stroke) (l : List α) (d : Dev) :
    (l.foldl f d).stroke = d.stroke := by
  induction l generalizing d with
  | nil => rfl
  | cons x r ih => exact (ih (f d x)).trans (hf d x)

theorem stroke_forUpTo (n : Nat) (f : Nat → Dev → Dev) (hf : ∀ i d, (f i d).stroke = d.stroke) (d : Dev) :
    (forUpTo n f d).stroke = d.stroke := stroke_foldl _ (fun d i => hf i d) _ d

theorem Same.stroke {K : Nat → Bool} {d e : Dev} (h : Same K d e) (hK : K SYS_STROKE_CFG_PERIOD_NS.key = false) : e.stroke = d.stroke := by
  have hp : e.period = d.period := h.get _ hK
  have hc : e.clock = d.clock := h.part Dev.clock fun _ => rfl
  simp only [Dev.stroke, hp, hc]

/-! ### Results that land in the control engines -/

@[simp] theorem stroke_setSpec (n j v : Nat) (d : Dev) : (setSpec n j v d).stroke = d.stroke :=
  d.stroke_set _ v (by simp only [CE_SPEC_VALUE, fld]; omega)

theorem stroke_writeSpec (n j v cyc : Nat) (d : Dev) : (writeSpec n j v cyc d).stroke = d.stroke := by
  unfold writeSpec
  split
  case h_10 =>
    split
    · rw [Dev.stroke_set _ _ _ (by simp only [CE_CSEL_SEL, fld]; omega), stroke_setSpec]
    · exact stroke_setSpec ..
  all_goals simp [sigClear]

theorem stroke_applyEff (n : Nat) (l : Land) (d : Dev) : (applyEff n l d).stroke = d.stroke := by
  unfold applyEff
  split
  · exact d.stroke_set _ _ (by simp only [CE_XREG_VALUE, fld]; omega)
  · exact stroke_writeSpec ..
  · exact stroke_setSpec ..
  · rfl

theorem stroke_landTo (n t : Nat) (d : Dev) : (landTo n t d).stroke = d.stroke := by
  simp only [landTo]
  split
  · rfl
  · rw [stroke_foldl _ fun d l => stroke_applyEff n l d, Dev.stroke_putCe]

theorem stroke_timPosts (n t : Nat) (l : List TimOp) (d : Dev) : (timPosts n t l d).2.stroke = d.stroke := by
  induction l generalizing d with
  | nil => rfl
  | cons op r ih =>
    unfold timPosts
    split
    · split
      · rw [ih]; exact stroke_setSpec ..
      · rfl
    · rfl

theorem stroke_timRun (n : Nat) (d : Dev) : (timRun n d).stroke = d.stroke := by
  simp only [timRun]
  split
  · rfl
  · rw [stroke_setSpec, Dev.stroke_putCe, stroke_timPosts]

theorem stroke_ceLand (n : Nat) (d : Dev) : (ceLand n d).stroke = d.stroke := (stroke_timRun _ _).trans (stroke_landTo _ _ _)

theorem stroke_irqDeliver (t : Nat) (d : Dev) : (irqDeliver t d).stroke = d.stroke := (same_irqDeliver t d).stroke (by decide)

theorem stroke_arrivals (d : Dev) : (arrivals d).stroke = d.stroke := by
  unfold arrivals
  rw [stroke_forUpTo _ _ stroke_ceLand]
  split
  · rfl
  · exact stroke_irqDeliver _ _

/-! ### The finish window -/

theorem stroke_ceShow (n : Nat) (d : Dev) : (ceShow n d).stroke = d.stroke := by
  simp (disch := simp only [CE_STATUS_IE, CE_STATUS_TS, CE_STAGE_DEPTH, CE_STAGE_OVF, fld]; omega) only
    [ceShow, Dev.stroke_setB, Dev.stroke_set]

theorem stroke_trapEnter (n cause tpc issue : Nat) (d : Dev) : (trapEnter n cause tpc issue d).stroke = d.stroke := by
  simp (disch := simp only [CE_COUNTS_TRAP_CNT, CE_IRQ_STAT_TRAP, CE_TRAPINFO_CAUSE, CE_TRAPINFO_PC, CE_STATUS_PC, fld]; omega) only
    [trapEnter, stroke_ceShow, Dev.stroke_putCe, Dev.stroke_set, Dev.stroke_cause, Dev.stroke_inc, stroke_setSpec]

/-- R229, R230: an engine that is still at work when the finish window opens is counted, and may take a trap. -/
theorem stroke_ceOverrun (n : Nat) (d : Dev) : (ceOverrun n d).stroke = d.stroke := by
  simp (disch := simp only [CE_STATUS_OVERRUN, CE_COUNTS_OVERRUN_CNT, CE_IRQ_STAT_OVERRUN, CE_STATUS_RUN, fld]; omega) only
    [ceOverrun, apply_ite Dev.stroke, stroke_trapEnter, stroke_ceShow, Dev.stroke_putCe, Dev.stroke_set, Dev.stroke_cause, Dev.stroke_inc,
      ite_self]

theorem stroke_finishWindow (d : Dev) : (finishWindow d).stroke = d.stroke := by
  unfold finishWindow
  split
  · rfl
  · exact stroke_forUpTo _ _ stroke_ceOverrun _

/-! ### The catch -/

/-- What the catch at `t` leaves of the stroke under the period `p` (R9, R30). -/
def strokeFrom (t : Nat) (stepped : Bool) (p : Nat) : Nat × Nat × Nat × Nat := (t, t / p, if stepped then stepEnd p t else t + p, p)

/-- R22: whatever else the catch does, it opens the stroke of the catch time last. -/
theorem stroke_strokeCatch (d : Dev) (h : d.tclkRuns = true) :
    ∃ p, (strokeCatch d).stroke = strokeFrom d.catchTime d.stepDue.isSome p := by
  have hlive : ¬ (d.clock.phase ≠ .run ∧ d.clock.phase ≠ .waitFirst) := fun hn => by
    simp [Dev.tclkRuns, hn] at h
  have hlast : ∃ x, strokeCatch d = strokeAt d.catchTime d.stepDue.isSome x := by
    unfold strokeCatch
    rw [if_neg hlive]
    exact ⟨_, rfl⟩
  obtain ⟨x, hx⟩ := hlast
  exact ⟨x.period, by rw [hx]; rfl⟩

theorem same_freshCycle (d : Dev) : Same irqKey d (freshCycle d) := by
  have hnew : Same irqKey d { d with cyc := {} } := ⟨fun _ _ _ => rfl, rfl⟩
  unfold freshCycle
  split
  · exact hnew
  · exact hnew.trans (same_irqAll _)

/-- When the stroke ends, the next TCLK is that of the catch. -/
theorem stroke_advance (d : Dev) (h : d.tclkRuns = true) (hend : d.clock.endAt ≤ d.clock.now + 1) :
    ∃ p, (advance d).stroke = strokeFrom d.catchTime d.stepDue.isSome p := by
  have hs := same_freshCycle d
  have hclock : (freshCycle d).clock = d.clock := hs.part Dev.clock fun _ => rfl
  have hrun : (freshCycle d).tclkRuns = d.tclkRuns := hs.part Dev.tclkRuns fun _ => rfl
  have htime : (freshCycle d).catchTime = d.catchTime := hs.part Dev.catchTime fun _ => rfl
  have hstep : (freshCycle d).stepDue = d.stepDue := hs.part Dev.stepDue fun _ => rfl
  obtain ⟨p, hp⟩ := stroke_strokeCatch (freshCycle d) (hrun.trans h)
  rw [htime, hstep] at hp
  have hopen : ∀ e : Dev, e.stroke = strokeFrom d.catchTime d.stepDue.isSome p →
      (arrivals (if e.clock.endAt = e.clock.now + 64 then finishWindow e else e)).stroke = strokeFrom d.catchTime d.stepDue.isSome p := by
    intro e he
    rw [stroke_arrivals]
    split
    · exact (stroke_finishWindow e).trans he
    · exact he
  have hphase : (freshCycle d).clock.phase = .run ∨ (freshCycle d).clock.phase = .waitFirst := by
    rw [hclock]; simpa [Dev.tclkRuns] using h
  have hdue : (freshCycle d).clock.endAt ≤ (freshCycle d).clock.now + 1 := by rw [hclock]; exact hend
  refine ⟨p, ?_⟩
  rcases hphase with hph | hph <;> simp only [advance, hph, if_pos hdue] <;> exact hopen _ hp

/-- The TCLK that has ended ends no second time. -/
theorem finish_finish (d : Dev) : finish (finish d) = finish d := by
  by_cases h : d.clock.owed = true
  · have hclosed : (close d).clock.owed = false := rfl
    simp [finish, h, hclosed]
  · simp [finish, h]

@[simp] theorem owed_openNext (d : Dev) : (openNext d).clock.owed = true := rfl

theorem stroke_openNext (d : Dev) : (openNext d).stroke = (advance (finish d)).stroke := rfl

theorem stroke_aftermath (b d : Dev) : (aftermath b d).stroke = d.stroke := by
  have hp : (aftermath b d).period = d.period := get_aftermath _ _ _ (by decide)
  simp only [Dev.stroke, hp, clock_aftermath]

theorem boundary_live {d : Dev} (h : d.tclkRuns = true) : d.boundary = d.clock.endAt := by
  have hph : ¬ (d.clock.phase = .moored ∨ d.clock.phase = .windDown) := by
    rintro (e | e) <;> simp [Dev.tclkRuns, e] at h
  exact if_neg hph

theorem finish_toCatch (d : Dev) : finish (toCatch d) = toCatch d := by unfold toCatch; exact finish_finish _

theorem nextCatch_live {d : Dev} (h : d.tclkRuns = true) : nextCatch d = openNext (toCatch d) := if_pos h

theorem strokeCatch_completes {s : State} (h : s.dev.tclkRuns = true) : Completes .strokeCatch s (openNext (toCatch s.dev)) := by
  rw [← nextCatch_live h]
  exact completes_live rfl h

theorem catchTime_noStep {b : Dev} (hrun : b.tclkRuns = true) (h : b.stepDue = none) : b.catchTime = b.clock.endAt := by
  simp only [Dev.catchTime, h, boundary_live hrun]

theorem catchTime_step {b : Dev} {k : Int} (hrun : b.tclkRuns = true) (h : b.stepDue = some k) :
    b.catchTime = ((b.clock.endAt : Int) + k).toNat := by
  simp only [Dev.catchTime, h, boundary_live hrun]

/-- The stroke that the TCLK of the catch shows, `b` being the device in which the last TCLK of the old stroke has ended. -/
theorem openNext_atCatch (a b : Dev) (hb : finish b = b) (hrun : b.tclkRuns = true) (hend : b.clock.endAt ≤ b.clock.now + 1) :
    ∃ p, (aftermath a (openNext b)).stroke = strokeFrom b.catchTime b.stepDue.isSome p := by
  obtain ⟨p, hp⟩ := stroke_advance b hrun hend
  exact ⟨p, by rw [stroke_aftermath, stroke_openNext, hb, hp]⟩

/-- A device whose stroke is that of a catch has the number and, without a step, the end that R9 and R20 give. -/
theorem stroke_clauses {e : Dev} {t p : Nat} {stepped : Bool} (h : e.stroke = strokeFrom t stepped p) :
    e.clock.openAt = t ∧ e.clock.strokeNo = e.clock.openAt / e.period ∧ (stepped = false → e.clock.endAt = e.clock.openAt + e.period) := by
  simp only [Dev.stroke, strokeFrom, Prod.mk.injEq] at h
  obtain ⟨hopen, hno, hend, hperiod⟩ := h
  refine ⟨hopen, by rw [hno, hopen, hperiod], fun hs => ?_⟩
  rw [hend, hopen, hperiod, hs, if_neg Bool.false_ne_true]

/-- Settles O13: the catch sets the stroke last, and neither what arrives in its TCLK nor its consequences change it. -/
theorem catchOpensTheNextStroke : Obligations.CatchOpensTheNextStroke := by
  unfold Obligations.CatchOpensTheNextStroke
  intro s h b
  have hdone : Completes .strokeCatch s (openNext b) := strokeCatch_completes h
  have hfin : finish b = b := finish_toCatch s.dev
  clear_value b
  refine ⟨hdone, fun hrun hend => hdone.does ?_⟩
  obtain ⟨p, hstroke⟩ := openNext_atCatch s.dev b hfin hrun hend
  obtain ⟨hopen, hno, hlast⟩ := stroke_clauses hstroke
  refine ⟨hopen, hno, by rw [clock_aftermath, owed_openNext], fun hnone => ⟨?_, hlast (by rw [hnone]; rfl)⟩, fun k hk => ?_⟩
  · exact hopen.trans (catchTime_noStep hrun hnone)
  · exact hopen.trans (catchTime_step hrun hk)

end Sys2Proof.Machine
end

section
/-!
O1: a step runs the command at the front of the queue, or one TCLK.
-/
namespace Sys2Proof.Machine

theorem step_cons (c : Instr) (rest : List Instr) (s : State) : step { s with pending := c :: rest } = exec c { s with pending := rest } := rfl

theorem step_empty {s : State} (h : s.pending = []) : step s = s.run tick := by
  unfold step
  rw [h]

/-- Settles O1: a step is `exec` of the command in front, and one TCLK on an empty queue (R74, R513). -/
theorem stepsRunCommandsOrOneClock : Obligations.StepsRunCommandsOrOneClock := by
  unfold Obligations.StepsRunCommandsOrOneClock
  exact ⟨step_cons, fun s h => ⟨fun hheld => (step_empty h).trans (run_held s tick hheld),
    fun hlive => (step_empty h).trans (run_next s tick hlive)⟩⟩

end Sys2Proof.Machine
end

section
/-!
SUPPORT. Loops over units, and the end of a service of Keel (R373, R375).
-/
namespace Sys2Proof.Machine

/-! ### Loops over units -/

/-- A part that no turn of a loop changes is unchanged by the loop. -/
theorem part_forUpTo {α : Type} (p : Dev → α) {f : Nat → Dev → Dev} (hf : ∀ i d, p (f i d) = p d) (n : Nat) (d : Dev) :
    p (forUpTo n f d) = p d :=
  List.foldlRecOn (motive := fun e => p e = p d) (List.range n) _ rfl fun e he i _ => (hf i e).trans he

/-- What the turn of each unit brings about, and the turns of the others keep, holds of every unit after the loop. -/
theorem forUpTo_each {Q : Nat → Dev → Prop} {f : Nat → Dev → Dev} (hown : ∀ i d, Q i (f i d))
    (hother : ∀ i j d, i ≠ j → Q i d → Q i (f j d))
    (n : Nat) (d : Dev) : ∀ i, i < n → Q i (forUpTo n f d) := by
  induction n with
  | zero => intro i hi; omega
  | succ n ih =>
    have hlast : forUpTo (n + 1) f d = f n (forUpTo n f d) := by simp [forUpTo, List.range_succ]
    intro i hi
    rw [hlast]
    by_cases hin : i = n
    · rw [hin]; exact hown n _
    · exact hother i n _ hin (ih i (by omega))

/-! ### The end of a service of Keel -/

theorem keelIn_of_keelReady {d : Dev} {k : KeelSvc} (h : d.keelReady k = true) : d.keelIn k = true := by
  unfold Dev.keelReady at h
  unfold Dev.keelIn
  cases hcur : d.keel.cur with
  | none => rw [hcur] at h; cases h
  | some r =>
    rw [hcur] at h
    simp only [Bool.and_eq_true] at h
    obtain ⟨⟨hsvc, -⟩, -⟩ := h
    exact hsvc

theorem keelIn_of_keelEnds {d : Dev} {k : KeelSvc} (h : d.keelEnds k = true) : d.keelIn k = true := by
  unfold Dev.keelEnds at h
  split at h
  · exact keelIn_of_keelReady h
  · exact h

theorem keelIn_congr {d e : Dev} (h : e.keel.cur = d.keel.cur) (k : KeelSvc) : e.keelIn k = d.keelIn k := by
  unfold Dev.keelIn
  rw [h]

theorem keelDone_eq {k : KeelSvc} {f : Dev → Dev} {d : Dev} (h : d.keelIn k = true) (hcur : (f d).keel.cur = d.keel.cur) :
    keelDone k f d = keelEnd (f d) := by
  have hin : (f d).keelIn k = true := (keelIn_congr hcur k).trans h
  simp only [keelDone, h, hin, if_true]

section
variable {α : Type} (p : Dev → α) (hkeel : ∀ x k, p { x with keel := k } = p x) (hset : ∀ x v, p (x.set KEEL_STATUS_STACK_MAX v) = p x)
include hkeel hset

/-- The choice of the next service touches Keel and STACK_MAX alone (R373). -/
theorem part_keelSched (d : Dev) : p (keelSched d) = p d := by
  unfold keelSched keelStart
  split
  · dsimp only
    split
    · exact (hkeel _ _).trans ((hset _ _).trans (hkeel _ _))
    · rfl
  · split
    · exact hkeel _ _
    · exact hkeel _ _
  · exact hkeel _ _
  · exact hkeel _ _
  · rfl

/-- So does the end of a service with nothing to install. -/
theorem part_keelEnd {d : Dev} (h : d.keel.install = false) : p (keelEnd d) = p d := by
  have hend : keelEnd d = keelSched { d with keel := { d.keel with cur := none } } := by simp [keelEnd, h]
  rw [hend, part_keelSched p hkeel hset]
  exact hkeel _ _

end

theorem tb_keelEnd {d : Dev} (h : d.keel.install = false) : (keelEnd d).tb = d.tb :=
  part_keelEnd Dev.tb (fun _ _ => rfl) (fun _ _ => rfl) h

theorem log_keelEnd {d : Dev} (h : d.keel.install = false) : (keelEnd d).log = d.log :=
  part_keelEnd Dev.log (fun _ _ => rfl) (fun _ _ => rfl) h

theorem clock_keelEnd {d : Dev} (h : d.keel.install = false) : (keelEnd d).clock = d.clock :=
  part_keelEnd Dev.clock (fun _ _ => rfl) (fun _ _ => rfl) h

theorem get_keelEnd {d : Dev} (h : d.keel.install = false) (f : Field) (hf : f.key ≠ KEEL_STATUS_STACK_MAX.key) :
    (keelEnd d).get f = d.get f :=
  part_keelEnd (fun x => x.get f) (fun _ _ => rfl) (fun x v => x.get_set_ne _ f v hf) h

theorem on_keelEnd {d : Dev} (h : d.keel.install = false) (f : Field) (hf : f.key ≠ KEEL_STATUS_STACK_MAX.key) :
    (keelEnd d).on f = d.on f := by
  unfold Dev.on
  rw [get_keelEnd h f hf]

/-- A service whose effect `f` leaves Keel alone ends with that effect on the timebase. -/
theorem tb_keelDone {k : KeelSvc} {f : Dev → Dev} {b : Dev} (hin : b.keelIn k = true) (hinst : b.keel.install = false)
    (hf : (f b).keel = b.keel) : (keelDone k f b).tb = (f b).tb := by
  rw [keelDone_eq hin (congrArg Keel.cur hf), tb_keelEnd ((congrArg Keel.install hf).trans hinst)]

theorem log_keelDone {k : KeelSvc} {f : Dev → Dev} {b : Dev} (hin : b.keelIn k = true) (hinst : b.keel.install = false)
    (hf : (f b).keel = b.keel) : (keelDone k f b).log = (f b).log := by
  rw [keelDone_eq hin (congrArg Keel.cur hf), log_keelEnd ((congrArg Keel.install hf).trans hinst)]

/-- A service of Keel that a command ends: what its end does is what the command does. -/
theorem serviceEnds_of_keelCmd {i : Instr} {s : State} {k : KeelSvc} {f : Dev → Dev} {P : Dev → Dev → Prop}
    (hi : s.dev.hostsRun = true → exec i s = s.run (keelCmd k f))
    (hP : ∀ b : Dev, b.keelIn k = true → b.keel.install = false → P b (keelDone k f b)) : ServiceEnds i s k P := by
  intro hrun hasked b hb hinst
  have hcmd : keelCmd k f s.dev = keelDone k f b := by simp only [keelCmd, hrun, hasked, hb, and_self, if_true]
  have hdone : Completes i s (keelDone k f b) := (hi hrun).trans (by rw [run_next _ _ (tclk_phase (hosts_tclk hrun)), hcmd])
  exact ⟨_, hdone, hP b (keelIn_of_keelEnds (passUntil_holds hb)) hinst⟩

end Sys2Proof.Machine
end

section
/-!
O16: filter updates, oscillators, time sets, carrier changes and models (R48 to R64).
-/
namespace Sys2Proof.Machine

/-! ### The filter update -/

/-- What a filter update shows and leaves: the FFO and the timebase state, the time, what waits for the catch, and the service in progress. -/
structure FilterView where
  ffoLo : Nat
  ffoHi : Nat
  state : Nat
  clock : Clock
  out : Option FilterOut
  upd : Option FilterIn
  cur : Option KeelReq
  install : Bool

/-- The view with the output `o` in place of the update that was asked for. -/
def FilterView.leave (v : FilterView) (o : Option FilterOut) : FilterView := { v with out := o, upd := none }

def Dev.filterView (d : Dev) : FilterView where
  ffoLo := d.get TB_FFO_LO_FFO_LO
  ffoHi := d.get TB_FFO_HI_FFO_HI
  state := d.get TB_STATUS_STATE
  clock := d.clock
  out := d.tb.out
  upd := d.tb.upd
  cur := d.keel.cur
  install := d.keel.install

/-- The registers of the oscillators, and those above them, are no part of the view. -/
theorem Dev.filterView_set (d : Dev) (f : Field) (v : Nat) (h : 0x10100 ≤ f.addr) : (d.set f v).filterView = d.filterView := by
  have hne : ∀ g : Field, g.addr < 0x10100 → g.lo < 32 → (d.set f v).get g = d.get g := fun g ha hl =>
    d.get_set_ne f g v (by simp only [Field.key]; omega)
  simp only [Dev.filterView, hne TB_FFO_LO_FFO_LO (by decide) (by decide), hne TB_FFO_HI_FFO_HI (by decide) (by decide),
    hne TB_STATUS_STATE (by decide) (by decide), Dev.set_clock, Dev.set_tb, Dev.set_keel]

theorem Dev.filterView_cause (d : Dev) (f : Field) (h : 0x10100 ≤ f.addr) : (d.cause f).filterView = d.filterView := d.filterView_set f 1 h
theorem Dev.filterView_inc (d : Dev) (f : Field) (h : 0x10100 ≤ f.addr) : (d.inc f).filterView = d.filterView := d.filterView_set f _ h
@[simp] theorem Dev.filterView_tick1 (d : Dev) : d.tick1.filterView = d.filterView := rfl
@[simp] theorem Dev.filterView_putOsc (d : Dev) (n : Nat) (o : Osc) : (d.putOsc n o).filterView = d.filterView := rfl

theorem Dev.filterView_wear (d : Dev) : d.wear.filterView = d.filterView := by
  simp only [Dev.wear]
  split
  · rw [Dev.filterView_cause _ _ (by decide), Dev.filterView_tick1, Dev.filterView_set _ _ _ (by decide)]
  · rw [Dev.filterView_tick1, Dev.filterView_set _ _ _ (by decide)]

theorem Dev.filterView_journal (d : Dev) (type inst : Nat) (data : List Nat) : (d.journal type inst data).filterView = d.filterView := by
  simp only [Dev.journal]
  rw [Dev.filterView_wear, Dev.filterView_cause _ _ (by decide), apply_ite Dev.filterView, Dev.filterView_set _ _ _ (by decide), ite_self,
    Dev.filterView_set _ _ _ (by decide), Dev.filterView_set _ _ _ (by decide)]
  rfl

theorem Dev.filterView_writeHistory (d : Dev) (off : Int) : (d.writeHistory off).filterView = d.filterView :=
  (Dev.filterView_journal _ _ _ _).trans (Dev.filterView_journal _ _ _ _)

theorem filterView_inflateOscs (offAbs : Nat) (d : Dev) : (inflateOscs offAbs d).filterView = d.filterView := by
  refine part_forUpTo Dev.filterView (fun n d => ?_) 4 d
  dsimp only
  split
  · exact d.filterView_putOsc _ _
  · rfl

@[simp] theorem filterView_keelWork (cls cost : Nat) (d : Dev) : (keelWork cls cost d).filterView = d.filterView := rfl

theorem filterView_reportOsc (n : Nat) (d : Dev) : (reportOsc n d).filterView = d.filterView := by
  simp (disch := simp only [TB_OSC_PHASE_PS_PHASE, TB_OSC_FREQ_LO_FREQ_LO, TB_OSC_FREQ_HI_FREQ_HI, TB_OSC_WEIGHT_WEIGHT, fld]; omega) only
    [reportOsc, Dev.sets, apply_ite Dev.filterView, Dev.filterView_set, Dev.filterView_putOsc, ite_self]

theorem filterView_learnOsc (n : Nat) (d : Dev) : (learnOsc n d).filterView = d.filterView := by
  simp (disch := simp only [TB_OSC_MODEL_STAT_VALID, TB_OSC_MODEL_STAT_SPAN_C, fld]; omega) only
    [learnOsc, Dev.setSat, apply_ite Dev.filterView, Dev.filterView_set, Dev.filterView_putOsc, ite_self]

theorem filterView_ageOsc (n : Nat) (d : Dev) : (ageOsc n d).filterView = d.filterView := by
  unfold ageOsc
  split
  · exact d.filterView_set _ _ (by simp only [TB_OSC_MODEL_STAT_AGE_DAYS, fld]; omega)
  · rfl

/-- R60: what slews out an error stays within SLEW_LIMIT. -/
theorem steerOf_within (err : Int) (rate limit : Nat) : -(limit : Int) ≤ steerOf err rate limit ∧ steerOf err rate limit ≤ limit := by
  unfold steerOf
  split
  · omega
  · split <;> omega

/-- R62: whole nanoseconds come back. -/
theorem psToNs_mul (x : Int) : psToNs (x * 1000) = x := by
  unfold psToNs
  split <;> omega

/-- R48, R60, R53: an output of the update `u` in the device `d`: its FFO lies in the correction range, its steering part within SLEW_LIMIT, and
without a reference its offset is OFFSET. -/
structure OutputOf (d : Dev) (u : FilterIn) (o : FilterOut) : Prop where
  ffoLow : -36028797018964 ≤ o.ffo
  ffoHigh : o.ffo ≤ 36028797018964
  steerLow : -(d.slewLimit : Int) ≤ o.steer
  steerHigh : o.steer ≤ d.slewLimit
  offset : u.refs = [] → o.offset = d.gets TB_OFFSET_NS_OFFSET

/-- R48: a correction held to the range of the FFO. -/
def clampFfo (raw : Int) : Int := if raw > ffoLimit then ffoLimit else if raw < -ffoLimit then -ffoLimit else raw

theorem clampFfo_within (raw : Int) : -36028797018964 ≤ clampFfo raw ∧ clampFfo raw ≤ 36028797018964 := by
  unfold clampFfo ffoLimit
  split
  · omega
  · split <;> omega

/-- A filter update leaves an output, and beside that only what the catch applies. -/
theorem filterView_filterUpdate {d : Dev} {u : FilterIn} (hu : d.tb.upd = some u) :
    ∃ o, OutputOf d u o ∧ (filterUpdate d).filterView = d.filterView.leave (some o) := by
  unfold filterUpdate
  simp -zeta only [hu]
  extract_lets refs k st offPs offAbs within lockFrom held pre mayStep stepIt err etePs sigma t bound change next steer raw ffo d1 d2 tb d3 d4 d5
  have h2 : d2.filterView = d.filterView := by
    have h1 : d1.filterView = d.filterView := by
      simp only [d1, apply_ite Dev.filterView, Dev.filterView_writeHistory, ite_self]
    simp only [d2, apply_ite Dev.filterView, filterView_inflateOscs, ite_self, h1]
  have h5 : (forUpTo 4 ageOsc d5).tick1.filterView = d3.filterView := by
    have h4 : d4.filterView = d3.filterView := by
      simp only [d4, part_forUpTo _ filterView_reportOsc, apply_ite Dev.filterView, filterView_keelWork, ite_self]
    simp only [Dev.filterView_tick1, part_forUpTo _ filterView_ageOsc, d5, apply_ite Dev.filterView,
      part_forUpTo _ filterView_learnOsc, ite_self, h4]
  have hoffset : u.refs = [] → psToNs offPs = d.gets TB_OFFSET_NS_OFFSET := by
    intro hrefs
    have hnone : refs = false := by simp [refs, hrefs]
    simp only [offPs, hnone, Bool.false_eq_true, if_false, psToNs_mul]
  obtain ⟨hlow, hhigh⟩ := clampFfo_within raw
  obtain ⟨hslow, hshigh⟩ := steerOf_within (if refs then err else etePs) (Config.filterSlew k) d.slewLimit
  have h3 : d3.filterView = d2.filterView.leave (some _) := rfl
  exact ⟨_, ⟨hlow, hhigh, hslow, hshigh, hoffset⟩, by rw [h5, h3, h2]⟩

theorem filterView_trapNote (code : Nat) (s : KeelSvc) (upc frames : Nat) (d : Dev) : (trapNote code s upc frames d).filterView = d.filterView := by
  simp (disch := decide) only [trapNote, Dev.filterView_set, Dev.filterView_inc]

theorem cause_trapNote (code : Nat) (s : KeelSvc) (upc frames : Nat) (d : Dev) (h : code < 8) :
    (trapNote code s upc frames d).get KEEL_FAULT_CAUSE = code := by
  simp only [trapNote]
  rw [Dev.get_set_ne _ _ _ _ (by decide), Dev.get_set_ne _ _ _ _ (by decide), Dev.get_set_same]
  exact Nat.mod_eq_of_lt h

theorem restarted_trapNote (code : Nat) (s : KeelSvc) (upc frames : Nat) (d : Dev) :
    (trapNote code s upc frames d).on KEEL_STATUS_RESTARTED = d.on KEEL_STATUS_RESTARTED := by
  simp (disch := decide) only [trapNote, Dev.inc, Dev.on_set_ne]

/-- R379: the update of an overflow is discarded; with a free frame of the micro-stack the trap restarts nothing. -/
theorem filterDone_overflow {d : Dev} (h : Config.macOverflow d.fresh = true) (hfr : d.keel.frames.length < 8) :
    (filterDone d).filterView = d.filterView.leave d.tb.out ∧ (filterDone d).on KEEL_STATUS_RESTARTED = d.on KEEL_STATUS_RESTARTED ∧
      (filterDone d).get KEEL_FAULT_CAUSE = 3 := by
  have hfree : ¬ 8 ≤ max 0 d.tick1.keel.frames.length := by rw [Dev.tick1_keel]; omega
  have htrap : filterDone d =
      svcDiscard .filterUpdate (trapNote 3 .filterUpdate d.trapPc (max 0 d.tick1.keel.frames.length) d.tick1) := by
    simp only [filterDone, h, if_true, trapTo, if_neg hfree]
  rw [htrap]
  generalize hx : trapNote 3 .filterUpdate d.trapPc (max 0 d.tick1.keel.frames.length) d.tick1 = x
  have hview : x.filterView = d.filterView := by rw [← hx, filterView_trapNote, Dev.filterView_tick1]
  have hdiscard : (svcDiscard .filterUpdate x).filterView = x.filterView.leave x.filterView.out := rfl
  refine ⟨by rw [hdiscard, hview]; rfl, ?_, ?_⟩
  · exact (congrArg (·.on KEEL_STATUS_RESTARTED) hx.symm).trans (restarted_trapNote ..)
  · exact (congrArg (·.get KEEL_FAULT_CAUSE) hx.symm).trans (cause_trapNote _ _ _ _ _ (by decide))

theorem filterDone_update {d : Dev} (h : Config.macOverflow d.fresh = false) : filterDone d = filterUpdate d := by
  simp [filterDone, h]

section
variable {b d : Dev} {o : Option FilterOut} (hd : d = keelDone .filterUpdate filterDone b) (hin : b.keelIn .filterUpdate = true)
  (hinst : b.keel.install = false) (hv : (filterDone b).filterView = b.filterView.leave o)
include hd hin hinst hv

theorem keelDone_filterDone_eq : d = keelEnd (filterDone b) ∧ (filterDone b).keel.install = false :=
  ⟨hd.trans (keelDone_eq hin (congrArg FilterView.cur hv)), (congrArg FilterView.install hv).trans hinst⟩

/-- The end of the service keeps what the update has left. -/
theorem keelDone_filterDone : d.tb.out = o ∧ d.tb.upd = none ∧ d.get TB_FFO_LO_FFO_LO = b.get TB_FFO_LO_FFO_LO ∧
    d.get TB_FFO_HI_FFO_HI = b.get TB_FFO_HI_FFO_HI ∧ d.get TB_STATUS_STATE = b.get TB_STATUS_STATE ∧ d.clock = b.clock := by
  obtain ⟨hend, hinst'⟩ := keelDone_filterDone_eq hd hin hinst hv
  rw [hend, tb_keelEnd hinst', clock_keelEnd hinst', get_keelEnd hinst' _ (by decide), get_keelEnd hinst' _ (by decide),
    get_keelEnd hinst' _ (by decide)]
  exact ⟨congrArg FilterView.out hv, congrArg FilterView.upd hv, congrArg FilterView.ffoLo hv, congrArg FilterView.ffoHi hv,
    congrArg FilterView.state hv, congrArg FilterView.clock hv⟩

end

theorem exec_filterUpdate {s : State} (h : s.dev.hostsRun = true) : exec .filterUpdate s = s.run (keelCmd .filterUpdate filterDone) := by
  have hcmd : filterCmd s.dev = keelCmd .filterUpdate filterDone s.dev := if_pos (hosts_tclk h)
  show s.run filterCmd = _
  simp only [State.run, hcmd]

theorem phase_ne_held_of_moored {d : Dev} (h : d.clock.phase = .moored) : d.clock.phase ≠ .held := by rw [h]; decide

theorem filterUpdate_moored {s : State} (h : s.dev.clock.phase = .moored) : Completes .filterUpdate s (passTo s.dev.boundary s.dev) := by
  have hstopped : ¬ s.dev.tclkRuns = true := by simp [Dev.tclkRuns, h]
  have hcmd : filterCmd s.dev = passTo s.dev.boundary s.dev := by
    simp only [filterCmd, if_neg hstopped, mooredCmd, h, true_or, if_true]
  have hrun : exec .filterUpdate s = _ := run_next s filterCmd (phase_ne_held_of_moored h)
  rwa [hcmd] at hrun

/-! ### Oscillators -/

theorem oscAt_oscFault (n k : Nat) (d : Dev) :
    (oscFault n d).oscAt k = (d.putOsc n { d.oscAt n with faulty := true, clearSince := some d.clock.now }).oscAt k := by
  simp only [oscFault]
  split <;> rfl

theorem regs_oscFault (n : Nat) (d : Dev) : (oscFault n d).regs = d.regs := by
  simp only [oscFault]
  split <;> rfl

/-- R49: without its carrier the DCO runs from its internal reference. -/
theorem internalRef_oscFault_carrier {n : Nat} {d : Dev} (h : d.get TB_STATUS_CARRIER = n) : (oscFault n d).tb.internalRef = true := by
  simp only [oscFault]
  split
  case isTrue => rfl
  case isFalse hc => exact Decidable.of_not_not fun hoff => hc ⟨h, hoff⟩

theorem internalRef_oscFault_other {n : Nat} {d : Dev} (h : d.get TB_STATUS_CARRIER ≠ n) :
    (oscFault n d).tb.internalRef = d.tb.internalRef := by
  simp only [oscFault]
  rw [if_neg fun ⟨hcarrier, _⟩ => h hcarrier]
  rfl

theorem oscFault_enabled {s : State} {n : Fin 4} (hlive : s.dev.clock.phase ≠ .held) (hen : s.dev.on (TB_OSC_CFG_ENABLE n) = true) :
    Completes (.oscFault n) s (oscFault n s.dev) := by
  have hrun : exec (.oscFault n) s = _ := run_next s (oscFaultCmd n) hlive
  rwa [show oscFaultCmd n s.dev = oscFault n s.dev from if_pos hen] at hrun

theorem oscFault_disabled {s : State} {n : Fin 4} (hlive : s.dev.clock.phase ≠ .held) (hen : s.dev.on (TB_OSC_CFG_ENABLE n) = false) :
    Completes (.oscFault n) s s.dev := by
  have hrun : exec (.oscFault n) s = _ := run_next s (oscFaultCmd n) hlive
  rwa [show oscFaultCmd n s.dev = s.dev from if_neg (by simp [hen])] at hrun

theorem oscReturns_iff (d : Dev) (t n : Nat) : d.oscReturns t n = true ↔
    d.on (TB_OSC_CFG_ENABLE n) = true ∧ ∃ b, (d.oscAt n).clearSince = some b ∧ b + 60000000000 ≤ t := by
  unfold Dev.oscReturns Dev.oscBack
  cases (d.oscAt n).clearSince <;> simp

theorem oscAt_oscReturn_same (n : Nat) (d : Dev) :
    (oscReturn n d).oscAt n = { d.oscAt n with faulty := false, inEnsemble := true, clearSince := none } := d.oscAt_putOsc_same n _

theorem oscAt_oscReturn_ne {n k : Nat} (h : k ≠ n) (d : Dev) : (oscReturn n d).oscAt k = d.oscAt k := d.oscAt_putOsc_ne n k _ h

theorem fault_oscReturn (n : Nat) (d : Dev) : (oscReturn n d).get (TB_OSC_MODEL_STAT_FAULT n) = 0 := Dev.get_set_same _ _ _

theorem keeps_oscReturn (n : Nat) (d : Dev) : Keeps [(TB_OSC_MODEL_STAT_FAULT n).key] d (oscReturn n d) := keeps_set _ _ _

/-! ### Time sets and carrier changes -/

theorem keelAsked_keelAsk (k : KeelSvc) (arg cost : Nat) (d : Dev) : (keelAsk k arg cost d).keelAsked k = true := by
  have hmem : ∀ (r : KeelReq) (q : List KeelReq), r ∈ keelInsert r q := fun r q => by
    induction q with
    | nil => simp [keelInsert]
    | cons x q ih =>
      unfold keelInsert
      split
      · exact List.mem_cons_self ..
      · exact List.mem_cons_of_mem _ ih
  have hany : (keelAsk k arg cost d).keel.queue.any (fun r => decide (r.svc = k)) = true :=
    List.any_eq_true.mpr ⟨_, hmem { svc := k, arg := arg, at_ := d.clock.now, left := cost } d.keel.queue, by simp⟩
  unfold Dev.keelAsked
  rw [hany, Bool.or_true]

/-- R64: a time set in FREE notes the request and touches Keel alone beside it. -/
theorem timeSetGo_free {d : Dev} (h : d.get TB_STATUS_STATE = 0) :
    (timeSetGo d).tb = { d.tb with tset := some (d.tsetNs, d.clock.now), tsetDone := false } ∧
      (timeSetGo d).keelAsked .timeSet = true ∧ (timeSetGo d).regs = d.regs ∧ SameBut tbKeel d (timeSetGo d) := by
  rw [timeSetGo, if_pos h]
  exact ⟨rfl, keelAsked_keelAsk .., rfl, rfl⟩

theorem timeSetGo_rejected {d : Dev} (h : d.get TB_STATUS_STATE ≠ 0) : timeSetGo d = d.cause TB_STATUS_TSET_REJECT := if_neg h

theorem timeSetDone_requested {d : Dev} (h : d.tb.tset.isSome = true) : timeSetDone d = { d with tb := { d.tb with tsetDone := true } } := by
  obtain ⟨r, hr⟩ := Option.isSome_iff_exists.mp h
  simp only [timeSetDone, hr]

theorem carrierServiceDone_requested {d : Dev} (h : d.tb.carrierReq.isSome = true) :
    carrierServiceDone d = { d with tb := { d.tb with carrierDone := true } } := by
  obtain ⟨r, hr⟩ := Option.isSome_iff_exists.mp h
  simp only [carrierServiceDone, hr]

/-! ### Models -/

/-- R58: the save of one oscillator's model. -/
def saveOsc (n : Nat) (d : Dev) : Dev :=
  match (d.oscAt n).model with
  | some m => { d with log := { d.log with models := awrite {} n { m with id := d.get (TB_OSC_MODEL_ID_ID n) } d.log.models } }
  | none => d

/-- The model of oscillator `n`, if it has one, stands in the logbook with its MODEL_ID. -/
def SavedIn (n : Nat) (d : Dev) : Prop :=
  ∀ m, (d.oscAt n).model = some m → aget {} n d.log.models = { m with id := d.get (TB_OSC_MODEL_ID_ID n) }

theorem modelSave_eq (d : Dev) : modelSave d = forUpTo 4 saveOsc d := rfl

theorem part_saveOsc {α : Type} (p : Dev → α) (hp : ∀ d l, p { d with log := l } = p d) (n : Nat) (d : Dev) : p (saveOsc n d) = p d := by
  unfold saveOsc
  split
  · exact hp _ _
  · rfl

theorem savedIn_saveOsc (n : Nat) (d : Dev) : SavedIn n (saveOsc n d) := by
  have hosc : (saveOsc n d).oscAt n = d.oscAt n := part_saveOsc (fun x => x.oscAt n) (fun _ _ => rfl) n d
  have hid : (saveOsc n d).get (TB_OSC_MODEL_ID_ID n) = d.get (TB_OSC_MODEL_ID_ID n) := part_saveOsc (fun x => x.get _) (fun _ _ => rfl) n d
  intro m hm
  rw [hosc] at hm
  rw [hid]
  simp only [saveOsc, hm, aget_awrite_same]

theorem savedIn_saveOsc_ne {i j : Nat} (h : i ≠ j) {d : Dev} (hd : SavedIn i d) : SavedIn i (saveOsc j d) := by
  have hlog : aget {} i (saveOsc j d).log.models = aget {} i d.log.models := by
    unfold saveOsc
    split
    · exact aget_awrite_ne _ _ _ _ _ _ h
    · rfl
  have hosc : (saveOsc j d).oscAt i = d.oscAt i := part_saveOsc (fun x => x.oscAt i) (fun _ _ => rfl) j d
  have hid : (saveOsc j d).get (TB_OSC_MODEL_ID_ID i) = d.get (TB_OSC_MODEL_ID_ID i) := part_saveOsc (fun x => x.get _) (fun _ _ => rfl) j d
  intro m hm
  rw [hlog, hid]
  exact hd m (hosc ▸ hm)

theorem part_modelSave {α : Type} (p : Dev → α) (hp : ∀ d l, p { d with log := l } = p d) (d : Dev) : p (modelSave d) = p d :=
  part_forUpTo p (part_saveOsc p hp) 4 d

/-- R58: after the save the logbook holds the model of each oscillator that has one. -/
theorem models_modelSave {d : Dev} {n : Nat} {m : OscModel} (hn : n < 4) (hm : (d.oscAt n).model = some m) :
    aget {} n (modelSave d).log.models = { m with id := d.get (TB_OSC_MODEL_ID_ID n) } := by
  have hsaved : SavedIn n (modelSave d) := forUpTo_each savedIn_saveOsc (fun _ _ _ h hd => savedIn_saveOsc_ne h hd) 4 d n hn
  have hosc : (modelSave d).oscAt n = d.oscAt n := part_modelSave (fun x => x.oscAt n) (fun _ _ => rfl) d
  have hid : (modelSave d).get (TB_OSC_MODEL_ID_ID n) = d.get (TB_OSC_MODEL_ID_ID n) := part_modelSave (fun x => x.get _) (fun _ _ => rfl) d
  rw [← hid]
  exact hsaved m (hosc ▸ hm)

/-- R59: the model of one oscillator is discarded. -/
def clearOsc (n : Nat) (d : Dev) : Dev :=
  ((((d.putOsc n { d.oscAt n with model := none }).set (TB_OSC_MODEL_STAT_VALID n) 0).set (TB_OSC_MODEL_STAT_RESTORED n) 0).set
    (TB_OSC_MODEL_STAT_SPAN_C n) 0).set (TB_OSC_MODEL_STAT_AGE_DAYS n) 0

/-- Oscillator `n` has no model, and its registers show none. -/
def NoModel (n : Nat) (d : Dev) : Prop :=
  (d.oscAt n).model = none ∧ d.get (TB_OSC_MODEL_STAT_VALID n) = 0 ∧ d.get (TB_OSC_MODEL_STAT_RESTORED n) = 0 ∧
    d.get (TB_OSC_MODEL_STAT_SPAN_C n) = 0 ∧ d.get (TB_OSC_MODEL_STAT_AGE_DAYS n) = 0

theorem modelClear_eq (d : Dev) : modelClear d = { forUpTo 4 clearOsc d with log := { (forUpTo 4 clearOsc d).log with models := [] } } := rfl

theorem noModel_clearOsc (n : Nat) (d : Dev) : NoModel n (clearOsc n d) := by
  refine ⟨by simp [clearOsc], ?_, ?_, ?_, ?_⟩ <;>
  simp (disch := simp only [Field.key, TB_OSC_MODEL_STAT_VALID, TB_OSC_MODEL_STAT_RESTORED, TB_OSC_MODEL_STAT_SPAN_C,
    TB_OSC_MODEL_STAT_AGE_DAYS, fld]; omega) only [clearOsc, Dev.get_set_ne, Dev.get_set_same, Nat.zero_mod]

/-- The discard of one model leaves that of another oscillator and its registers alone. -/
theorem noModel_clearOsc_ne {i j : Nat} (h : i ≠ j) {d : Dev} (hd : NoModel i d) : NoModel i (clearOsc j d) := by
  have hosc : (clearOsc j d).oscAt i = d.oscAt i := d.oscAt_putOsc_ne j i _ h
  unfold NoModel
  rw [hosc]
  simp (disch := simp only [Field.key, TB_OSC_MODEL_STAT_VALID, TB_OSC_MODEL_STAT_RESTORED, TB_OSC_MODEL_STAT_SPAN_C,
    TB_OSC_MODEL_STAT_AGE_DAYS, fld]; omega) only [clearOsc, Dev.get_set_ne, Dev.get_putOsc]
  exact hd

theorem NoModel.with_log {n : Nat} {d : Dev} (h : NoModel n d) (l : Log) : NoModel n { d with log := l } := h

theorem noModel_modelClear {n : Nat} (hn : n < 4) (d : Dev) : NoModel n (modelClear d) := by
  have hall : NoModel n (forUpTo 4 clearOsc d) := forUpTo_each noModel_clearOsc (fun _ _ _ h hd => noModel_clearOsc_ne h hd) 4 d n hn
  rw [modelClear_eq]
  exact hall.with_log _

/-- Settles O16, clause by clause: what the commands do at the end of their services, and what faults and returns do. -/
theorem timeModelsAndFilterUpdates : Obligations.TimeModelsAndFilterUpdates := by
  unfold Obligations.TimeModelsAndFilterUpdates
  refine ⟨fun s => ⟨?_, filterUpdate_moored⟩, ⟨fun s n hlive => ⟨fun hen => ?_, oscFault_disabled hlive⟩, fun d n _ => ?_⟩,
    fun s => ⟨fun hrun => ⟨fun hfree => ?_, fun hbusy => ?_⟩, ?_, ?_⟩, fun s => ⟨?_, fun hrun => ?_⟩⟩
  · refine serviceEnds_of_keelCmd exec_filterUpdate fun b hin hinst u hu hfr => ?_
    cases hmac : Config.macOverflow b.fresh with
    | true =>
      obtain ⟨hview, hrestarted, hcause⟩ := filterDone_overflow hmac hfr
      obtain ⟨hend, hinst'⟩ := keelDone_filterDone_eq rfl hin hinst hview
      obtain ⟨hout, hrest⟩ := keelDone_filterDone rfl hin hinst hview
      refine ⟨?_, hrest⟩
      rw [if_pos rfl]
      refine ⟨hout, ?_, ?_⟩
      · rw [hend, on_keelEnd hinst' _ (by decide), hrestarted]
      · rw [hend, get_keelEnd hinst' _ (by decide), hcause]
    | false =>
      obtain ⟨o, ho, hview⟩ := filterView_filterUpdate hu
      rw [← filterDone_update hmac] at hview
      obtain ⟨hout, hrest⟩ := keelDone_filterDone rfl hin hinst hview
      refine ⟨?_, hrest⟩
      rw [if_neg Bool.false_ne_true]
      exact ⟨o, hout, ho.ffoLow, ho.ffoHigh, ho.steerLow, ho.steerHigh, ho.offset⟩
  · refine ⟨_, oscFault_enabled hlive hen, ?_, ?_, fun k hk => ?_, regs_oscFault _ _, internalRef_oscFault_carrier, internalRef_oscFault_other⟩
    · rw [oscAt_oscFault, Dev.oscAt_putOsc_same]
    · rw [oscAt_oscFault, Dev.oscAt_putOsc_same]
    · rw [oscAt_oscFault, Dev.oscAt_putOsc_ne _ _ _ _ hk]
  · rw [oscAt_oscReturn_same]
    exact ⟨fun t => oscReturns_iff d t n, rfl, rfl, rfl, fun k hk => oscAt_oscReturn_ne hk d, fault_oscReturn n d, keeps_oscReturn n d⟩
  · obtain ⟨htb, hasked, hregs, hsame⟩ := timeSetGo_free hfree
    exact ⟨_, completes_onBus rfl hrun, by rw [htb], by rw [htb], hasked, hregs, hsame⟩
  · have hc : Completes .timeSetGo s _ := completes_onBus rfl hrun
    rwa [timeSetGo_rejected hbusy] at hc
  · refine serviceEnds_of_keelCmd (f := timeSetDone) (fun _ => rfl) fun b hin hinst hreq => ?_
    have heq := timeSetDone_requested hreq
    rw [tb_keelDone hin hinst (by rw [heq]), heq]
  · refine serviceEnds_of_keelCmd (f := carrierServiceDone) (fun _ => rfl) fun b hin hinst hreq => ?_
    have heq := carrierServiceDone_requested hreq
    rw [tb_keelDone hin hinst (by rw [heq]), heq]
  · refine serviceEnds_of_keelCmd (f := modelSave) (fun _ => rfl) fun b hin hinst n m hn hm => ?_
    rw [log_keelDone hin hinst (part_modelSave Dev.keel (fun _ _ => rfl) b)]
    exact models_modelSave hn hm
  · exact ⟨_, completes_onBus rfl hrun, rfl, fun n hn => noModel_modelClear hn _⟩

end Sys2Proof.Machine
end

section
/-!
SUPPORT. What the Cox, the channels and the bank ports leave alone in the state of the Cox (R131, R137, R150, R434).
-/
namespace Sys2Proof.Machine

/-! ### Registers of the Cox -/

theorem cox_listEnter (k s : Nat) (d : Dev) : (listEnter k s d).cox = d.cox := by
  unfold listEnter
  split <;> rfl

theorem cox_cursorShow (k : Nat) (d : Dev) : (cursorShow k d).cox = d.cox := by
  unfold cursorShow
  dsimp only
  split <;> rfl

theorem cox_cursorPast (k : Nat) (e : RingEntry) (d : Dev) : (cursorPast k e d).cox = d.cox := cox_cursorShow k _

@[simp] theorem cox_entriesLost (k n : Nat) (d : Dev) : (entriesLost k n d).cox = d.cox := rfl
@[simp] theorem cox_coxShow (d : Dev) : (coxShow d).cox = d.cox := rfl

/-! ### Events that enter a queue or are dropped -/

theorem cox_chSplit (n : Nat) (stamp : Int) (kind flags value secondary : Nat) (d : Dev) :
    (chSplit n stamp kind flags value secondary d).cox = d.cox := by
  unfold chSplit
  dsimp only
  split <;> rfl

theorem cox_droppedSplit (n : Nat) (time : Int) (word : Nat) (synth full : Bool) (d : Dev) :
    (droppedSplit n time word synth full d).cox = d.cox := cox_chSplit ..

@[simp] theorem cox_enqueue (n : Nat) (e : ChEvent) (d : Dev) : (enqueue n e d).cox = d.cox := rfl

theorem cox_recordDrop (k : Nat) (h : Head) (full : Bool) (d : Dev) : (recordDrop k h full d).cox = d.cox := by
  unfold recordDrop
  dsimp only
  split
  · exact cox_droppedSplit ..
  · rfl

/-! ### Conversion slots -/

@[simp] theorem conv_putList (d : Dev) (k : Nat) (l : CoxList) : (d.putList k l).cox.conv = d.cox.conv := rfl

/-- R136: arming uses no conversion slot. -/
theorem conv_armHead (k : Nat) (h : Head) (d : Dev) : (armHead k h d).cox.conv = d.cox.conv := by
  unfold armHead
  extract_lets e ev d1 n armed cox d2 d3 d4 d5
  split
  · rfl
  · split
    case h_1 =>
      have hpeak : d5.cox = d2.cox := by simp only [d5, apply_ite Dev.cox, Dev.setSat, Dev.set_cox, ite_self, d4, d3]
      simp only [apply_ite Dev.cox, Dev.set_cox, ite_self, hpeak]
      rfl
    case h_2 => exact congrArg Cox.conv (cox_recordDrop ..)
    case h_3 => exact congrArg Cox.conv (cox_recordDrop ..)
    case h_4 => rfl

theorem conv_selectArm (fuel : Nat) (d : Dev) : (selectArm fuel d).cox.conv = d.cox.conv := by
  induction fuel generalizing d with
  | zero => rfl
  | succ fuel ih =>
    unfold selectArm
    dsimp only
    split
    · exact ih _
    · split
      · rfl
      · split
        · split
          · rw [ih, cox_cursorPast, conv_armHead, conv_putList]
          · rfl
        · rfl

/-! ### Ports of the banks -/

theorem cox_setBit (d : Dev) (f : Field) (i : Nat) : (d.setBit f i).cox = d.cox := by
  unfold Dev.setBit
  split <;> rfl

theorem cox_bankBusy (m : Nat) (d : Dev) : (bankBusy m d).cox = d.cox := by
  unfold bankBusy
  split
  case h_9 => exact cox_setBit ..
  all_goals rfl

@[simp] theorem cox_collide (a portA portB : Nat) (ww : Bool) (d : Dev) : (collide a portA portB ww d).cox = d.cox := rfl
@[simp] theorem cox_dropStore (u : BankUse) (d : Dev) : (dropStore u d).cox = d.cox := rfl

theorem cox_spoilRead (u : BankUse) (d : Dev) : (spoilRead u d).cox = d.cox := by
  unfold spoilRead
  dsimp only
  split
  · rfl
  · split <;> rfl

theorem cox_bankTouch (u : BankUse) (d : Dev) : (bankTouch u d).2.2.cox = d.cox := by
  unfold bankTouch
  dsimp only
  split
  · rfl
  · simp only [apply_ite Dev.cox, cox_dropStore, cox_spoilRead, cox_bankBusy, cox_collide, ite_self]

theorem cox_sramErr (kind a : Nat) (d : Dev) : (sramErr kind a d).cox = d.cox := by
  unfold sramErr
  split
  · rfl
  · split
    · rfl
    · dsimp only
      split <;> rfl

theorem cox_badHeal (a : Nat) (d : Dev) : (badHeal a d).cox = d.cox := by
  unfold badHeal
  split <;> rfl

theorem cox_bankReadWord (a port master dest : Nat) (d : Dev) : (bankReadWord a port master dest d).2.cox = d.cox := by
  unfold bankReadWord
  dsimp only
  simp only [apply_ite Prod.snd, apply_ite Dev.cox, Dev.tick1_cox, cox_sramErr, cox_bankTouch, ite_self]

theorem cox_bankReadWords (a port master n : Nat) (d : Dev) : (bankReadWords a port master n d).2.cox = d.cox := by
  induction n generalizing a d with
  | zero => rfl
  | succ n ih => exact (ih _ _).trans (cox_bankReadWord ..)

theorem cox_bankWriteWord (a n v port master : Nat) (d : Dev) : (bankWriteWord a n v port master d).cox = d.cox := by
  unfold bankWriteWord
  dsimp only
  split
  · exact cox_bankTouch ..
  · exact (cox_badHeal ..).trans (cox_bankTouch ..)

theorem cox_bankWriteBytes (port master fuel a v bytes : Nat) (d : Dev) : (bankWriteBytes port master fuel a v bytes d).cox = d.cox := by
  induction fuel generalizing a v bytes d with
  | zero => rfl
  | succ fuel ih =>
    unfold bankWriteBytes
    split
    · rfl
    · exact (ih _ _ _ _).trans (cox_bankWriteWord ..)

end Sys2Proof.Machine
end

section
/-!
O22: conversions of the Cox (R136, R137, R138, R150).
-/
namespace Sys2Proof.Machine

/-! ### The conversion of a list -/

/-- From `d` to `e` list `k` has consumed the entry `it`, with `rest` behind it in its ring; the other lists and the slots are as they were. -/
structure HeadTaken (k : Nat) (it : RingEntry) (rest : List RingEntry) (d e : Dev) : Prop where
  ring : (e.listAt k).ring = rest
  rev : (e.listAt k).rev = it.rev
  others : ∀ j, j ≠ k → e.listAt j = d.listAt j
  conv : e.cox.conv = d.cox.conv

theorem listAt_congr {d e : Dev} (h : e.cox = d.cox) (k : Nat) : e.listAt k = d.listAt k := by
  unfold Dev.listAt
  rw [h]

section
variable {k : Nat} {it : RingEntry} {rest : List RingEntry} {d e x : Dev}

theorem HeadTaken.congr (h : HeadTaken k it rest d e) (hx : x.cox = e.cox) : HeadTaken k it rest d x where
  ring := by rw [listAt_congr hx, h.ring]
  rev := by rw [listAt_congr hx, h.rev]
  others j hj := by rw [listAt_congr hx, h.others j hj]
  conv := by rw [hx, h.conv]

/-- A converted head is no part of the ring. -/
theorem HeadTaken.setHead (h : HeadTaken k it rest d e) (o : Option Head) :
    HeadTaken k it rest d (e.putList k { e.listAt k with head := o }) where
  ring := by rw [Dev.listAt_putList_same]; exact h.ring
  rev := by rw [Dev.listAt_putList_same]; exact h.rev
  others j hj := by rw [Dev.listAt_putList_ne _ _ _ _ hj, h.others j hj]
  conv := h.conv

theorem headTaken_putList (hx : x.cox = d.cox) (l : CoxList) : HeadTaken k it rest d (x.putList k { l with ring := rest, rev := it.rev }) where
  ring := by rw [Dev.listAt_putList_same]
  rev := by rw [Dev.listAt_putList_same]
  others j hj := by rw [Dev.listAt_putList_ne _ _ _ _ hj, listAt_congr hx]
  conv := (conv_putList ..).trans (congrArg Cox.conv hx)

/-- R138, R140, R438: a conversion consumes the head of the ring, whether it converts the entry, passes it over or loses it. -/
theorem headTaken_convertNext (h : (d.listAt k).ring = it :: rest) : HeadTaken k it rest d (convertNext k d) := by
  unfold convertNext
  extract_lets l t synth d1
  simp -zeta only [show l.ring = it :: rest from h]
  extract_lets time d2
  have htaken : HeadTaken k it rest d d2 := headTaken_putList (d := d) (x := d1) rfl l
  split
  · exact (headTaken_putList (cox_bankReadWords ..) l).congr ((cox_entriesLost ..).trans (cox_cursorPast ..))
  · split
    · exact htaken.congr (cox_cursorPast ..)
    · exact htaken.congr (cox_cursorPast ..)
    · split
      · exact htaken.congr (cox_cursorPast ..)
      · exact (htaken.setHead _).congr ((cox_listEnter ..).trans (cox_cursorShow ..))

theorem conv_convertNext (k : Nat) (d : Dev) : (convertNext k d).cox.conv = d.cox.conv := by
  cases h : (d.listAt k).ring with
  | nil =>
    have hnone : convertNext k d = d := by simp only [convertNext, h]
    rw [hnone]
  | cons it rest => exact (headTaken_convertNext h).conv

end

/-! ### The slots of a stroke -/

theorem convAt_none {d : Dev} (h : d.on COX_CTRL_ENABLE = false ∨ d.convPick = none ∨ d.clock.endAt ≤ d.clock.openAt + d.convInsert) :
    d.convAt = none := by
  have hno : ¬ (d.on COX_CTRL_ENABLE ∧ d.convPick.isSome ∧ d.clock.openAt + d.convInsert < d.clock.endAt) := by
    rintro ⟨hen, hpick, ht⟩
    rcases h with h | h | h
    · simp [h] at hen
    · simp [h] at hpick
    · omega
  exact if_neg hno

/-- R136: no conversion inserts before the current cycle, so one that is due inserts in it. -/
theorem convAt_due {d : Dev} (h : d.due d.convAt = true) :
    d.on COX_CTRL_ENABLE = true ∧ (∃ k, d.convPick = some k) ∧ d.clock.openAt + d.convInsert = d.clock.now := by
  by_cases hc : d.on COX_CTRL_ENABLE ∧ d.convPick.isSome ∧ d.clock.openAt + d.convInsert < d.clock.endAt
  · have hat : d.convAt = some (d.clock.openAt + d.convInsert) := if_pos hc
    obtain ⟨hen, hpick, -⟩ := hc
    have hle : d.clock.openAt + d.convInsert ≤ d.clock.now := by
      rw [hat] at h
      exact of_decide_eq_true h
    have hge : d.clock.now - d.clock.openAt ≤ d.convInsert := by
      simp only [Dev.convInsert]
      omega
    exact ⟨hen, Option.isSome_iff_exists.mp hpick, by omega⟩
  · have hat : d.convAt = none := if_neg hc
    rw [hat] at h
    cases h

/-- R136: the turn of a cycle in which a conversion inserts uses its slot. -/
theorem conv_coxTurn {d : Dev} (hdue : d.due d.convAt = true) (hrun : d.clock.phase = .run) :
    (coxTurn d).cox.conv = (d.convInsert - 3) / 2 + 1 := by
  obtain ⟨hen, ⟨k, hk⟩, hnow⟩ := convAt_due hdue
  have hgo : ¬ (!d.on COX_CTRL_ENABLE ∨ d.clock.openAt + d.convInsert ≠ d.clock.now ∨ d.clock.phase ≠ .run) := by
    simp [hen, hnow, hrun]
  simp only [coxTurn, if_neg hgo, hk, cox_coxShow, conv_selectArm, conv_convertNext]

/-- Settles O22: a conversion consumes the head of its list's ring and the slot of its cycle. -/
theorem coxConvertsOneEntryPerSlot : Obligations.CoxConvertsOneEntryPerSlot := by
  unfold Obligations.CoxConvertsOneEntryPerSlot
  refine ⟨fun s h => ⟨fun hidle => completes_onInstant_none rfl h (convAt_none hidle), ?_, fun hrun => completes_onBus (f := perfClear) rfl hrun⟩,
    fun d k it rest _ hring => ?_⟩
  · refine takesPlace_onInstant rfl h fun b hdue hrun => ?_
    obtain ⟨-, hpick, -⟩ := convAt_due hdue
    exact ⟨hpick, conv_coxTurn hdue hrun⟩
  · have htaken := headTaken_convertNext hring
    exact ⟨htaken.ring, htaken.rev, htaken.others⟩

end Sys2Proof.Machine
end

section
/-!
O23: refill of the Cox lists (R131, R135).
-/
namespace Sys2Proof.Machine

/-! ### A burst is issued -/

/-- R131: the next `n` entries of the revolution that refill of list `k` has reached, as memory holds them. -/
def Dev.nextEntries (d : Dev) (k n : Nat) : List RingEntry :=
  (List.range n).map fun i =>
    ⟨d.mem.read (d.get (COX_LIST_ENT_BASE_BASE k) + 8 * ((d.listAt k).refIdx + i)) 8, (d.listAt k).refIdx + i, (d.listAt k).refC,
      (d.listAt k).refRev⟩

/-- R131: a burst of `n` entries is on its way to the ring of list `k`. -/
def burstIssued (k n : Nat) (d : Dev) : Dev :=
  d.putList k { d.listAt k with
    bursts := (d.listAt k).bursts ++ [d.nextEntries k n], refIdx := (d.listAt k).refIdx + n, refLeft := (d.listAt k).refLeft - n }

theorem refillBurst_none {d : Dev} (h : d.on COX_CTRL_ENABLE = false ∨ d.refillPick = none) : refillBurst d = d := by
  unfold refillBurst
  rcases h with hoff | hnone
  · simp only [hoff, Bool.not_false, if_true]
  · simp only [hnone, ite_self]

theorem refillBurst_some {d x : Dev} {k : Nat} (hen : d.on COX_CTRL_ENABLE = true) (hpick : d.refillPick = some k)
    (hx : seekEntry k 1024 d = x) (hleft : (x.listAt k).refLeft ≠ 0) :
    refillBurst d = burstIssued k (min 8 (x.listAt k).refLeft) x := by
  have hn : ¬ min 8 (x.listAt k).refLeft = 0 := by omega
  simp only [refillBurst, hen, hpick, hx, Bool.not_true, Bool.false_eq_true, if_false, if_neg hn]
  rfl

/-! ### A burst returns -/

/-- Writing to the bank moves the write pointer of the ring and nothing else of the list. -/
theorem part_ringWrite {α : Type} (p : CoxList → α) (hp : ∀ l w, p { l with refWr := w } = p l) (k : Nat) (es : List RingEntry) (d : Dev) :
    p ((ringWrite k es d).listAt k) = p (d.listAt k) :=
  List.foldlRecOn (motive := fun x => p (x.listAt k) = p (d.listAt k)) es _ rfl fun (x : Dev) hx e _ => by
    rw [listAt_congr (cox_bankWriteBytes ..), Dev.listAt_putList_same, hp, hx]

theorem mem_cursorShow (k : Nat) (d : Dev) : (cursorShow k d).mem = d.mem := by
  unfold cursorShow
  dsimp only
  split <;> rfl

theorem get_cursorShow {k : Nat} {f : Field} (hi : f.key ≠ (COX_LIST_CURSOR_INDEX k).key) (hc : f.key ≠ (COX_LIST_STATUS_CUR_REV k).key) (d : Dev) :
    (cursorShow k d).get f = d.get f := by
  unfold cursorShow
  dsimp only
  split
  · rw [Dev.get_set_ne _ _ _ _ hc, Dev.get_set_ne _ _ _ _ hi]
  · rfl

/-- R135: lost entries set the causes and count as late drops. -/
theorem entriesLost_shown (k n : Nat) (d : Dev) :
    (entriesLost k n d).on COX_STATUS_DRAM_ERR = true ∧ (entriesLost k n d).on COX_IRQ_STAT_LATE = true ∧
      (entriesLost k n d).get COX_DROPS_LATE = min (d.get COX_DROPS_LATE + n) (2 ^ COX_DROPS_LATE.w - 1) := by
  have hcount : COX_DROPS_LATE.key ≠ (COX_LIST_COUNTS_LATE k).key := by
    simp only [Field.key, COX_DROPS_LATE, COX_LIST_COUNTS_LATE, fld]
    omega
  have hfits : min (d.get COX_DROPS_LATE + n) (2 ^ COX_DROPS_LATE.w - 1) < 2 ^ COX_DROPS_LATE.w := by
    have hpos : 0 < 2 ^ COX_DROPS_LATE.w := Nat.two_pow_pos _
    omega
  refine ⟨?_, ?_, ?_⟩ <;> unfold entriesLost
  · rw [Dev.on_cause, Dev.on_set_ne _ _ _ _ (by decide), Dev.on_cause, Dev.on_set_ne _ _ _ _ (by decide), Dev.on_cause, Dev.on_set_same]
    rfl
  · rw [Dev.on_cause, Dev.on_set_same]
    rfl
  · rw [Dev.get_cause, Dev.get_set_ne _ _ _ _ (by decide), Dev.get_cause, Dev.get_set_ne _ _ _ _ (by decide), Dev.get_cause,
      Dev.get_set_ne _ _ _ _ (by decide), Dev.addSat, Dev.get_set_ne _ _ _ _ hcount, Dev.addSat, Dev.get_set_same, Nat.mod_eq_of_lt hfits]

theorem refillReturn_none {k : Nat} {bad : Bool} {d : Dev} (h : (d.listAt k).bursts = []) : refillReturn k bad d = d := by
  simp only [refillReturn, h]

section
variable {k : Nat} {es : List RingEntry} {rest : List (List RingEntry)} {d : Dev} (h : (d.listAt k).bursts = es :: rest)
include h

theorem refillReturn_good : ((refillReturn k false d).listAt k).ring = (d.listAt k).ring ++ es ∧
    ((refillReturn k false d).listAt k).bursts = rest := by
  simp only [refillReturn, h, Bool.false_eq_true, if_false]
  rw [part_ringWrite CoxList.ring (fun _ _ => rfl), part_ringWrite CoxList.bursts (fun _ _ => rfl), listAt_congr (cox_cursorShow ..),
    Dev.listAt_putList_same]
  exact ⟨rfl, rfl⟩

theorem refillReturn_bad : refillReturn k true d = entriesLost k es.length (cursorShow k (d.putList k { d.listAt k with bursts := rest })) := by
  simp only [refillReturn, h, if_true]

theorem refillReturn_bad_drops : ((refillReturn k true d).listAt k).ring = (d.listAt k).ring ∧ ((refillReturn k true d).listAt k).bursts = rest ∧
    (refillReturn k true d).on COX_STATUS_DRAM_ERR = true ∧ (refillReturn k true d).on COX_IRQ_STAT_LATE = true ∧
    (refillReturn k true d).mem = d.mem ∧
    (refillReturn k true d).get COX_DROPS_LATE = min (d.get COX_DROPS_LATE + es.length) (2 ^ COX_DROPS_LATE.w - 1) := by
  rw [refillReturn_bad h]
  generalize hx : cursorShow k (d.putList k { d.listAt k with bursts := rest }) = x
  have hlist : (entriesLost k es.length x).listAt k = { d.listAt k with bursts := rest } := by
    rw [listAt_congr (cox_entriesLost ..), ← hx, listAt_congr (cox_cursorShow ..), Dev.listAt_putList_same]
  have hmem : x.mem = d.mem := by rw [← hx, mem_cursorShow]; rfl
  have hdrops : x.get COX_DROPS_LATE = d.get COX_DROPS_LATE := by
    rw [← hx, get_cursorShow, Dev.get_putList] <;>
    · simp only [Field.key, COX_DROPS_LATE, COX_LIST_CURSOR_INDEX, COX_LIST_STATUS_CUR_REV, fld]
      omega
  obtain ⟨herr, hlate, hcount⟩ := entriesLost_shown k es.length x
  rw [hdrops] at hcount
  exact ⟨by rw [hlist], by rw [hlist], herr, hlate, hmem, hcount⟩

end

/-- Settles O23, clause by clause: the burst that is issued, and what its return does with and without an error. -/
theorem refillReadsEightEntries : Obligations.RefillReadsEightEntries := by
  unfold Obligations.RefillReadsEightEntries
  intro s h
  refine ⟨fun hidle => ?_, fun k hen hpick => ?_, fun k => ⟨fun hnone bad => ?_, fun es rest hb => ⟨?_, ?_⟩⟩⟩
  · have hc : Completes .refillBurst s (refillBurst s.dev) := completes_live rfl h
    rwa [refillBurst_none hidle] at hc
  · intro x hleft
    have hc : Completes .refillBurst s (refillBurst s.dev) := completes_live rfl h
    rw [refillBurst_some (x := x) hen hpick rfl hleft] at hc
    refine ⟨_, hc, x.nextEntries k (min 8 (x.listAt k).refLeft), ?_⟩
    rw [burstIssued, Dev.listAt_putList_same]
    exact ⟨rfl, rfl, by rw [Dev.nextEntries, List.map_map]; rfl⟩
  · have hc : Completes (.refillReturn k bad) s (refillReturn k bad s.dev) := completes_live rfl h
    rwa [refillReturn_none hnone] at hc
  · exact ⟨_, completes_live rfl h, refillReturn_good hb⟩
  · exact ⟨_, completes_live rfl h, refillReturn_bad_drops hb⟩

end Sys2Proof.Machine
end

section
/-!
SUPPORT. The firing of an event that is alone in its TCLK (R157, R159), and what its split and its causes change (R125, R173, R177).
-/
namespace Sys2Proof.Machine

/-! ### What a channel shows -/

/-- The fields of channel `n` that show its queue, its FIFO, its train and its gate, and the causes and counts of its splits and of FIRE. -/
def shownKeys (n : Nat) : List Nat :=
  [(CH_STATUS_QDEPTH n).key, (CH_STATUS_FIFO_DEPTH n).key, (CH_STATUS_TRAIN_RUN n).key, (CH_STATUS_GEN n).key, (CH_STATUS_CAP_OPEN n).key,
    (CH_IRQ_STAT_SPLIT n).key, (CH_IRQ_STAT_OVERFLOW n).key, (CH_COUNTS_A_OVERFLOW_CNT n).key, (CH_IRQ_STAT_FIRE n).key]

theorem mem_shownKeys {n k : Nat} : k ∈ shownKeys n ↔
    (k / 32 = 0x100030 + 0x100 * n ∧ (k % 32 = 2 ∨ k % 32 = 3 ∨ k % 32 = 8 ∨ k % 32 = 13 ∨ k % 32 = 17)) ∨
    (k / 32 = 0x100034 + 0x100 * n ∧ k % 32 = 0) ∨ (k / 32 = 0x100044 + 0x100 * n ∧ (k % 32 = 0 ∨ k % 32 = 2 ∨ k % 32 = 3)) := by
  simp only [shownKeys, List.mem_cons, List.not_mem_nil, or_false, Field.key, fld, CH_STATUS_QDEPTH, CH_STATUS_FIFO_DEPTH,
    CH_STATUS_TRAIN_RUN, CH_STATUS_GEN, CH_STATUS_CAP_OPEN, CH_IRQ_STAT_SPLIT, CH_IRQ_STAT_OVERFLOW, CH_COUNTS_A_OVERFLOW_CNT,
    CH_IRQ_STAT_FIRE]
  omega

/-- No field below the channels is one of them. -/
theorem not_mem_shownKeys {n : Nat} {f : Field} (h : f.key < 0x100000 * 32) : f.key ∉ shownKeys n := by
  rw [mem_shownKeys]
  omega

theorem level_not_mem_shownKeys (n : Nat) : (CH_STATUS_LEVEL n).key ∉ shownKeys n := by
  simp only [mem_shownKeys, Field.key, CH_STATUS_LEVEL, fld]
  omega

theorem raise_not_mem_shownKeys (n : Nat) : (CH_IRQ_STAT_RAISE n).key ∉ shownKeys n := by
  simp only [mem_shownKeys, Field.key, CH_IRQ_STAT_RAISE, fld]
  omega

/-- From `d` to `e` channel `n` has reported: its split FIFO and the fields that show it may differ; the rest of the channel, the other
channels, the converter and the DMA engine are as they were. -/
structure ChanShown (n : Nat) (d e : Dev) : Prop where
  regs : Keeps (shownKeys n) d e
  chan : { e.chAt n with fifo := {} } = { d.chAt n with fifo := {} }
  others : ∀ k, k ≠ n → e.chAt k = d.chAt k
  mon : e.mon = d.mon
  dma : e.dma = d.dma

theorem ChanShown.refl (n : Nat) (d : Dev) : ChanShown n d d := ⟨fun _ _ => rfl, rfl, fun _ _ => rfl, rfl, rfl⟩

theorem ChanShown.trans {n : Nat} {a b c : Dev} (h : ChanShown n a b) (g : ChanShown n b c) : ChanShown n a c where
  regs f hf := (g.regs f hf).trans (h.regs f hf)
  chan := g.chan.trans h.chan
  others k hk := (g.others k hk).trans (h.others k hk)
  mon := g.mon.trans h.mon
  dma := g.dma.trans h.dma

theorem ChanShown.get {n : Nat} {d e : Dev} (h : ChanShown n d e) {f : Field} (hf : f.key ∉ shownKeys n) : e.get f = d.get f := h.regs f hf

theorem ChanShown.on {n : Nat} {d e : Dev} (h : ChanShown n d e) {f : Field} (hf : f.key ∉ shownKeys n) : e.on f = d.on f := by
  unfold Dev.on
  rw [h.get hf]

theorem ChanShown.part {α : Type} {n : Nat} {d e : Dev} (h : ChanShown n d e) (p : Chan → α) (hp : ∀ c f, p { c with fifo := f } = p c) :
    p (e.chAt n) = p (d.chAt n) := by
  rw [← hp (e.chAt n) {}, h.chan, hp]

theorem chanShown_set {n : Nat} {f : Field} (hf : f.key ∈ shownKeys n) (d : Dev) (v : Nat) : ChanShown n d (d.set f v) where
  regs g hg := d.get_set_ne f g v fun e => hg (e ▸ hf)
  chan := rfl
  others _ _ := rfl
  mon := rfl
  dma := rfl

theorem chanShown_cause {n : Nat} {f : Field} (hf : f.key ∈ shownKeys n) (d : Dev) : ChanShown n d (d.cause f) where
  regs g hg := (chanShown_set hf d 1).regs g hg
  chan := rfl
  others _ _ := rfl
  mon := rfl
  dma := rfl

theorem chanShown_fifo (n : Nat) (d : Dev) (f : Fifo) : ChanShown n d (d.putCh n { d.chAt n with fifo := f }) where
  regs _ _ := rfl
  chan := by rw [Dev.chAt_putCh_same]
  others k hk := d.chAt_putCh_ne n k _ hk
  mon := rfl
  dma := rfl

theorem chanShown_chShow (n : Nat) (d : Dev) : ChanShown n d (chShow n d) := by
  refine ((((chanShown_set ?_ _ _).trans (chanShown_set ?_ _ _)).trans (chanShown_set ?_ _ _)).trans (chanShown_set ?_ _ _)).trans
    (chanShown_set ?_ _ _) <;> simp [shownKeys]

theorem chanShown_chSplit (n : Nat) (stamp : Int) (kind flags value secondary : Nat) (d : Dev) :
    ChanShown n d (chSplit n stamp kind flags value secondary d) := by
  unfold chSplit
  dsimp only
  split
  · exact (chanShown_fifo n d _).trans (chanShown_cause (by simp [shownKeys]) _)
  · exact (chanShown_fifo n d _).trans ((chanShown_set (by simp [shownKeys]) _ _).trans (chanShown_cause (by simp [shownKeys]) _))

/-! ### The event that fires -/

/-- R157: the due TCLK of `e` has come, and it has left the queue of channel `n` with `rest` behind it. -/
def takenOff (n : Nat) (e : ChEvent) (rest : List ChEvent) (b : Dev) : Dev :=
  (b.to (dueOf e.time)).putCh n { b.chAt n with
    queue := rest, firedAt := dueOf e.time, fired := if (b.chAt n).firedAt = dueOf e.time then (b.chAt n).fired + 1 else 1 }

/-- R125, R157, R160: the split and the FIRE cause of an event that has acted, with `queued` events behind it. -/
def eventReport (n : Nat) (e : ChEvent) (queued : Nat) (d : Dev) : Dev :=
  let d := if e.action = 15 then chSplit n e.time 0x02 (2 * b2n e.synth) e.word 0 d
    else if bit e.flags 0 then
      chSplit n (if isLevel e.action then d.placed n e.time else e.time) 0x01 (2 * b2n e.synth) e.word
        (queued + 256 * d.get (CH_STATUS_LEVEL n)) d
    else d
  chShow n (if bit e.flags 1 then d.cause (CH_IRQ_STAT_FIRE n) else d)

theorem chanShown_eventReport (n : Nat) (e : ChEvent) (queued : Nat) (d : Dev) : ChanShown n d (eventReport n e queued d) := by
  unfold eventReport
  extract_lets x
  have hsplit : ChanShown n d x := by
    simp only [x]
    split
    · exact chanShown_chSplit ..
    · split
      · exact chanShown_chSplit ..
      · exact .refl n d
  refine ChanShown.trans ?_ (chanShown_chShow n _)
  split
  · exact hsplit.trans (chanShown_cause (by simp [shownKeys]) x)
  · exact hsplit

/-- R162: without a train and a pending return the channel generates no edge. -/
theorem chInternal_idle {n t : Nat} {d : Dev} (htrain : (d.chAt n).train = none) (hret : (d.chAt n).ret = none) : chInternal n t d = d := by
  simp only [chInternal, pulseReturnTo, hret, trainTo, htrain]

theorem kaCheck_off {n t : Nat} {d : Dev} (h : d.on (CH_STATUS_KA_RUN n) = false) : kaCheck n t d = d := by
  simp only [kaCheck, h, Bool.false_eq_true, if_false]

/-- R157, R160: an event that is alone in its TCLK leaves the queue, acts, and is reported. -/
theorem fireHead_alone {b : Dev} {n : Nat} {e : ChEvent} {rest : List ChEvent} (h : Alone b n e rest) :
    fireHead n b = eventReport n e rest.length (chAct n e (takenOff n e rest b)) := by
  obtain ⟨-, hqueue, halone, hka, htrain, hret⟩ := h
  have hsame : (rest.filter fun x => decide (dueOf x.time = dueOf e.time)) = [] :=
    List.filter_eq_nil_iff.mpr fun x hx => by simp [halone x hx]
  have hb : chInternal n (dueOf e.time) (kaCheck n (dueOf e.time) (b.to (dueOf e.time))) = b.to (dueOf e.time) := by
    rw [kaCheck_off (show (b.to (dueOf e.time)).on (CH_STATUS_KA_RUN n) = false from hka)]
    exact chInternal_idle htrain hret
  simp only [fireHead, hqueue, hb, hsame, List.foldl_nil]
  rfl

/-! ### Actions that drive no output -/

theorem ch_adcHold (t i : Nat) (d : Dev) : (adcHold t i d).ch = d.ch := by
  unfold adcHold
  dsimp only
  split
  · rfl
  · split <;> rfl

theorem ch_adcTrigger (t mask : Nat) (d : Dev) : (adcTrigger t mask d).ch = d.ch := by
  unfold adcTrigger
  split
  · rfl
  · refine List.foldlRecOn (motive := fun x => x.ch = d.ch) _ _ rfl fun (x : Dev) hx i _ => ?_
    split
    · exact (ch_adcHold t i x).trans hx
    · exact hx

theorem ch_trigDma (c : Nat) (d : Dev) : (trigDma c d).ch = d.ch := by
  unfold trigDma dmaEvent
  split
  · split
    · rfl
    · split <;> rfl
  · rfl

theorem ch_setBit (d : Dev) (f : Field) (i : Nat) : (d.setBit f i).ch = d.ch := by
  unfold Dev.setBit
  split <;> rfl

theorem ch_signalCe (n b : Nat) (d : Dev) : (signalCe n b d).ch = d.ch := ch_setBit ..

theorem ch_gateOpenReq (n t : Nat) (d : Dev) : (gateOpenReq n t d).ch = d.ch := by
  unfold gateOpenReq
  split
  · exact ch_setBit ..
  · split <;> rfl

/-- R159: an action that drives no output leaves the queue of its channel and the other channels alone. -/
theorem chAct_queue {n : Nat} {e : ChEvent} (h : isLevel e.action = false) (d : Dev) :
    ((chAct n e d).chAt n).queue = (d.chAt n).queue ∧ ∀ k, k ≠ n → (chAct n e d).chAt k = d.chAt k := by
  have same : ∀ x : Dev, x.ch = d.ch → (x.chAt n).queue = (d.chAt n).queue ∧ ∀ k, k ≠ n → x.chAt k = d.chAt k := fun x hx => by
    simp only [Dev.chAt, hx, implies_true, and_self]
  have gate : ∀ k, ((captureGate n e.time k d).chAt n).queue = (d.chAt n).queue ∧ ∀ j, j ≠ n → (captureGate n e.time k d).chAt j = d.chAt j :=
    fun k => ⟨by rw [captureGate, Dev.chAt_putCh_same], fun j hj => d.chAt_putCh_ne n j _ hj⟩
  unfold chAct
  split
  case h_7 => exact gate _
  case h_8 => exact gate _
  case h_9 => exact same _ (ch_adcTrigger ..)
  case h_10 => exact same _ (ch_trigDma ..)
  case h_11 => exact same _ (ch_signalCe ..)
  case h_12 => exact same _ rfl
  case h_13 => exact same _ (ch_gateOpenReq ..)
  case h_14 => exact same _ rfl
  case h_15 => exact same _ rfl
  all_goals
    rename_i hlevel
    rw [hlevel] at h
    cases h

/-- R31, R159: the command of an action fires the event at the head of the queue when that has the action. -/
theorem fireAction_alone {b : Dev} {n code : Nat} {e : ChEvent} {rest : List ChEvent} (h : Alone b n e rest) (hcode : e.action = code) :
    fireAction n code b = fireHead n b := by
  obtain ⟨hrun, hqueue, -⟩ := h
  have hgo : e.action = code ∧ b.clock.phase ≠ .waitFirst := ⟨hcode, by rw [hrun]; decide⟩
  simp only [fireAction, hqueue, if_pos hgo]

theorem action_of_headDue {b : Dev} {n code : Nat} {e : ChEvent} {rest : List ChEvent} (hqueue : (b.chAt n).queue = e :: rest)
    (h : b.due (b.headDue n code) = true) : e.action = code := by
  refine Decidable.of_not_not fun hne => ?_
  simp only [Dev.headDue, hqueue, if_neg hne, Dev.due] at h
  cases h

/-- An event whose action drives no output fires: it leaves the queue, and `P` is left to show of its action and its report. -/
theorem fires_of_action {i : Instr} {s : State} {n code : Nat} {P : Dev → ChEvent → Dev → Prop}
    (hi : exec i s = s.run (live (fireCmd n code))) (h : s.dev.tclkRuns = true) (hlevel : isLevel code = false)
    (hP : ∀ b e rest, e.action = code → P b e (eventReport n e rest.length (chAct n e (takenOff n e rest b)))) : Fires i s n code P := by
  refine takesPlace_onInstant hi h fun b hdue e rest halone => ?_
  have ⟨_, hhead, _⟩ := halone
  have hcode : e.action = code := action_of_headDue hhead hdue
  rw [fireAction_alone halone hcode, fireHead_alone halone]
  have hshown := chanShown_eventReport n e rest.length (chAct n e (takenOff n e rest b))
  obtain ⟨hqueue, hothers⟩ := chAct_queue (n := n) (hcode ▸ hlevel) (takenOff n e rest b)
  refine ⟨?_, fun k hk => ?_, hP b e rest hcode⟩
  · rw [hshown.part Chan.queue fun _ _ => rfl, hqueue, takenOff, Dev.chAt_putCh_same]
  · rw [hshown.others k hk, hothers k hk, takenOff, Dev.chAt_putCh_ne _ _ _ _ hk]
    rfl

end Sys2Proof.Machine
end

section
/-!
O24: what the actions that drive no output do (R125, R159, R166, R202 to R204, R215, R421, R526).
-/
namespace Sys2Proof.Machine

/-! ### Splits and captures -/

@[simp] theorem Dev.chAt_cause (d : Dev) (f : Field) (k : Nat) : (d.cause f).chAt k = d.chAt k := rfl

theorem seq_chSplit (n : Nat) (stamp : Int) (kind flags value secondary : Nat) (d : Dev) :
    ((chSplit n stamp kind flags value secondary d).chAt n).fifo.seq = ((d.chAt n).fifo.seq + 1) % 2 ^ 28 := by
  have hpush : ∀ (f : Fifo) (x : Split), (f.push x).1.seq = (f.seq + 1) % 2 ^ 28 := fun f x => by
    unfold Fifo.push
    dsimp only
    split <;> rfl
  unfold chSplit
  dsimp only
  split <;> simp only [Dev.chAt_cause, Dev.inc, Dev.chAt_set, Dev.chAt_putCh_same, hpush]

/-- R125, R176: the split of a MARK takes the next sequence number. -/
theorem seq_eventReport_mark {n : Nat} {e : ChEvent} (h : e.action = 15) (queued : Nat) (d : Dev) :
    ((eventReport n e queued d).chAt n).fifo.seq = ((d.chAt n).fifo.seq + 1) % 2 ^ 28 := by
  have hch : ((eventReport n e queued d).chAt n) = (chSplit n e.time 0x02 (2 * b2n e.synth) e.word 0 d).chAt n := by
    simp only [eventReport, if_pos h]
    split <;> rfl
  rw [hch, seq_chSplit]

/-- R166: a gate event that fires goes to the capture unit in order of its time. -/
theorem cap_captureGate (n : Nat) (e : ChEvent) (rest : List ChEvent) (queued : Nat) (t : Int) (k : CapKind) (b : Dev) :
    ((eventReport n e queued (captureGate n t k (takenOff n e rest b))).chAt n).cap = insertCap ⟨t, k⟩ (b.chAt n).cap := by
  rw [(chanShown_eventReport ..).part Chan.cap fun _ _ => rfl, captureGate, Dev.chAt_putCh_same, takenOff, Dev.chAt_putCh_same]

/-- R166: CAPTURE_ARM opens the gate; that COUNT_LIVE starts at 0 is the model's choice (log entry 45). -/
theorem captureArm_opens {n : Nat} {d : Dev} (h : d.on (CH_CAP_CFG_ALWAYS n) = false) (t : Int) (limit : Nat) :
    ((captureArm n t limit d).chAt n).armedAt = some t ∧ ((captureArm n t limit d).chAt n).disarmAt = none ∧
      ((captureArm n t limit d).chAt n).splitsLeft = limit ∧ (captureArm n t limit d).get (CH_COUNT_LIVE_COUNT n) = 0 := by
  simp only [captureArm, h, Bool.false_eq_true, if_false, Dev.chAt_set, Dev.chAt_putCh_same, Dev.get_set_same, Nat.zero_mod, and_self]

/-- R166: CAPTURE_DISARM closes an open gate. -/
theorem captureDisarm_closes {n : Nat} {d : Dev} (h : d.on (CH_CAP_CFG_ALWAYS n) = false) (harm : (d.chAt n).armedAt.isSome = true)
    (hopen : (d.chAt n).disarmAt = none) (t : Int) (flags : Nat) : ((captureDisarm n t flags d).chAt n).disarmAt = some t := by
  have hgate : ((d.chAt n).armedAt.isSome && (d.chAt n).disarmAt.isNone) = true := by rw [harm, hopen]; rfl
  simp only [captureDisarm, h, Bool.false_eq_true, if_false, hgate, if_true]
  split
  · rw [(chanShown_chSplit ..).part Chan.disarmAt fun _ _ => rfl, Dev.chAt_putCh_same]
  · rw [Dev.chAt_putCh_same]

/-! ### Single bits -/

theorem bit_eq_testBit (v i : Nat) : bit v i = v.testBit i := by
  rw [Nat.testBit_eq_decide_div_mod_eq]
  rfl

theorem bit_setBit {f : Field} {i : Nat} (h : i < f.w) (d : Dev) : bit ((d.setBit f i).get f) i = true := by
  unfold Dev.setBit
  split
  case isTrue hset => exact hset
  case isFalse hclear =>
    rw [bit_eq_testBit, Bool.not_eq_true] at hclear
    rw [Dev.get_set_same, bit_eq_testBit, Nat.testBit_mod_two_pow, Nat.add_comm, Nat.testBit_two_pow_add_eq, hclear]
    simpa using h

theorem Dev.get_setBit_ne (d : Dev) (f g : Field) (i : Nat) (h : g.key ≠ f.key) : (d.setBit f i).get g = d.get g := by
  unfold Dev.setBit
  split
  · rfl
  · exact d.get_set_ne f g _ h

/-- R215: SIGNAL_CE sets its bit of the engine's signal word. -/
theorem bit_signalCe {b : Nat} (h : b < 16) (n : Nat) (d : Dev) : bit ((signalCe n b d).get (CE_SPEC_VALUE n 4)) b = true :=
  bit_setBit (f := CE_SPEC_VALUE n 4) h d

/-! ### The converter -/

theorem adcHold_free {t i : Nat} {d : Dev} (h : d.ainBusy i = false) :
    adcHold t i d = { d with mon := { d.mon with held := d.mon.held ++ [⟨i, t + 8⟩] } } := by
  have hany : d.mon.held.any (fun x => x.ain == i && x.at_ == t + 8) = false := by
    rw [List.any_eq_false]
    intro x hx hboth
    have hnone := h
    rw [Dev.ainBusy, Bool.or_eq_false_iff] at hnone
    obtain ⟨hheld, -⟩ := hnone
    rw [Bool.and_eq_true] at hboth
    obtain ⟨hain, -⟩ := hboth
    exact List.any_eq_false.mp hheld x hx hain
  simp only [adcHold, hany, h, Bool.false_eq_true, if_false]

/-- A loop whose turns do nothing but for one index has the effect of that turn. -/
theorem foldl_range_single (f : Nat → Dev → Dev) (i n : Nat) (d : Dev) :
    (List.range n).foldl (fun x j => if j = i then f j x else x) d = if i < n then f i d else d := by
  induction n with
  | zero => simp
  | succ n ih =>
    rw [List.range_succ, List.foldl_append, ih]
    by_cases hin : n = i
    · simp [hin]
    · by_cases hlt : i < n
      · simp [hin, hlt, Nat.lt_succ_of_lt hlt]
      · have hno : ¬ i < n + 1 := by omega
        simp [hin, hlt, hno]

/-- R526: a trigger of one free input holds its sample 8 TCLK later. -/
theorem adcTrigger_single {t i : Nat} {d : Dev} (hi : i < 16) (hm : d.mode ≠ 0) (hfree : d.ainBusy i = false) :
    (adcTrigger t (2 ^ i) d).mon.held = d.mon.held ++ [⟨i, t + 8⟩] := by
  have hbit : ∀ j, (bit (2 ^ i) j = true) = (j = i) := fun j => by
    rw [bit_eq_testBit, Nat.testBit_two_pow, decide_eq_true_eq]
    exact propext eq_comm
  simp only [adcTrigger, if_neg hm, hbit]
  rw [foldl_range_single (adcHold t), if_pos hi, adcHold_free hfree]

/-! ### The DMA engine -/

theorem trigDma_off {c : Nat} {d : Dev} (h : d.on (DMA_CFG_EV_CH c) = false) : trigDma c d = d := by
  simp only [trigDma, h, Bool.false_eq_true, if_false]

/-- R421: an event below the largest count is counted. -/
theorem evCount_trigDma {c : Nat} {d : Dev} (hon : d.on (DMA_CFG_EV_CH c) = true) (hst : d.get (DMA_STATUS_STATE c) ≠ 0)
    (hcnt : d.get (DMA_STATUS_EV_COUNT c) < 255) :
    (trigDma c d).get (DMA_STATUS_EV_COUNT c) = d.get (DMA_STATUS_EV_COUNT c) + 1 := by
  have hw : (DMA_STATUS_EV_COUNT c).w = 8 := rfl
  have hne : ¬ d.get (DMA_STATUS_EV_COUNT c) = 255 := by omega
  have hroom : d.get (DMA_STATUS_EV_COUNT c) + 1 < 2 ^ (DMA_STATUS_EV_COUNT c).w := by rw [hw]; omega
  simp only [trigDma, hon, if_true, dmaEvent, if_neg hst, if_neg hne, Dev.inc, if_pos hroom, Dev.get_set_same]
  exact Nat.mod_eq_of_lt hroom

/-! ### The gates -/

/-- R202, R203: a CLOSED gate opens when it is qualified, and else waits. -/
theorem state_gateOpenReq {n : Nat} {d : Dev} (h0 : d.mode ≠ 0) (h5 : d.mode ≠ 5) (hclosed : d.get (TXG_STATUS_STATE n) = 0) (t : Nat) :
    (gateOpenReq n t d).get (TXG_STATUS_STATE n) = if d.gateQual n then 2 else 1 := by
  have hlive : ¬ (d.mode = 0 ∨ d.mode = 5) := not_or.mpr ⟨h0, h5⟩
  simp only [gateOpenReq, if_neg hlive, if_pos hclosed, Dev.get_putGate, Dev.get_set_same]
  split <;> rfl

/-- R204: in MOORED and BOATHOUSE the request is rejected, which LAST_REJECT records (log entry 42), and the gate stays as it is. -/
theorem gateOpenReq_rejected {n : Nat} {d : Dev} (h : d.mode = 0 ∨ d.mode = 5) (t : Nat) :
    (gateOpenReq n t d).get (TXG_STATUS_STATE n) = d.get (TXG_STATUS_STATE n) ∧ (gateOpenReq n t d).on (TXG_STATUS_LAST_REJECT n) = true := by
  have hcause : ∀ g : Field, g.key ≠ TXG_IRQ_STAT_REJECT.key → g.key ≠ (TXG_COUNTS_REJECT_CNT n).key →
      (gateOpenReq n t d).get g = (d.cause (TXG_STATUS_LAST_REJECT n)).get g := fun g hstat hcnt => by
    rw [gateOpenReq, if_pos h]
    exact (Dev.get_setBit_ne _ _ g n hstat).trans (Dev.get_set_ne _ _ g _ hcnt)
  refine ⟨?_, ?_⟩
  · rw [hcause, Dev.get_cause, Dev.get_set_ne] <;>
    · simp only [Field.key, TXG_STATUS_STATE, TXG_STATUS_LAST_REJECT, TXG_IRQ_STAT_REJECT, TXG_COUNTS_REJECT_CNT, fld]
      omega
  · rw [Dev.on, hcause, Dev.get_cause, Dev.get_set_same]
    · rfl
    all_goals
      simp only [Field.key, TXG_STATUS_LAST_REJECT, TXG_IRQ_STAT_REJECT, TXG_COUNTS_REJECT_CNT, fld]
      omega

/-! ### The statement -/

/-- The fields of the gates, of the DMA engine and of the control engines are none that a channel shows. -/
theorem ChanShown.get_below {n : Nat} {d e : Dev} (h : ChanShown n d e) {f : Field} (hf : f.key < 0x100000 * 32) :
    e.get f = d.get f := h.get (not_mem_shownKeys hf)

section
variable {s : State} (h : s.dev.tclkRuns = true) (n : Fin 256)
include h

theorem actionNop_fires : Fires (.actionNop n) s n 0 fun b _ d => d.get (CH_STATUS_LEVEL n) = b.get (CH_STATUS_LEVEL n) :=
  fires_of_action rfl h rfl fun b e rest ha => by
    rw [(chanShown_eventReport ..).get (level_not_mem_shownKeys n)]
    simp only [chAct, ha]
    rfl

theorem mark_fires : Fires (.mark n) s n 15 fun b _ d => (d.chAt n).fifo.seq = ((b.chAt n).fifo.seq + 1) % 2 ^ 28 ∧
    d.get (CH_STATUS_LEVEL n) = b.get (CH_STATUS_LEVEL n) :=
  fires_of_action rfl h rfl fun b e rest ha => by
    rw [(chanShown_eventReport ..).get (level_not_mem_shownKeys n), seq_eventReport_mark ha]
    simp only [chAct, ha, takenOff, Dev.chAt_putCh_same]
    exact ⟨trivial, rfl⟩

theorem captureArm_fires : Fires (.captureArm n) s n 7 fun b e d => (d.chAt n).cap = insertCap ⟨e.time, .arm e.param⟩ (b.chAt n).cap :=
  fires_of_action rfl h rfl fun b e rest ha => by
    simp only [chAct, ha, cap_captureGate]

theorem captureDisarm_fires : Fires (.captureDisarm n) s n 8 fun b e d =>
    (d.chAt n).cap = insertCap ⟨e.time, .disarm (2 * b2n e.synth)⟩ (b.chAt n).cap :=
  fires_of_action rfl h rfl fun b e rest ha => by
    simp only [chAct, ha, cap_captureGate]

theorem trigAdc_fires : Fires (.trigAdc n) s n 9 fun b e d => ∀ i : Nat, i < 16 → e.param = 2 ^ i → b.mode ≠ 0 → b.ainBusy i = false →
    d.mon.held = b.mon.held ++ [⟨i, dueOf e.time + 8⟩] :=
  fires_of_action rfl h rfl fun b e rest ha i hi hparam hm hfree => by
    rw [(chanShown_eventReport ..).mon]
    simp only [chAct, ha, hparam]
    exact adcTrigger_single (d := takenOff n e rest b) hi hm hfree

theorem trigDma_fires : Fires (.trigDma n) s n 10 fun b e d => (b.on (DMA_CFG_EV_CH (e.param % 16)) = false → d.dma = b.dma ∧
      d.get (DMA_STATUS_EV_COUNT (e.param % 16)) = b.get (DMA_STATUS_EV_COUNT (e.param % 16))) ∧
    (b.on (DMA_CFG_EV_CH (e.param % 16)) = true → b.get (DMA_STATUS_STATE (e.param % 16)) ≠ 0 → b.get (DMA_STATUS_EV_COUNT (e.param % 16)) < 255 →
      d.get (DMA_STATUS_EV_COUNT (e.param % 16)) = b.get (DMA_STATUS_EV_COUNT (e.param % 16)) + 1) :=
  fires_of_action rfl h rfl fun b e rest ha => by
    have hcount : (DMA_STATUS_EV_COUNT (e.param % 16)).key < 0x100000 * 32 := by
      simp only [Field.key, DMA_STATUS_EV_COUNT, fld]
      omega
    rw [(chanShown_eventReport ..).dma, (chanShown_eventReport ..).get_below hcount]
    simp only [chAct, ha]
    refine ⟨fun hoff => ?_, fun hon hst hcnt => evCount_trigDma (d := takenOff n e rest b) hon hst hcnt⟩
    rw [trigDma_off (d := takenOff n e rest b) hoff]
    exact ⟨rfl, rfl⟩

theorem signalCe_fires : Fires (.signalCe n) s n 11 fun _ e d => bit (d.get (CE_SPEC_VALUE (e.param % 8) 4)) (e.param / 16 % 16) = true :=
  fires_of_action rfl h rfl fun b e rest ha => by
    have hword : (CE_SPEC_VALUE (e.param % 8) 4).key < 0x100000 * 32 := by
      simp only [Field.key, CE_SPEC_VALUE, fld]
      omega
    rw [(chanShown_eventReport ..).get_below hword]
    simp only [chAct, ha]
    exact bit_signalCe (by omega) _ _

theorem raiseIrq_fires : Fires (.raiseIrq n) s n 12 fun _ _ d => d.on (CH_IRQ_STAT_RAISE n) = true :=
  fires_of_action rfl h rfl fun b e rest ha => by
    rw [(chanShown_eventReport ..).on (raise_not_mem_shownKeys n)]
    simp only [chAct, ha, Dev.on_cause, Dev.on_set_same]
    rfl

theorem gateOpen_fires : Fires (.gateOpen n) s n 13 fun b e d =>
    (b.mode ≠ 0 → b.mode ≠ 5 → b.get (TXG_STATUS_STATE (e.param % 8)) = 0 →
      d.get (TXG_STATUS_STATE (e.param % 8)) = if b.gateQual (e.param % 8) then 2 else 1) ∧
    (b.mode = 0 ∨ b.mode = 5 → d.get (TXG_STATUS_STATE (e.param % 8)) = b.get (TXG_STATUS_STATE (e.param % 8)) ∧
      d.on (TXG_STATUS_LAST_REJECT (e.param % 8)) = true) :=
  fires_of_action rfl h rfl fun b e rest ha => by
    have hstatus : (TXG_STATUS_STATE (e.param % 8)).key < 0x100000 * 32 := by
      simp only [Field.key, TXG_STATUS_STATE, fld]
      omega
    have hreject : (TXG_STATUS_LAST_REJECT (e.param % 8)).key ∉ shownKeys n := not_mem_shownKeys (by
      simp only [Field.key, TXG_STATUS_LAST_REJECT, fld]
      omega)
    rw [(chanShown_eventReport ..).get_below hstatus, (chanShown_eventReport ..).on hreject]
    simp only [chAct, ha]
    exact ⟨fun h0 h5 hclosed => state_gateOpenReq (d := takenOff n e rest b) h0 h5 hclosed _,
      fun hheld => gateOpenReq_rejected (d := takenOff n e rest b) hheld _⟩

theorem gateClose_fires : Fires (.gateClose n) s n 14 fun _ e d => d.get (TXG_STATUS_STATE (e.param % 8)) = 0 :=
  fires_of_action rfl h rfl fun b e rest ha => by
    have hstatus : (TXG_STATUS_STATE (e.param % 8)).key < 0x100000 * 32 := by
      simp only [Field.key, TXG_STATUS_STATE, fld]
      omega
    rw [(chanShown_eventReport ..).get_below hstatus]
    simp only [chAct, ha, gateCloseReq, Dev.get_set_same, Nat.zero_mod]

end

/-- Settles O24, action by action; the capture unit's own clauses come last. That a rejected gate request is recorded in
LAST_REJECT and that CAPTURE_ARM clears COUNT_LIVE are choices of the model (log entries 42 and 45). -/
theorem otherActionsHaveTheirEffect : Obligations.OtherActionsHaveTheirEffect := by
  unfold Obligations.OtherActionsHaveTheirEffect
  refine ⟨fun s n h => ⟨actionNop_fires h n, mark_fires h n, captureArm_fires h n, captureDisarm_fires h n, trigAdc_fires h n, trigDma_fires h n,
    signalCe_fires h n, raiseIrq_fires h n, gateOpen_fires h n, gateClose_fires h n⟩, fun d n limit flags t _ halways => ?_⟩
  obtain ⟨harmed, hopen, hleft, hcount⟩ := captureArm_opens halways t limit
  exact ⟨harmed, hopen, hleft, hcount, fun harm hdis => captureDisarm_closes halways harm hdis t flags⟩

end Sys2Proof.Machine
end

section
/-!
O5, O3, O4: the consequences of a command keep the gates, TXINH_N and the candidates as their rules ask (R200, R203, R205, R398), and
change nothing outside their fields.
-/
namespace Sys2Proof.Machine

/-! ### What a step answers -/

/-- A command leaves the state, or answers it with the consequences of an effect in the device. -/
theorem exec_cases {i : Instr} {s t : State} (h : exec i s = .next t) : t = s ∨ ∃ d, t = { s with dev := aftermath s.dev d } := by
  rcases exec_form i s with ⟨f, hf⟩ | ⟨f, hf⟩ <;> rw [hf] at h
  · by_cases hheld : s.dev.clock.phase = .held
    · rw [run_held s f hheld] at h
      cases h
      exact .inl rfl
    · rw [run_next s f hheld] at h
      cases h
      exact .inr ⟨_, rfl⟩
  · cases h
    exact .inr ⟨_, rfl⟩

/-- So does a step, the queue aside. -/
theorem step_cases {s t : State} (h : step s = .next t) : t.dev = s.dev ∨ ∃ d, t.dev = aftermath s.dev d := by
  obtain ⟨pending, dev⟩ := s
  cases pending with
  | cons c rest =>
    have hexec : exec c ⟨rest, dev⟩ = .next t := h
    rcases exec_cases hexec with rfl | ⟨d, rfl⟩
    · exact .inl rfl
    · exact .inr ⟨d, rfl⟩
  | nil =>
    rw [step_empty rfl] at h
    by_cases hheld : dev.clock.phase = .held
    · rw [run_held _ _ hheld] at h
      cases h
      exact .inl rfl
    · rw [run_next _ _ hheld] at h
      cases h
      exact .inr ⟨_, rfl⟩

/-! ### The invariant -/

theorem inv_of_dev_eq {s t : State} (h : t.dev = s.dev) (hs : Inv s) : Inv t where
  gates := h ▸ hs.gates
  inhibit := h ▸ hs.inhibit
  candidates := h ▸ hs.candidates

/-- The consequences of any effect bring the invariant about. -/
theorem inv_of_aftermath {t : State} {b d : Dev} (h : t.dev = aftermath b d) : Inv t where
  gates := h ▸ gates_aftermath b d
  inhibit := h ▸ inhibit_aftermath b d
  candidates := h ▸ cands_aftermath b d

/-- Settles O5: a step that changes the device ends with the consequences of its effect, which judge every gate, TXINH_N and every
candidate anew. -/
theorem invariantKeptByEveryStep : Obligations.InvariantKeptByEveryStep := by
  unfold Obligations.InvariantKeptByEveryStep
  intro s t hs hstep
  rcases step_cases hstep with heq | ⟨d, hd⟩
  · exact inv_of_dev_eq heq hs
  · exact inv_of_aftermath hd

/-! ### The frame of a command -/

/-- The fused values aside, putting those of before back leaves the rest of the device (R468). -/
theorem rest_fusedBack {d e : Dev} (h : e.rest = d.rest) (u : Fused) :
    { ({ e with fused := u } : Dev).rest with fused := d.fused } = d.rest := by
  have hfused : e.fused = d.fused := show e.rest.fused = d.rest.fused by rw [h]
  rw [← h, ← hfused]
  rfl

/-- Settles O3: the frame of the consequences, part by part; the fused values are those of before (R468). -/
theorem consequencesChangeOnlyTheirFields : Obligations.ConsequencesChangeOnlyTheirFields := by
  unfold Obligations.ConsequencesChangeOnlyTheirFields
  intro b d
  have hsame : Same afterKey d (afterTail d.settle) := same_effects d
  have hregs : RegsKept (fun _ => false) d (aftermath b d) := fun r k _ hk => by
    rw [regs_aftermath]
    exact hsame.regs r k hk
  have hrest : { (aftermath b d).rest with fused := d.fused } = d.rest := by
    unfold aftermath
    exact rest_fusedBack hsame.rest b.fused
  have hmem : (aftermath b d).mem = d.mem := part_aftermath b d Dev.mem (fun _ => rfl) fun _ _ => rfl
  exact ⟨hregs, hrest, fun a => by rw [hmem], fused_aftermath b d⟩

/-! ### Reset -/

theorem pendList_nil {d : Dev} (h : ∀ i, i < 32 → d.get (IRQ_PEND_PEND i) = 0) : d.pendList = [] := by
  rw [Dev.pendList, List.flatMap_eq_nil_iff]
  intro i hi
  simp [h i (List.mem_range.mp hi)]

/-- R398: with no source pending no target has a candidate. -/
theorem candidate_of_nonePending {d : Dev} (h : d.pendList = []) (t : Nat) : d.candidate t = 1023 := by
  simp [Dev.candidate, h]

theorem gatesClosed_reset : ∀ n, n < 8 → State.reset.dev.get (TXG_STATUS_STATE n) = 0 := by decide

theorem pendList_reset : State.reset.dev.pendList = [] := pendList_nil (by decide)

theorem noCandidateShown_reset : ∀ t, t < 11 → State.reset.dev.get (IRQ_T_STATUS_CAND t) = 1023 := by decide

/-- Settles O4: at reset every gate is CLOSED, so that TXINH_N is low, and no source is pending. -/
theorem invariantHoldsAtReset : Obligations.InvariantHoldsAtReset := by
  unfold Obligations.InvariantHoldsAtReset
  refine ⟨fun n hn hopen => ?_, ?_, fun t ht => ?_⟩
  · rw [gatesClosed_reset n hn] at hopen
    cases hopen
  · unfold InhibitShown
    decide
  · rw [noCandidateShown_reset t ht, candidate_of_nonePending pendList_reset]

end Sys2Proof.Machine
end

section
/-!
O28: the states of the synthesisers, their calibration rounds and guard periods, and the requests that wait for the catch (R192 to R197,
R202).
-/
namespace Sys2Proof.Machine

/-! ### Entering a state -/

@[simp] theorem Dev.synAt_cause (d : Dev) (f : Field) (k : Nat) : (d.cause f).synAt k = d.synAt k := rfl
@[simp] theorem Dev.on_putSyn (d : Dev) (n : Nat) (x : Syn) (f : Field) : (d.putSyn n x).on f = d.on f := rfl
@[simp] theorem synAt_synEnter (n v : Nat) (d : Dev) (k : Nat) : (synEnter n v d).synAt k = d.synAt k := rfl
@[simp] theorem synAt_synNoAlign (n : Nat) (d : Dev) (k : Nat) : (synNoAlign n d).synAt k = d.synAt k := rfl

theorem keeps_synEnter (n v : Nat) (d : Dev) : Keeps [(SYN_STATUS_STATE n).key, (SYN_IRQ_STAT_STATE n).key] d (synEnter n v d) :=
  (keeps_set d _ v).trans (keeps_cause _ _)

/-- The entry to a state changes only fields that show it. -/
theorem get_synEnter {n : Nat} {f : Field} (hs : f.key ≠ (SYN_STATUS_STATE n).key) (hc : f.key ≠ (SYN_IRQ_STAT_STATE n).key) (v : Nat) (d : Dev) :
    (synEnter n v d).get f = d.get f := keeps_synEnter n v d f (by simp [hs, hc])

theorem on_synEnter {n : Nat} {f : Field} (hs : f.key ≠ (SYN_STATUS_STATE n).key) (hc : f.key ≠ (SYN_IRQ_STAT_STATE n).key) (v : Nat) (d : Dev) :
    (synEnter n v d).on f = d.on f := by
  unfold Dev.on
  rw [get_synEnter hs hc]

theorem state_synEnter {v : Nat} (hv : v < 8) (n : Nat) (d : Dev) : (synEnter n v d).get (SYN_STATUS_STATE n) = v := by
  rw [synEnter, Dev.get_cause, Dev.get_set_ne _ _ _ _ (by simp only [Field.key, SYN_STATUS_STATE, SYN_IRQ_STAT_STATE, fld]; omega),
    Dev.get_set_same]
  exact Nat.mod_eq_of_lt hv

/-- R194: every change of state sets the STATE cause. -/
theorem cause_synEnter (n v : Nat) (d : Dev) : (synEnter n v d).on (SYN_IRQ_STAT_STATE n) = true := by
  rw [synEnter, Dev.on_cause, Dev.on_set_same]
  rfl

theorem get_synNoAlign {n : Nat} {f : Field} (h : f.key ≠ (SYN_STATUS_NO_ALIGN n).key) (d : Dev) : (synNoAlign n d).get f = d.get f :=
  d.get_set_ne _ f _ h

theorem on_synNoAlign {n : Nat} {f : Field} (h : f.key ≠ (SYN_STATUS_NO_ALIGN n).key) (d : Dev) : (synNoAlign n d).on f = d.on f :=
  d.on_set_ne _ f _ h

theorem noAlign_synNoAlign (n : Nat) (d : Dev) : (synNoAlign n d).on (SYN_STATUS_NO_ALIGN n) =
    (d.get (SYN_STATUS_STATE n) == 3 && d.on (SYN_ALIGN_ALIGN_EN n) && !d.synWhole n) := b2n_on d _ _ rfl

/-- Whether the frequency fits the grid rests on its configuration alone (R192). -/
theorem synWhole_synEnter (n v : Nat) (d : Dev) : (synEnter n v d).synWhole n = d.synWhole n := by
  simp (disch := simp only [Field.key, SYN_CFG_N, SYN_FRAC_DEN_DEN, SYN_FRAC_NUM_NUM, SYN_ALIGN_PERIOD_S, SYN_ODIV_ODIV, SYN_STATUS_STATE,
    SYN_IRQ_STAT_STATE, fld]; omega) only [Dev.synWhole, Dev.synNum, get_synEnter]

theorem state_synNoAlign_synEnter {v : Nat} (hv : v < 8) (n : Nat) (d : Dev) :
    (synNoAlign n (synEnter n v d)).get (SYN_STATUS_STATE n) = v := by
  rw [get_synNoAlign (by simp only [Field.key, SYN_STATUS_STATE, SYN_STATUS_NO_ALIGN, fld]; omega), state_synEnter hv]

/-! ### The slices of a round -/

/-- R196, R197: slices count in the synthesiser, and a round that they complete clears CAL_OVERDUE; no guard period is converted. -/
theorem synSlices_cases (n : Nat) (d : Dev) : synSlices n d = d ∨ ∃ x : Syn,
    (synSlices n d = d.putSyn n x ∨ synSlices n d = (d.putSyn n x).set (SYN_STATUS_CAL_OVERDUE n) 0) ∧ x.guardAt = (d.synAt n).guardAt := by
  unfold synSlices
  dsimp only
  split
  case isTrue => exact .inl rfl
  case isFalse =>
    split
    case isTrue => exact .inr ⟨_, .inl rfl, rfl⟩
    case isFalse =>
      split
      case isTrue => exact .inl rfl
      case isFalse =>
        split
        case isTrue => exact .inr ⟨_, .inr rfl, rfl⟩
        case isFalse => exact .inr ⟨_, .inl rfl, rfl⟩

theorem get_synSlices {n : Nat} {f : Field} (h : f.key ≠ (SYN_STATUS_CAL_OVERDUE n).key) (d : Dev) : (synSlices n d).get f = d.get f := by
  rcases synSlices_cases n d with he | ⟨x, he | he, -⟩ <;> rw [he]
  · rfl
  · exact Dev.get_set_ne _ _ _ _ h

theorem guardAt_synSlices (n : Nat) (d : Dev) : ((synSlices n d).synAt n).guardAt = (d.synAt n).guardAt := by
  rcases synSlices_cases n d with he | ⟨x, he | he, hx⟩ <;> rw [he]
  · rw [Dev.synAt_putSyn_same, hx]
  · rw [Dev.synAt_set, Dev.synAt_putSyn_same, hx]

/-! ### The changes of state of R194 -/

theorem synCalDone_settles {n : Nat} {d : Dev} (h : d.get (SYN_STATUS_STATE n) = 1) :
    (synCalDone n d).get (SYN_STATUS_STATE n) = 2 ∧ (synCalDone n d).on (SYN_IRQ_STAT_STATE n) = true ∧
      ((synCalDone n d).synAt n).since = d.clock.now ∧ Keeps [(SYN_STATUS_STATE n).key, (SYN_IRQ_STAT_STATE n).key] d (synCalDone n d) := by
  rw [synCalDone, if_pos h]
  refine ⟨state_synEnter (by decide) .., cause_synEnter .., ?_, keeps_synEnter n 2 _⟩
  rw [synAt_synEnter, Dev.synAt_putSyn_same]

theorem synCalDone_idle {n : Nat} {d : Dev} (h : d.get (SYN_STATUS_STATE n) ≠ 1) : synCalDone n d = d := if_neg h

theorem settling_of_lockDue {n : Nat} {d : Dev} (h : d.due (d.lockAt n) = true) :
    d.get (SYN_STATUS_STATE n) = 2 ∧ (d.synAt n).since + 100000 ≤ d.clock.now := by
  unfold Dev.lockAt at h
  split at h
  case isTrue hst => exact ⟨hst, of_decide_eq_true h⟩
  case isFalse => cases h

theorem synLock_locks {n : Nat} {d : Dev} (h : d.due (d.lockAt n) = true) :
    (synLock n d).get (SYN_STATUS_STATE n) = 3 ∧ ((synLock n d).synAt n).out = true ∧
      (synLock n d).on (SYN_STATUS_NO_ALIGN n) = (d.on (SYN_ALIGN_ALIGN_EN n) && !d.synWhole n) := by
  rw [synLock, if_pos (settling_of_lockDue h)]
  refine ⟨state_synNoAlign_synEnter (by decide) .., ?_, ?_⟩
  · rw [synAt_synNoAlign, synAt_synEnter, Dev.synAt_putSyn_same]
  · rw [noAlign_synNoAlign, state_synEnter (by decide), synWhole_synEnter, on_synEnter] <;>
      simp only [Field.key, SYN_ALIGN_ALIGN_EN, SYN_STATUS_STATE, SYN_IRQ_STAT_STATE, fld, ne_eq]
    · rfl
    all_goals omega

theorem synLockLost_counts {n : Nat} {d : Dev} (h : d.get (SYN_STATUS_STATE n) = 3 ∨ d.get (SYN_STATUS_STATE n) = 4) :
    (synLockLost n d).get (SYN_STATUS_STATE n) = 2 ∧ (synLockLost n d).on (SYN_IRQ_STAT_LOCK_LOST n) = true ∧
      ((synLockLost n d).synAt n).since = d.clock.now ∧
      (synLockLost n d).get (SYN_COUNTS_LOCK_LOSS_CNT n) = (d.inc (SYN_COUNTS_LOCK_LOSS_CNT n)).get (SYN_COUNTS_LOCK_LOSS_CNT n) := by
  rw [synLockLost, if_pos h]
  refine ⟨state_synNoAlign_synEnter (by decide) .., ?_, ?_, ?_⟩
  · rw [on_synNoAlign, on_synEnter, Dev.on_putSyn, Dev.on_cause, Dev.on_set_same]
    · rfl
    all_goals
      simp only [Field.key, SYN_IRQ_STAT_LOCK_LOST, SYN_STATUS_NO_ALIGN, SYN_STATUS_STATE, SYN_IRQ_STAT_STATE, fld]
      omega
  · rw [synAt_synNoAlign, synAt_synEnter, Dev.synAt_putSyn_same]
    rfl
  · rw [get_synNoAlign, get_synEnter, Dev.get_putSyn, Dev.get_cause, Dev.get_set_ne]
    all_goals
      simp only [Field.key, SYN_COUNTS_LOCK_LOSS_CNT, SYN_IRQ_STAT_LOCK_LOST, SYN_STATUS_NO_ALIGN, SYN_STATUS_STATE, SYN_IRQ_STAT_STATE, fld]
      omega

theorem synLockLost_idle {n : Nat} {d : Dev} (h3 : d.get (SYN_STATUS_STATE n) ≠ 3) (h4 : d.get (SYN_STATUS_STATE n) ≠ 4) :
    synLockLost n d = d := if_neg (not_or.mpr ⟨h3, h4⟩)

theorem synAligned_aligns {n : Nat} {d : Dev} (h : d.get (SYN_STATUS_STATE n) = 3) (hen : d.on (SYN_ALIGN_ALIGN_EN n) = true)
    (hfits : d.synWhole n = true) : synAligned n d = synEnter n 4 d := if_pos ⟨h, hen, hfits⟩

theorem synAligned_idle {n : Nat} {d : Dev} (h : d.get (SYN_STATUS_STATE n) ≠ 3) : synAligned n d = d := if_neg fun ⟨hst, _⟩ => h hst

/-! ### Rounds and guard periods -/

/-- A round starts in no register. -/
theorem regs_calRound (n : Nat) (d : Dev) : (calRound n d).regs = d.regs := by
  unfold calRound
  dsimp only
  split
  · split <;> rfl
  · rfl

theorem synAt_calRound_ne {n k : Nat} (h : k ≠ n) (d : Dev) : (calRound n d).synAt k = d.synAt k := by
  unfold calRound
  dsimp only
  split
  · split
    · exact Dev.synAt_putSyn_ne _ _ _ _ h
    · exact (Dev.synAt_putSyn_ne _ _ _ _ h).trans (Dev.synAt_putSyn_ne _ _ _ _ h)
  · rfl

/-- R197: the next round comes INTERVAL_S later; that a running round goes on is the model's choice (log entry 44). -/
theorem calRound_starts {n : Nat} {d : Dev} (h : 2 ≤ d.get (SYN_STATUS_STATE n)) :
    ((calRound n d).synAt n).nextRound = some (d.clock.now + d.get (SYN_CAL_CFG_INTERVAL_S n) * 1000000000) ∧
      ((d.synAt n).roundAt = none → ((calRound n d).synAt n).roundAt = some d.clock.now ∧ ((calRound n d).synAt n).slices = 0) ∧
      ((d.synAt n).roundAt.isSome = true → ((calRound n d).synAt n).roundAt = (d.synAt n).roundAt) := by
  cases hround : (d.synAt n).roundAt <;> simp [calRound, h, hround]

/-- R196: the guard period that opens has been converted, and lasts LEN_NS. -/
theorem guardPeriod_opens {n t : Nat} {d : Dev} (ht : (d.synAt n).guardAt.head? = some t) :
    ((guardPeriod n d).synAt n).guardAt = (d.synAt n).guardAt.tail ∧
      (d.guardLive n = true → d.get (SYN_STATUS_STATE n) ≠ 0 → ((guardPeriod n d).synAt n).guardEnd = t + d.get (SYN_GUARD_LEN_NS n)) := by
  simp only [guardPeriod, ht]
  split
  case isTrue =>
    rw [Dev.synAt_putSyn_same, guardAt_synSlices, get_synSlices (by simp only [Field.key, SYN_GUARD_LEN_NS, SYN_STATUS_CAL_OVERDUE, fld]; omega)]
    exact ⟨rfl, fun _ _ => rfl⟩
  case isFalse hno =>
    rw [Dev.synAt_putSyn_same]
    exact ⟨rfl, fun hlive hst => absurd ⟨hlive, hst⟩ hno⟩

/-- R197: a round that still runs at its limit is overdue. -/
theorem calOverdue_sets {n : Nat} {d : Dev} (h : ((synSlices n d).synAt n).roundAt.isSome = true) :
    (calOverdue n d).on (SYN_STATUS_CAL_OVERDUE n) = true ∧ (calOverdue n d).on (SYN_IRQ_STAT_CAL_OVERDUE n) = true := by
  simp only [calOverdue, h, if_true, Dev.on_cause]
  rw [Dev.on_set_ne _ _ _ _ (by simp only [Field.key, SYN_STATUS_CAL_OVERDUE, SYN_IRQ_STAT_CAL_OVERDUE, fld]; omega), Dev.on_set_same,
    Dev.on_set_same]
  exact ⟨rfl, rfl⟩

/-! ### The commands -/

section
variable {s : State} (h : s.dev.tclkRuns = true) (n : Fin 4)
include h

theorem synCalibrationDone_completes : Completes (.synCalibrationDone n) s (synCalDone n s.dev) := completes_live rfl h

theorem lockLost_completes : Completes (.lockLost n) s (synLockLost n s.dev) := completes_live rfl h

theorem synAligned_completes : Completes (.synAligned n) s (synAligned n s.dev) := completes_live rfl h

theorem phaseLock_takesPlace : TakesPlace (.phaseLock n) s (fun d => d.lockAt n) fun b d => d.get (SYN_STATUS_STATE n) = 3 ∧
    (d.synAt n).out = true ∧ d.on (SYN_STATUS_NO_ALIGN n) = (b.on (SYN_ALIGN_ALIGN_EN n) && !b.synWhole n) :=
  takesPlace_onInstant rfl h fun _ hdue => synLock_locks hdue

theorem phaseLock_idle (hst : s.dev.get (SYN_STATUS_STATE n) ≠ 2) : Completes (.phaseLock n) s s.dev :=
  completes_onInstant_none rfl h (if_neg hst)

theorem calRound_takesPlace : TakesPlace (.calRound n) s (fun d => (d.synAt n).nextRound) fun b d => d.regs = b.regs ∧
    (2 ≤ b.get (SYN_STATUS_STATE n) → (d.synAt n).nextRound = some (b.clock.now + b.get (SYN_CAL_CFG_INTERVAL_S n) * 1000000000) ∧
      ((b.synAt n).roundAt = none → (d.synAt n).roundAt = some b.clock.now ∧ (d.synAt n).slices = 0) ∧
      ((b.synAt n).roundAt.isSome = true → (d.synAt n).roundAt = (b.synAt n).roundAt)) ∧
    ∀ k, k ≠ n.val → d.synAt k = b.synAt k :=
  takesPlace_onInstant rfl h fun b _ => ⟨regs_calRound n b, calRound_starts, fun _ hk => synAt_calRound_ne hk b⟩

theorem guardPeriod_takesPlace : TakesPlace (.guardPeriod n) s (fun d => (d.synAt n).guardAt.head?) fun b d =>
    (d.synAt n).guardAt = (b.synAt n).guardAt.tail ∧
    ∀ t, (b.synAt n).guardAt.head? = some t → b.guardLive n = true → b.get (SYN_STATUS_STATE n) ≠ 0 →
      (d.synAt n).guardEnd = t + b.get (SYN_GUARD_LEN_NS n) :=
  takesPlace_onInstant rfl h fun b hdue => by
    cases hhead : (b.synAt n).guardAt.head? with
    | none =>
      rw [hhead] at hdue
      cases hdue
    | some t =>
      obtain ⟨htail, hend⟩ := guardPeriod_opens hhead
      exact ⟨htail, fun u hu => Option.some.inj hu ▸ hend⟩

theorem calOverdue_takesPlace : TakesPlace (.calOverdue n) s (fun d => d.calLimit n) fun b d =>
    ((synSlices n b).synAt n).roundAt.isSome = true →
      d.on (SYN_STATUS_CAL_OVERDUE n) = true ∧ d.on (SYN_IRQ_STAT_CAL_OVERDUE n) = true :=
  takesPlace_onInstant rfl h fun _ _ => calOverdue_sets

end

/-- Settles O28, command by command. That a round still running goes on when the next one is due is a choice of the model (log entry 44). -/
theorem synthesisersAndRequests : Obligations.SynthesisersAndRequests := by
  unfold Obligations.SynthesisersAndRequests
  refine ⟨fun s n h => ⟨fun hst => ⟨_, synCalibrationDone_completes h n, synCalDone_settles hst⟩, fun hst => ?_, phaseLock_takesPlace h n,
    phaseLock_idle h n, fun hst => ⟨_, lockLost_completes h n, synLockLost_counts hst⟩, fun h3 h4 => ?_, fun hst hen hfits => ?_, fun hst => ?_⟩,
    ⟨fun s h => ⟨fun n => completes_onBus (f := synRecal n) rfl h, fun n => completes_onBus (f := txgCtrlOpen n) rfl h,
      fun n => completes_onBus (f := txgCtrlClose n) rfl h⟩,
    fun s n h => ⟨calRound_takesPlace h n, guardPeriod_takesPlace h n, calOverdue_takesPlace h n⟩⟩⟩
  · have hc := synCalibrationDone_completes h n
    rwa [synCalDone_idle hst] at hc
  · have hc := lockLost_completes h n
    rwa [synLockLost_idle h3 h4] at hc
  · have hc := synAligned_completes h n
    rw [synAligned_aligns hst hen hfits] at hc
    exact ⟨_, hc, state_synEnter (by decide) .., cause_synEnter .., keeps_synEnter n 4 _⟩
  · have hc := synAligned_completes h n
    rwa [synAligned_idle hst] at hc

end Sys2Proof.Machine
end
